-- ==== Sys2Proof/Word.lean ====
section
/-! DEFINITION. The word types of the UX9 and their plainest arithmetic. R1 numbers bits from the least significant. -/

namespace Sys2Proof

/-- A byte of memory. -/
abbrev Byte := BitVec 8
/-- A word of instruction memory (R50). -/
abbrev Word32 := BitVec 32
/-- A general register (R10, R94). -/
abbrev Word := BitVec 64
/-- A descriptor register (R11, R145). -/
abbrev DescWord := BitVec 256

/-- The four streams of a core (R9). -/
inductive StreamName where
  | c | d | v | x
  deriving DecidableEq, Repr, Inhabited

/-- The four engines that take a core's engine instructions (R164, R183, R230, R333). -/
inductive EngineName where
  | data | vector | matrix | group
  deriving DecidableEq, Repr, Inhabited

end Sys2Proof
end

