-- ==== Sys2Proof/Machine/Table.lean ====
section
/-! DEFINITION. Sparse tables in one canonical form: keys strictly rising, and no entry that equals what an unlisted key reads as. Every
array of registers, cells or records of the machine is held so, and equal contents are equal data. -/

namespace Sys2Proof.Machine

/-- A sparse table from numbers to values. -/
abbrev Tab (α : Type) := List (Nat × α)

/-- The value at a key; an unlisted key reads as `d`. -/
def tabGet {α : Type} (d : α) : Tab α → Nat → α
  | [], _ => d
  | (k, v) :: t, n => if n = k then v else if n < k then d else tabGet d t n

/-- The value at a key, if the key is listed. -/
def tabFind {α : Type} : Tab α → Nat → Option α
  | [], _ => none
  | (k, v) :: t, n => if n = k then some v else if n < k then none else tabFind t n

/-- The table without a key. -/
def tabErase {α : Type} : Tab α → Nat → Tab α
  | [], _ => []
  | (k, v) :: t, n => if n = k then t else if n < k then (k, v) :: t else (k, v) :: tabErase t n

/-- The table with a key listed. -/
def tabInsert {α : Type} : Tab α → Nat → α → Tab α
  | [], n, x => [(n, x)]
  | (k, v) :: t, n, x =>
    if n = k then (n, x) :: t else if n < k then (n, x) :: (k, v) :: t else (k, v) :: tabInsert t n x

/-- The table with a value at a key, in canonical form for the unlisted value `d`. -/
def tabSet {α : Type} [DecidableEq α] (d : α) (t : Tab α) (n : Nat) (x : α) : Tab α :=
  if x = d then tabErase t n else tabInsert t n x

/-- Every key of the table is above `n`. -/
def tabAbove {α : Type} (n : Nat) : Tab α → Bool
  | [] => true
  | (k, _) :: _ => n < k

/-- The keys of the table rise strictly. -/
def tabSorted {α : Type} : Tab α → Bool
  | [] => true
  | (k, _) :: t => tabAbove k t && tabSorted t

/-- The canonical form: keys rise strictly and no entry holds the unlisted value. -/
def tabWf {α : Type} [DecidableEq α] (d : α) (t : Tab α) : Bool :=
  tabSorted t && t.all (fun p => decide (p.2 ≠ d))

/-- `n` consecutive values from key `a`, by rising key. -/
def tabRange {α : Type} (d : α) (t : Tab α) (a : Nat) : Nat → List α
  | 0 => []
  | n + 1 => tabGet d t a :: tabRange d t (a + 1) n

/-- Values written to consecutive keys from `a`. -/
def tabSetRange {α : Type} [DecidableEq α] (d : α) (t : Tab α) (a : Nat) : List α → Tab α
  | [] => t
  | v :: vs => tabSetRange d (tabSet d t a v) (a + 1) vs

/-- The entries of a range of keys, moved to stand from another key. -/
def tabSlice {α : Type} (t : Tab α) (a n b : Nat) : Tab α :=
  (t.filter fun p => a ≤ p.1 && p.1 < a + n).map fun p => (p.1 - a + b, p.2)

/-- The table without a range of keys. -/
def tabClear {α : Type} (t : Tab α) (a n : Nat) : Tab α := t.filter fun p => p.1 < a || a + n ≤ p.1

/-- The table with a range of keys holding what `u` lists for it. -/
def tabPaste {α : Type} (t : Tab α) (a n : Nat) (u : Tab α) : Tab α :=
  (t.filter fun p => p.1 < a) ++ (u.filter fun p => a ≤ p.1 && p.1 < a + n) ++ (t.filter fun p => a + n ≤ p.1)

/-! ### Lists in an order -/

/-- A value set into a list before the first that it may precede. -/
def insertBy {α : Type} (le : α → α → Bool) (x : α) : List α → List α
  | [] => [x]
  | y :: t => if le x y then x :: y :: t else y :: insertBy le x t

/-- A list in an order; values of equal rank stay as they stood. -/
def sortBy {α : Type} (le : α → α → Bool) : List α → List α
  | [] => []
  | x :: t => insertBy le x (sortBy le t)

end Sys2Proof.Machine
end

