-- ==== Sys2Proof/Machine/Bits.lean ====
section
/-! DEFINITION. Bit fields, sign extension and byte order (R1, R17). -/

namespace Sys2Proof.Machine

/-- The field of `w` bits of `x` from bit `lo` up (R1, R16). -/
def bitField (x lo w : Nat) : Nat := x / 2 ^ lo % 2 ^ w

/-- Bit `i` of `x`. -/
def bitAt (x i : Nat) : Bool := x / 2 ^ i % 2 = 1

/-- `x` with the `w` bits from `lo` replaced by the low bits of `v`. -/
def setField (x lo w v : Nat) : Nat := x - bitField x lo w * 2 ^ lo + v % 2 ^ w * 2 ^ lo

/-- Trunc of R17: an integer as an n-bit pattern. -/
def truncBits (x : Int) (n : Nat) : Nat := (x % (2 ^ n : Int)).toNat

/-- SignExt of R17. -/
def signExt (x n : Nat) : Int := let v := x % 2 ^ n; if 2 * v < 2 ^ n then v else (v : Int) - 2 ^ n

/-- The bits of a Boolean. -/
def b2n (b : Bool) : Nat := if b then 1 else 0

/-- The value of bytes, little-endian (R1). -/
def leNat : List Byte → Nat
  | [] => 0
  | b :: bs => b.toNat + 256 * leNat bs

/-- The low `n` bytes of a value, little-endian (R1). -/
def natLe : Nat → Nat → List Byte
  | 0, _ => []
  | n + 1, x => BitVec.ofNat 8 x :: natLe n (x / 256)

/-- A list of numbers `a`, `a + 1`, … of length `n`. -/
def upFrom (a : Nat) : Nat → List Nat
  | 0 => []
  | n + 1 => a :: upFrom (a + 1) n

/-- WrapGE of R17. -/
def wrapGE (a b : BitVec 32) : Bool := (a - b).toNat < 2 ^ 31

/-- The integer square root, by halving bits: the largest `r` with `r * r ≤ x`, for `x < 4 ^ fuel`. -/
def isqrtAux (x : Nat) : Nat → Nat → Nat
  | 0, r => r
  | f + 1, r => let r' := r + 2 ^ f; if r' * r' ≤ x then isqrtAux x f r' else isqrtAux x f r

/-- The integer square root. -/
def isqrt (x : Nat) : Nat := isqrtAux x (x.log2 / 2 + 1) 0

/-- Ceiling of a division. -/
def ceilDiv (a b : Nat) : Nat := (a + b - 1) / b

end Sys2Proof.Machine
end

