-- ==== Sys2Proof/Syntax.lean ====
section
/-! DEFINITION. The instructions and events of the UX9: one constructor for each row of the opcode table. Rows 0 to 214 are the
instructions of R64; the others are the steps that the other agents of the package take (95_what_each_step_holds.md). -/

namespace Sys2Proof

/-- The rounding modes of R32. -/
inductive RoundMode where
  | rne | rtz | rup | rdn | rna | sr
  deriving DecidableEq, Repr, Inhabited

/-- The rounding field of R55: a mode, or `none` for the mode held in VCTL.RM. -/
abbrev Rm := Option RoundMode

/-- The 96 cause codes of R358, in the order of their codes. -/
inductive Cause where
  | none | illegalOpcode | reservedField | badRegister | wrongStream | privileged | syncWordMissing | fetchAlign
  | fetchFault | brkHit | stepDone | loopNest | callDepth | extWordMisplaced | divideByZero | syscall
  | ldAlign | stAlign | noMapping | permRead | permWrite | permExec | absentStore | worldMismatch
  | spadRange | vaultRange | descInvalid | formatUnsupported | atomicAlign | remoteRefusedLimit | deviceAccessSize | classLocked
  | syncDeadlock | waitTimeout | pbOverflow | tenureConflictStore | tenureTimeout | tileHandleInvalid | tileHandleStale | tileTooMany
  | tileSplitBad | tileNotHeld | sealReuse | ringBad | rndvMismatch | groupAborted | groupMemberRefused | semRange
  | vecAlign | vecCount | vecOverlap | bankConflict | leaseNotHeld | arrayShape | sideNoAdapter | adapterHandleBad
  | adapterQuota | adapterRetired | rankState | histRange | accLive | fpTrap | int4ReservedTrap | cellopBad
  | eccData | eccMeta | macFail | treeFail | poisonHbm | poisonCxl | sramUncorrected | l2Uncorrected
  | linkDataCorrupt | tdispError | worldKeyAbsent | hallmarkMismatch | firmwareFault | thermalTrip | scrubFail | subtreeQuarantined
  | preemptCheckpoint | preemptKill | drainTimeout | flrKilled | haltRequest | timer | queueFull | launchBad
  | flowError | linkDown | remoteTimeout | migrationPause | marginRevoked | watchdog | flagLate | yielded
  deriving DecidableEq, Repr, Inhabited

/-- An immediate that may carry an extension word (R58): its value, and whether the extension word stands. -/
structure Imm where
  val : Int
  ext : Bool
  deriving DecidableEq, Repr, Inhabited

/-- What the firmware writes at creation into the CSRs of level P and context scope, SAVEBASE apart (R354, R373). -/
structure PrivRegs where
  saven : Nat
  tvec : Nat
  tvlen : Nat
  tdel0 : Nat
  tdel1 : Nat
  deriving DecidableEq, Repr, Inhabited

/-- The sync word of an engine instruction (R56). -/
structure Sync where
  give : Option Nat
  take0 : Option Nat
  take1 : Option Nat
  take2 : Option Nat
  rows : Option Nat
  nt : Bool
  deriving DecidableEq, Repr, Inhabited

/-- The relation of FCMP (R65, R106). -/
inductive FCond where
  | eq | lt | le | un
  deriving DecidableEq, Repr, Inhabited

/-- The operation of AMO (R65, R118). -/
inductive AmoOp where
  | add | min | max | minn | maxn | and | or | xor | xchg
  deriving DecidableEq, Repr, Inhabited

/-- The scope of a fence (R65, R297). -/
inductive Scope where
  | stream | core | cluster | die | pkg | sys
  deriving DecidableEq, Repr, Inhabited

/-- The kind of a fence (R65, R297). -/
inductive FenceKind where
  | acq | rel | full | eng
  deriving DecidableEq, Repr, Inhabited

/-- The predicate of VCMP (R192). -/
inductive VCond where
  | eq | ne | lt | le | gt | ge | un | ord
  deriving DecidableEq, Repr, Inhabited

/-- The source kind of VBCAST (R197). -/
inductive BcastKind where
  | hi64 | hn64 | hf32 | hf16 | hbf16
  deriving DecidableEq, Repr, Inhabited

/-- The operation of VRED (R201, R206). -/
inductive RedOp where
  | sum | max | min | amax | sumsq
  deriving DecidableEq, Repr, Inhabited

/-- The operation of VSCAN and of GRED (R201, R332). -/
inductive ScanOp where
  | sum | max | min
  deriving DecidableEq, Repr, Inhabited

/-- The metric of VDIST (R201, R208). -/
inductive Metric where
  | l2sq | l1 | ip | ham
  deriving DecidableEq, Repr, Inhabited

/-- The fill of XZERO (R231, R237). -/
inductive ZeroFill where
  | zero | neginf | posinf
  deriving DecidableEq, Repr, Inhabited

/-- The mask selection of a data-engine instruction (R169): none, MASK by rows, EMASK by elements. -/
inductive MaskKind where
  | none | rows | elems
  deriving DecidableEq, Repr, Inhabited

/-- The selector of AQRY (R255, R258). -/
inductive AqrySel where
  | state | ver | old | slot
  deriving DecidableEq, Repr, Inhabited

/-- The selector of TQRY (R282). -/
inductive TqrySel where
  | state | base | ext01 | ext23 | held
  deriving DecidableEq, Repr, Inhabited

/-- The selector of QSTAT (R352). -/
inductive QSel where
  | tail | prog | done | state
  deriving DecidableEq, Repr, Inhabited

/-- The operation of PMIG (R422). -/
inductive PmigOp where
  | toHbm | toCxl | evict
  deriving DecidableEq, Repr, Inhabited

/-- What a member announced and contributed to a group operation (R329, R333). `kind` is 0 GSYNC, 1 GRED, 2 GBCAST, 3 GGATH, 4 GLEAVE. -/
structure Contribution where
  key : Nat
  seq : Nat
  rank : Nat
  kind : Nat
  op : Nat
  n : Nat
  fmt : Nat
  root : Nat
  integer : Bool
  bits : List Nat
  /-- Each element's exact value: a sign, and a numerator and a denominator; a denominator 0 is an infinity, or NaN over a numerator 0. -/
  vals : List (Bool × Nat × Nat)
  /-- It carries what the member contributes; until then it announces the member's entry (R330). -/
  sent : Bool
  deriving DecidableEq, Repr, Inhabited

/-- Where a register is written: a function's BAR 0 (`tee` as in a request of the host port), its configuration space, the debug agent's window in the
physical function, or a die's health register (R5, R369, R426, R429, R430, R449). -/
inductive RegSite where
  | bar (vd : Nat) (tee : Option Nat)
  | config (vd : Nat)
  | agent
  | health (die : Nat)
  deriving DecidableEq, Repr, Inhabited

/-- A firmware image: its 32-bit version number, its bytes, and its Ed25519 and ML-DSA-65 signatures (R452). -/
structure FwImage where
  version : BitVec 32
  bytes : List Byte
  ed25519 : List Byte
  mlDsa : List Byte
  deriving DecidableEq, Repr, Inhabited

/-- An instruction of R64, or a step of another agent of the package. A register operand is the number its field holds (R61,
R63); an engine instruction carries its descriptor fields, its modifiers, its rounding field and its sync word. -/
inductive Instr where
  -- class Q (R85 to R93, R139, R140, R297, R312 to R316)
  | nop
  | b (off : Imm)
  | call (off : Imm)
  | ret
  | bccEq (ga gb : Nat) (off : Imm)
  | bccNe (ga gb : Nat) (off : Imm)
  | bccLt (ga gb : Nat) (off : Imm)
  | bccGe (ga gb : Nat) (off : Imm)
  | bccLtn (ga gb : Nat) (off : Imm)
  | bccGen (ga gb : Nat) (off : Imm)
  | loop (ga words : Nat)
  | rndv
  | whereQ (gd sel : Nat)
  | fence (kind : FenceKind) (scope : Scope)
  | semadd (k ga : Nat) (imm : Int)
  | semwait (k ga : Nat) (imm : Int)
  | semwaitTake (k : Nat)
  | semtry (gd k : Nat) (imm : Int)
  | semtryTake (gd k : Nat)
  | semset (k ga : Nat) (imm : Int)
  | semrd (gd k : Nat)
  | semrdDraw (gd k : Nat)
  | semrdPb (gd k : Nat)
  | pbwait (k ga imm : Nat)
  -- class S (R94 to R100)
  | add (gd ga gb : Nat)
  | sub (gd ga gb : Nat)
  | mul (gd ga gb : Nat)
  | mulh (gd ga gb : Nat)
  | mulhn (gd ga gb : Nat)
  | div (gd ga gb : Nat)
  | divn (gd ga gb : Nat)
  | rem (gd ga gb : Nat)
  | and (gd ga gb : Nat)
  | or (gd ga gb : Nat)
  | xor (gd ga gb : Nat)
  | shl (gd ga gb : Nat)
  | shr (gd ga gb : Nat)
  | sar (gd ga gb : Nat)
  | min (gd ga gb : Nat)
  | max (gd ga gb : Nat)
  | minn (gd ga gb : Nat)
  | maxn (gd ga gb : Nat)
  | slt (gd ga gb : Nat)
  | sltn (gd ga gb : Nat)
  | seq (gd ga gb : Nat)
  | sel (gd ga gb : Nat)
  | clz (gd ga : Nat)
  | ctz (gd ga : Nat)
  | popc (gd ga : Nat)
  | bfx (gd ga gb : Nat)
  | bfi (gd ga gb : Nat)
  | addi (gd ga : Nat) (imm : Imm)
  | andi (gd ga : Nat) (imm : Imm)
  | ori (gd ga : Nat) (imm : Imm)
  | xori (gd ga : Nat) (imm : Imm)
  | shli (gd ga sh : Nat)
  | shri (gd ga sh : Nat)
  | sari (gd ga sh : Nat)
  | li (gd : Nat) (imm : Imm)
  | lih (gd : Nat) (imm : Imm)
  | addpc (gd : Nat) (imm : Imm)
  -- class F (R102 to R122)
  | fadd (gd ga gb : Nat) (rm : Rm)
  | fsub (gd ga gb : Nat) (rm : Rm)
  | fmul (gd ga gb : Nat) (rm : Rm)
  | ffma (gd ga gb : Nat) (rm : Rm)
  | fdiv (gd ga gb : Nat) (rm : Rm)
  | fsqrt (gd ga : Nat) (rm : Rm)
  | fmin (gd ga gb : Nat)
  | fmax (gd ga gb : Nat)
  | fcmp (cc : FCond) (gd ga gb : Nat)
  | fclass (gd ga : Nat)
  | fcvtTo (gd ga fmt : Nat) (rm : Rm)
  | fcvtFrom (gd ga fmt : Nat) (rm : Rm)
  | ld1s (gd ga : Nat) (imm : Imm)
  | ld1z (gd ga : Nat) (imm : Imm)
  | ld2s (gd ga : Nat) (imm : Imm)
  | ld2z (gd ga : Nat) (imm : Imm)
  | ld4s (gd ga : Nat) (imm : Imm)
  | ld4z (gd ga : Nat) (imm : Imm)
  | ld8 (gd ga : Nat) (imm : Imm)
  | ld16 (gd ga : Nat) (imm : Imm)
  | st1 (gd ga : Nat) (imm : Imm)
  | st2 (gd ga : Nat) (imm : Imm)
  | st4 (gd ga : Nat) (imm : Imm)
  | st8 (gd ga : Nat) (imm : Imm)
  | st16 (gd ga : Nat) (imm : Imm)
  | amo4 (op : AmoOp) (gd ga gb : Nat)
  | amo8 (op : AmoOp) (gd ga gb : Nat)
  | acas4 (gd ga gb : Nat)
  | acas8 (gd ga gb : Nat)
  -- class V (R184 to R221)
  | vadd (dd da db : Nat) (rm : Rm) (sy : Sync)
  | vsub (dd da db : Nat) (rm : Rm) (sy : Sync)
  | vmul (dd da db : Nat) (rm : Rm) (sy : Sync)
  | vfma (dd da db : Nat) (rm : Rm) (sy : Sync)
  | vfms (dd da db : Nat) (rm : Rm) (sy : Sync)
  | vdiv (dd da db : Nat) (rm : Rm) (sy : Sync)
  | vmin (dd da db : Nat) (rm : Rm) (sy : Sync)
  | vmax (dd da db : Nat) (rm : Rm) (sy : Sync)
  | vabs (dd da : Nat) (rm : Rm) (sy : Sync)
  | vneg (dd da : Nat) (rm : Rm) (sy : Sync)
  | vand (dd da db : Nat) (sy : Sync)
  | vor (dd da db : Nat) (sy : Sync)
  | vxor (dd da db : Nat) (sy : Sync)
  | vnot (dd da : Nat) (sy : Sync)
  | vshl (dd da db : Nat) (sy : Sync)
  | vshr (dd da db : Nat) (sy : Sync)
  | vsar (dd da db : Nat) (sy : Sync)
  | vcmp (cc : VCond) (dd da db : Nat) (sy : Sync)
  | vsel (dd da db : Nat) (rm : Rm) (sy : Sync)
  | vcvt (dd da : Nat) (rm : Rm) (sy : Sync)
  | vexp2 (dd da : Nat) (rm : Rm) (sy : Sync)
  | vlog2 (dd da : Nat) (rm : Rm) (sy : Sync)
  | vrcp (dd da : Nat) (rm : Rm) (sy : Sync)
  | vrsq (dd da : Nat) (rm : Rm) (sy : Sync)
  | vsqrt (dd da : Nat) (rm : Rm) (sy : Sync)
  | vtanh (dd da : Nat) (rm : Rm) (sy : Sync)
  | vsig (dd da : Nat) (rm : Rm) (sy : Sync)
  | verf (dd da : Nat) (rm : Rm) (sy : Sync)
  | vsin (dd da : Nat) (rm : Rm) (sy : Sync)
  | vcos (dd da : Nat) (rm : Rm) (sy : Sync)
  | vclamp (dd da db : Nat) (rm : Rm) (sy : Sync)
  | vscale (dd da db : Nat) (rm : Rm) (sy : Sync)
  | vbcast (kind : BcastKind) (dd ha : Nat) (rm : Rm) (sy : Sync)
  | viota (row : Bool) (dd ha hb : Nat) (rm : Rm) (sy : Sync)
  | vperm (oob : Bool) (dd da db : Nat) (rm : Rm) (sy : Sync)
  | vmov (dd da : Nat) (sy : Sync)
  | vred (op : RedOp) (len : Bool) (dd da : Nat) (rm : Rm) (sy : Sync)
  | vscan (op : ScanOp) (excl : Bool) (dd da : Nat) (rm : Rm) (sy : Sync)
  | vdot (len : Bool) (dd da db : Nat) (rm : Rm) (sy : Sync)
  | vdist (metric : Metric) (neg : Bool) (dd da db : Nat) (rm : Rm) (sy : Sync)
  | vthrc (ge len : Bool) (dd da db : Nat) (sy : Sync)
  | vcomp (fill idx : Bool) (dd da db : Nat) (rm : Rm) (sy : Sync)
  | vexpd (fill : Bool) (dd da db : Nat) (rm : Rm) (sy : Sync)
  | vhist (acc one : Bool) (dd da hb : Nat) (sy : Sync)
  | vxform (desc inv : Bool) (dd da : Nat) (sy : Sync)
  | vmaxi (len : Bool) (dd da : Nat) (rm : Rm) (sy : Sync)
  | vsort (desc perm : Bool) (dd da : Nat) (rm : Rm) (sy : Sync)
  | vranki (small int : Bool) (ha : Nat) (sy : Sync)
  | vrankp (da db : Nat) (sy : Sync)
  | vranko (keep : Bool) (dd : Nat) (rm : Rm) (sy : Sync)
  -- class X (R231 to R242, R255 to R259)
  | xlease (sy : Sync)
  | xfree (discard : Bool) (sy : Sync)
  | xcellop (ha : Nat) (sy : Sync)
  | xzero (fill : ZeroFill) (main : Bool) (sy : Sync)
  | xpass (side : Bool) (da db : Nat) (sy : Sync)
  | xside (da hb : Nat) (sy : Sync)
  | xsideb (ha : Nat) (sy : Sync)
  | xdrain (zero : Bool) (dd : Nat) (rm : Rm) (sy : Sync)
  | xbias (row add : Bool) (da : Nat) (sy : Sync)
  | ares (dd da hb : Nat) (sy : Sync)
  | arel (dd : Nat) (sy : Sync)
  | aqry (sel : AqrySel) (hd ha : Nat) (sy : Sync)
  | apub (hd ha hb : Nat) (sy : Sync)
  -- class D (R152 to R176, R440 to R443)
  | dset (field k ga : Nat)
  | dgetf (field gd k : Nat)
  | dld (k ga : Nat) (imm : Imm)
  | dst (k ga : Nat) (imm : Imm)
  | dcpy (dd da : Nat)
  | dadv (rows : Bool) (k ga : Nat)
  | rinit (n k : Nat)
  | rcommit (n ga imm : Nat)
  | rrelease (n ga imm : Nat)
  | rstat (gd n sel : Nat)
  | dcopy (mask : MaskKind) (dd da : Nat) (rm : Rm) (sy : Sync)
  | dgather (mask : MaskKind) (oob : Bool) (dd da db : Nat) (rm : Rm) (sy : Sync)
  | dscatter (mask : MaskKind) (oob : Bool) (dd da db : Nat) (rm : Rm) (sy : Sync)
  | dscata (mask : MaskKind) (oob : Bool) (dd da db : Nat) (rm : Rm) (sy : Sync)
  | dfill (dd ha : Nat) (sy : Sync)
  | dpref (da : Nat) (sy : Sync)
  | dpreq (mask : MaskKind) (da db : Nat) (sy : Sync)
  | dflush (da : Nat) (sy : Sync)
  | dinv (da : Nat) (sy : Sync)
  | dput (flow dd da db : Nat) (sy : Sync)
  | dget (flow dd da : Nat) (sy : Sync)
  | dfadd (flow dd da db : Nat) (sy : Sync)
  | dfcas (flow dd da db : Nat) (sy : Sync)
  | dfencef (flow da hb : Nat) (sy : Sync)
  | dflowOpen (flow hd ha : Nat) (sy : Sync)
  | dflowClose (flow hd ha : Nat) (sy : Sync)
  | dflowReset (flow hd ha : Nat) (sy : Sync)
  | dflowStat (flow hd ha : Nat) (sy : Sync)
  -- class T (R274 to R282, R332, R350 to R352, R422 to R424)
  | tdef (gd k : Nat)
  | tacqR (ga : Nat)
  | tacqW (ga : Nat)
  | tacqRTry (gd ga : Nat)
  | tacqWTry (gd ga : Nat)
  | trel (ga : Nat)
  | tseal (ga : Nat)
  | tsealDet (ga : Nat)
  | tsplit (gd ga gb : Nat)
  | tjoin (gd ga gb : Nat)
  | tfree (ga : Nat)
  | tqry (sel : TqrySel) (gd ga : Nat)
  | gjoin (ga slot : Nat)
  | gleave (slot : Nat)
  | gsync (slot : Nat) (sy : Sync)
  | gred (op : ScanOp) (slot dd da : Nat) (rm : Rm) (sy : Sync)
  | gbcast (slot dd da hb : Nat) (sy : Sync)
  | ggath (slot dd da : Nat) (sy : Sync)
  | launch (gd ga gb : Nat)
  | launchTry (gd ga gb : Nat)
  | qstat (sel : QSel) (gd ga : Nat)
  | tlbinvPage (ga : Nat)
  | tlbinvRange (ga gb : Nat)
  | tlbinvCtx
  | pmig (op : PmigOp) (gd ga : Nat)
  -- class P (R375 to R381)
  | trap (ga code : Nat)
  | rte
  | csrr (gd csr : Nat)
  | csrw (gd ga csr : Nat)
  | csrs (gd ga csr : Nat)
  | csrc (gd ga csr : Nat)
  | iciv (ga gb : Nat)
  | brk (code : Nat)
  | yield
  -- events: streams, engines, traps (R80, R165, R177, R235, R278, R318, R319, R360, R374)
  | waitRelease (core : Nat) (st : StreamName)
  | engineInstructionComplete (core : Nat) (eng : EngineName)
  | engineHeadEffect (core : Nat) (eng : EngineName)
  | arrayInstructionStart (core : Nat)
  | engineFaultRaise (core : Nat) (st : StreamName)
  | handlerEntry (core : Nat)
  | syncDeadlock (core : Nat)
  | waitTimeout (core : Nat) (st : StreamName)
  | timer (core : Nat)
  | tenureGrant (ctx request : Nat)
  | leaseGrant (array : Nat)
  | leaseGrantEnd (array : Nat)
  -- events: queues, jobs, pre-emption (R134, R135, R341 to R349, R362 to R366)
  | recordRead (vd queue : Nat)
  | dispatch (die : Nat) (cores : List Nat)
  | jobPlace (job : Nat) (cores : List Nat)
  | completionWordIncrement (job : Nat)
  | eventWrite (vd : Nat)
  | checkpoint (job reason : Nat)
  | resume (job : Nat) (cores : List Nat)
  | kill (job cause : Nat)
  | sliceEnd (job : Nat)
  | drainTimeout (job : Nat)
  | queueSwitchOut (vd : Nat)
  | queueSwitchIn (vd : Nat)
  | qtailWrite (vd queue value : Nat) (tee : Option Nat)
  | evheadWrite (vd value : Nat) (tee : Option Nat)
  | registerWrite (site : RegSite) (off value : Nat)
  | dbgReturn (vd : Nat) (tee : Option Nat)
  | dbgStep (vd : Nat) (tee : Option Nat)
  | dbgDisplaced (vd : Nat) (tee : Option Nat)
  | dbgKill (vd : Nat) (tee : Option Nat)
  | dbgInval (vd : Nat) (tee : Option Nat)
  -- events: the host port (R427 to R431); `tee` is the selective IDE stream of a request with TEE = 1, and `none` for TEE = 0
  | windowRead (vd off n : Nat) (tee : Option Nat)
  | windowWrite (vd off : Nat) (bytes : List Byte) (tee : Option Nat)
  | lockInterfaceRequest (vd stream : Nat)
  | startInterfaceRequest (vd : Nat)
  | stopInterfaceRequest (vd : Nat)
  | getDeviceInterfaceState (vd : Nat)
  | getDeviceInterfaceReport (vd : Nat)
  | ideFailure (stream : Nat)
  | functionLevelReset (vd : Nat)
  -- events: management requests (R249, R254, R355, R369, R371, R383 to R389, R393, R410, R420, R434, R451)
  | contextCreate (slot vd world table policy savebase : Nat) (regs : PrivRegs)
  | contextHalt (slot : Nat)
  | contextUnhalt (slot : Nat)
  | contextDestroy (slot : Nat)
  | hallmarkContent (slot label va n : Nat)
  | adapterInstall (index entry : Nat)
  | adapterMoveHome (index : Nat) (pages : List Nat)
  | adapterPin (index : Nat)
  | adapterUnpin (index : Nat)
  | adapterRetire (index : Nat)
  | partitionRecordWrite (part value : Nat)
  | vdRecordWrite (vd value : Nat)
  | pstsQuery (kind inst vd : Nat)
  | framePoolGive (vd tier : Nat) (frames : List Nat)
  | pinPoolGive (die : Nat) (vaults : List Nat)
  | flowPairing (ctx pkg peer : Nat)
  | fenceUnitRequest (unit : Nat)
  | quarantineReinit (frames : List Nat)
  | migrationPause (vd : Nat)
  | marginRevoke (unit : Nat)
  -- events: purses, power, ageing (R390, R447 to R450)
  | purseRefill (kind inst : Nat)
  | governorMeasure (watts : Nat)
  | governorRecoveryStep
  | thermalClockStep (die tj : Nat)
  | thermalTrip (die tj : Nat) (coolantLost : Bool)
  | ageingMeasure (die : Nat) (freqs margins : List Nat)
  -- events: pages and links (R302, R410 to R414, R432 to R439, R442)
  | pageRequestDone (ctx page : Nat) (contents : Option (List Byte))
  | migrationComplete (ctx page : Nat)
  | cxlLinkDown (port : Nat)
  | flitCrcFail (port count : Nat)
  | linkDown (pkg : Nat)
  | remotePartArrive (pkg ctx flow seq type va arg : Nat) (payload : List Byte)
  | rowMissingNotice (pkg ctx flow header slot : Nat)
  | partPerformed (core part : Nat) (payload : List Byte)
  | partRefused (core part hint : Nat)
  | partResend (core part : Nat)
  | remoteTimeout (core flow : Nat)
  | frameFillTimeout (core flow : Nat)
  | flagLate (core : Nat)
  -- events: groups (R325 to R331)
  | groupFormed (key : Nat)
  | abortNotice (key reason : Nat)
  -- events: the security processor (R371, R407, R415, R425, R428, R452, R453)
  | recoveryImageSupply (version : BitVec 32) (bytes : List Byte) (signatures : List Byte × List Byte)
  | packageReset (package : Nat) (ports cxl : List Nat)
  | pageOwnershipChange (frame owner state : Nat)
  | worldKeyInstall (world : Nat)
  | spdmMessage (slot : Nat)
  | groupContributionArrive (c : Contribution)
  deriving DecidableEq, Repr, Inhabited

end Sys2Proof
end

