-- ==== Sys2Proof/Machine/Number.lean ====
section
/-! DEFINITION. The number formats of the UX9 and their exact values (R21 to R30, R39, R40). -/

namespace Sys2Proof.Machine

/-- The format codes of R21 that are not reserved. -/
inductive Fmt where
  | f32 | f16 | bf16 | e4m3 | e5m2 | e2m1 | i32 | i16 | i8 | i4s | ts8 | n8 | n16 | n32 | b1 | i64
  deriving DecidableEq, Repr, Inhabited

/-- The format of a code (R21); 0x10 to 0x3F are reserved. -/
def fmtOfCode : Nat → Option Fmt
  | 0 => some .f32 | 1 => some .f16 | 2 => some .bf16 | 3 => some .e4m3 | 4 => some .e5m2 | 5 => some .e2m1
  | 6 => some .i32 | 7 => some .i16 | 8 => some .i8 | 9 => some .i4s | 10 => some .ts8 | 11 => some .n8
  | 12 => some .n16 | 13 => some .n32 | 14 => some .b1 | 15 => some .i64 | _ => none

/-- The width of a format in bits (R21). -/
def fmtWidth : Fmt → Nat
  | .f32 | .i32 | .n32 => 32
  | .f16 | .bf16 | .i16 | .n16 => 16
  | .e4m3 | .e5m2 | .i8 | .ts8 | .n8 => 8
  | .e2m1 | .i4s => 4
  | .b1 => 1
  | .i64 => 64

/-- The formats that pack several elements to a byte (R22). -/
def fmtPacked : Fmt → Bool
  | .e2m1 | .i4s | .b1 => true
  | _ => false

/-- The fields of a floating-point format (R23): mantissa bits M, bias, the bits of the largest finite value, and whether the format has
infinities and NaN. -/
structure FloatSpec where
  mant : Nat
  bias : Nat
  maxBits : Nat
  hasInf : Bool
  nanBits : Option Nat
  deriving DecidableEq, Repr

/-- The floating-point formats of R23, with the canonical NaN of R39. -/
def floatSpec : Fmt → Option FloatSpec
  | .f32 => some ⟨23, 127, 0x7F7FFFFF, true, some 0x7FC00000⟩
  | .f16 => some ⟨10, 15, 0x7BFF, true, some 0x7E00⟩
  | .bf16 => some ⟨7, 127, 0x7F7F, true, some 0x7FC0⟩
  | .e4m3 => some ⟨3, 7, 0x7E, false, some 0x7F⟩
  | .e5m2 => some ⟨2, 15, 0x7B, true, some 0x7E⟩
  | .e2m1 => some ⟨1, 1, 7, false, none⟩
  | _ => none

/-- The least and largest value of an integer format (R25, R26, R34). -/
def intRange : Fmt → Option (Int × Int)
  | .i32 => some (-2147483648, 2147483647)
  | .i16 => some (-32768, 32767)
  | .i8 => some (-128, 127)
  | .i4s => some (-7, 7)
  | .i64 => some (-9223372036854775808, 9223372036854775807)
  | .n8 => some (0, 255)
  | .n16 => some (0, 65535)
  | .n32 => some (0, 4294967295)
  | _ => none

/-- "Integer" of R185 and R202. -/
def fmtInteger (f : Fmt) : Bool := (intRange f).isSome
/-- The floating-point formats. -/
def fmtFloat (f : Fmt) : Bool := (floatSpec f).isSome

/-- An exact value (R16): NaN, an infinity, or a sign and a magnitude `num / den`. A zero keeps its sign. -/
inductive XR where
  | nan
  | inf (neg : Bool)
  | fin (neg : Bool) (num den : Nat)
  deriving DecidableEq, Repr, Inhabited

/-- A finite value in lowest terms. -/
def xFin (neg : Bool) (num den : Nat) : XR :=
  let g := Nat.gcd num den
  .fin neg (num / g) (den / g)

/-- An integer as an exact value. -/
def xInt (i : Int) : XR := .fin (i < 0) i.natAbs 1

/-- `k × 2 ^ e`, with a sign. -/
def xScaled (neg : Bool) (k : Nat) (e : Int) : XR :=
  if 0 ≤ e then .fin neg (k * 2 ^ e.toNat) 1 else xFin neg k (2 ^ (-e).toNat)

def xZero : XR := .fin false 0 1
def xOne : XR := .fin false 1 1

def xIsNan : XR → Bool
  | .nan => true
  | _ => false
def xIsZero : XR → Bool
  | .fin _ n _ => n = 0
  | _ => false
def xIsFinite : XR → Bool
  | .fin .. => true
  | _ => false
def xNeg : XR → Bool
  | .nan => false
  | .inf s => s
  | .fin s _ _ => s

/-- The value with its sign reversed. -/
def xOpp : XR → XR
  | .nan => .nan
  | .inf s => .inf (!s)
  | .fin s n d => .fin (!s) n d

/-- The magnitude. -/
def xAbs : XR → XR
  | .nan => .nan
  | .inf _ => .inf false
  | .fin _ n d => .fin false n d

/-- The signed numerator. -/
def xNum (s : Bool) (n : Nat) : Int := if s then -(n : Int) else n

/-- The flags of VSTAT (R43): NV 0, DZ 1, OF 2, UF 3, NX 4, SAT 5, UFZ 6, I4RSV 7. Bit 8 + c beside I4RSV names the operand of code c whose
element held the reserved code (R357); it is no bit of VSTAT. -/
abbrev Flags := BitVec 16
def flagNV : Flags := 0x01
def flagDZ : Flags := 0x02
def flagOF : Flags := 0x04
def flagUF : Flags := 0x08
def flagNX : Flags := 0x10
def flagSAT : Flags := 0x20
def flagUFZ : Flags := 0x40
def flagI4 : Flags := 0x80

/-- I4RSV raised by an element of the operand of a code (R26, R357). -/
def flagReserved (code : Nat) : Flags := flagI4 ||| BitVec.ofNat 16 (2 ^ (8 + code))

/-- An exact value with the flags that forming it sets (R39, R42). -/
abbrev FV := XR × Flags

/-- The sum, with the sign of an exact zero of R33 (−0 under RDN) and the invalid case of R39. -/
def xAdd (rdn : Bool) : XR → XR → FV
  | .nan, _ => (.nan, 0)
  | _, .nan => (.nan, 0)
  | .inf a, .inf b => if a = b then (.inf a, 0) else (.nan, flagNV)
  | .inf a, _ => (.inf a, 0)
  | _, .inf b => (.inf b, 0)
  | .fin a n d, .fin b m e =>
    let z := xNum a n * e + xNum b m * d
    if z = 0 then (.fin (if n = 0 ∧ m = 0 ∧ a = b then a else rdn) 0 1, 0)
    else (xFin (z < 0) z.natAbs (d * e), 0)

/-- The difference. -/
def xSub (rdn : Bool) (x y : XR) : FV := xAdd rdn x (xOpp y)

/-- The product, with the invalid case 0 × ∞ of R39. -/
def xMul : XR → XR → FV
  | .nan, _ => (.nan, 0)
  | _, .nan => (.nan, 0)
  | .inf a, .inf b => (.inf (a != b), 0)
  | .inf a, .fin b n _ => if n = 0 then (.nan, flagNV) else (.inf (a != b), 0)
  | .fin a n _, .inf b => if n = 0 then (.nan, flagNV) else (.inf (a != b), 0)
  | .fin a n d, .fin b m e => (xFin (a != b) (n * m) (d * e), 0)

/-- The quotient, with the invalid cases and the division by zero of R39 and R42. -/
def xDiv : XR → XR → FV
  | .nan, _ => (.nan, 0)
  | _, .nan => (.nan, 0)
  | .inf _, .inf _ => (.nan, flagNV)
  | .inf a, .fin b _ _ => (.inf (a != b), 0)
  | .fin a _ _, .inf b => (.fin (a != b) 0 1, 0)
  | .fin a n d, .fin b m e =>
    if m = 0 then (if n = 0 then (.nan, flagNV) else (.inf (a != b), flagDZ))
    else (xFin (a != b) (n * e) (d * m), 0)

/-- `a × b + c` with one rounding later. A product 0 × ∞ sets NV even when the addend is NaN (R39). -/
def xFma (rdn : Bool) (a b c : XR) : FV :=
  let p := xMul a b
  let r := xAdd rdn p.1 c
  (r.1, p.2 ||| r.2)

/-- The order of two finite or infinite values: −0 equals +0; `none` when either is NaN. -/
def xCmp : XR → XR → Option Ordering
  | .nan, _ => none
  | _, .nan => none
  | .inf a, .inf b => some (if a = b then .eq else if a then .lt else .gt)
  | .inf a, _ => some (if a then .lt else .gt)
  | _, .inf b => some (if b then .gt else .lt)
  | .fin a n d, .fin b m e => some (compare (xNum a n * e) (xNum b m * d))

/-- Less than, in the order that puts −0 below +0 (R105). -/
def xLtSigned (x y : XR) : Bool :=
  match xCmp x y with
  | some .lt => true
  | some .eq => xNeg x && !xNeg y
  | _ => false

/-- Decode of a floating-point encoding (R24). -/
def decodeFloat (sp : FloatSpec) (w bits : Nat) : XR :=
  let b := bits % 2 ^ w
  let neg := b / 2 ^ (w - 1) = 1
  let mag := b % 2 ^ (w - 1)
  let e := mag / 2 ^ sp.mant
  let m := mag % 2 ^ sp.mant
  if sp.maxBits < mag then (if sp.hasInf ∧ m = 0 then .inf neg else .nan)
  else if e = 0 then xScaled neg m (1 - (sp.bias : Int) - sp.mant)
  else xScaled neg (2 ^ sp.mant + m) ((e : Int) - sp.bias - sp.mant)

/-- One term of a TS8 byte, in sixty-fourths (R27). -/
def ts8Term (neg : Bool) (c : Nat) : Int := if c = 7 then 0 else if neg then -(2 ^ (6 - c) : Int) else 2 ^ (6 - c)

/-- The value of a TS8 byte, in sixty-fourths (R27). -/
def ts8Units (b : Nat) : Int := ts8Term (bitAt b 7) (bitField b 4 3) + ts8Term (bitAt b 3) (bitField b 0 3)

/-- Decode of R17 (R24 to R28). The I4S reserved code reads as 0 here; `i4Reserved` tells it (R26). -/
def decodeFmt (f : Fmt) (bits : Nat) : XR :=
  match floatSpec f with
  | some sp => decodeFloat sp (fmtWidth f) bits
  | none =>
    match f with
    | .ts8 => let u := ts8Units (bits % 256); xFin (u < 0) u.natAbs 64
    | .i4s => if bits % 16 = 8 then xZero else xInt (signExt bits 4)
    | .n8 | .n16 | .n32 | .b1 => xInt (bits % 2 ^ fmtWidth f)
    | _ => xInt (signExt bits (fmtWidth f))

/-- The reserved code of I4S (R26). -/
def i4Reserved (f : Fmt) (bits : Nat) : Bool := f = .i4s && bits % 16 = 8

/-- The scale formats of a descriptor (R29, R30, R145). -/
inductive ScaleFmt where
  | e8m0 | bf16 | f16
  deriving DecidableEq, Repr, Inhabited

/-- The bytes of a scale (R149). -/
def scaleBytes : ScaleFmt → Nat
  | .e8m0 => 1
  | _ => 2

/-- The value of a scale (R30). -/
def decodeScale (sf : ScaleFmt) (bits : Nat) : XR :=
  match sf with
  | .e8m0 => if bits % 256 = 255 then .nan else xScaled false 1 ((bits % 256 : Nat) - 127)
  | .bf16 => decodeFmt .bf16 bits
  | .f16 => decodeFmt .f16 bits

/-- The value of a block-scaled element: the exact product, without flags (R30). -/
def scaledValue (x scale : XR) : XR := (xMul x scale).1

end Sys2Proof.Machine
end

