-- ==== Sys2Proof/Machine/Hash.lean ====
section
/-! DEFINITION. SHA-256 and SHA-512, which form the hallmark digest and measure content (R371). Both are one computation at two word widths; the
constants of SHA-256 are the upper halves of those of SHA-512. -/

namespace Sys2Proof.Machine

/-- The integer cube root, by halving bits: the largest `r` with `r ^ 3 ≤ x`, for `x < 8 ^ fuel`. -/
def icbrt (x : Nat) : Nat → Nat → Nat
  | 0, r => r
  | f + 1, r => if (r + 2 ^ f) ^ 3 ≤ x then icbrt x f (r + 2 ^ f) else icbrt x f r

/-- The first 80 primes. -/
def hashPrimes : List Nat := (upFrom 2 408).filter fun n => (upFrom 2 (isqrt n - 1)).all fun d => n % d ≠ 0

/-- The round constants: the first 64 bits of the fractions of the cube roots of the first 80 primes. -/
def roundConsts : List Nat := hashPrimes.map fun p => icbrt (p * 2 ^ 192) 68 0 % 2 ^ 64
/-- The initial values: the first 64 bits of the fractions of the square roots of the first 8 primes. -/
def hashStart : List Nat := (hashPrimes.take 8).map fun p => isqrt (p * 2 ^ 128) % 2 ^ 64

/-- What differs between the two functions: the word's width, the rounds, and the amounts of the four mixing functions (two rotations, and a third
rotation or a shift). -/
structure HashKind where
  width : Nat
  rounds : Nat
  big0 : Nat × Nat × Nat
  big1 : Nat × Nat × Nat
  small0 : Nat × Nat × Nat
  small1 : Nat × Nat × Nat
  deriving DecidableEq, Repr

def sha256Kind : HashKind := ⟨32, 64, (2, 13, 22), (6, 11, 25), (7, 18, 3), (17, 19, 10)⟩
def sha512Kind : HashKind := ⟨64, 80, (28, 34, 39), (14, 18, 41), (1, 8, 7), (19, 61, 6)⟩

/-- A constant of SHA-512 as one of the function. -/
def hashConst (h : HashKind) (c : Nat) : Nat := c / 2 ^ (64 - h.width)

/-- A word rotated right. -/
def rotr (h : HashKind) (n x : Nat) : Nat := x / 2 ^ n + x % 2 ^ n * 2 ^ (h.width - n)
/-- A mixing function of three rotations, and one of two rotations and a shift. -/
def mixBig (h : HashKind) (a : Nat × Nat × Nat) (x : Nat) : Nat := rotr h a.1 x ^^^ rotr h a.2.1 x ^^^ rotr h a.2.2 x
def mixSmall (h : HashKind) (a : Nat × Nat × Nat) (x : Nat) : Nat := rotr h a.1 x ^^^ rotr h a.2.1 x ^^^ (x / 2 ^ a.2.2)

/-- A big-endian number of bytes. -/
def beNat (bs : List Byte) : Nat := bs.foldl (fun n b => n * 256 + b.toNat) 0
/-- `n` bytes of a number, big-endian. -/
def natBe (n x : Nat) : List Byte := (natLe n x).reverse

/-- The words of a block. -/
def blockWords (h : HashKind) : Nat → List Byte → List Nat
  | 0, _ => []
  | n + 1, bs => beNat (bs.take (h.width / 8)) :: blockWords h n (bs.drop (h.width / 8))

/-- The message schedule: words are drawn from a window of the last 16, oldest first. -/
def scheduleWords (h : HashKind) : Nat → List Nat → List Nat
  | 0, _ => []
  | n + 1, w =>
    let next := (mixSmall h h.small1 (w.getD 14 0) + w.getD 9 0 + mixSmall h h.small0 (w.getD 1 0) + w.getD 0 0) % 2 ^ h.width
    w.headD 0 :: scheduleWords h n (w.drop 1 ++ [next])

/-- One round on the eight working words. -/
def hashRound (h : HashKind) (v : List Nat) (k w : Nat) : List Nat :=
  match v with
  | [a, b, c, d, e, f, g, x] =>
    let all := 2 ^ h.width
    let t1 := x + mixBig h h.big1 e + ((e &&& f) ^^^ ((all - 1 - e) &&& g)) + k + w
    let t2 := mixBig h h.big0 a + ((a &&& b) ^^^ (a &&& c) ^^^ (b &&& c))
    [(t1 + t2) % all, a, b, c, (d + t1) % all, e, f, g]
  | v => v

/-- The rounds on a block. -/
def hashRounds (h : HashKind) : List Nat → List Nat → List Nat → List Nat
  | v, k :: ks, w :: ws => hashRounds h (hashRound h v (hashConst h k) w) ks ws
  | v, _, _ => v

/-- The value after a block. -/
def hashBlock (h : HashKind) (v : List Nat) (bs : List Byte) : List Nat :=
  let ws := scheduleWords h h.rounds (blockWords h 16 bs)
  (v.zip (hashRounds h v roundConsts ws)).map fun p => (p.1 + p.2) % 2 ^ h.width

/-- The value after some blocks. -/
def hashBlocks (h : HashKind) : Nat → List Nat → List Byte → List Nat
  | 0, v, _ => v
  | n + 1, v, bs => hashBlocks h n (hashBlock h v (bs.take (2 * h.width))) (bs.drop (2 * h.width))

/-- A message padded to whole blocks: a one bit, zeros, and its length in bits. -/
def hashPad (h : HashKind) (bs : List Byte) : List Byte :=
  let block := 2 * h.width
  let tail := h.width / 4
  bs ++ [0x80] ++ List.replicate ((2 * block - 1 - tail - bs.length % block) % block) 0 ++ natBe tail (8 * bs.length)

/-- The digest of a message. -/
def hashOf (h : HashKind) (bs : List Byte) : List Byte :=
  let p := hashPad h bs
  (hashBlocks h (p.length / (2 * h.width)) (hashStart.map (hashConst h)) p).flatMap (natBe (h.width / 8))

/-- SHA-256. -/
def sha256 (bs : List Byte) : List Byte := hashOf sha256Kind bs
/-- SHA-512. -/
def sha512 (bs : List Byte) : List Byte := hashOf sha512Kind bs

end Sys2Proof.Machine
end

