-- ==== Sys2Proof/WellFormed.lean ====
section
/-! DEFINITION. When an instruction has an encoding that a stream accepts: the streams of R64, the ranges of R61 to R65. -/

namespace Sys2Proof

/-- An immediate that fits a signed field of `w` bits, or `w + 28` with an extension word (R58). -/
def immFits (w : Nat) (i : Imm) : Bool :=
  let n := if i.ext then w + 28 else w
  decide (-(2 ^ (n - 1) : Int) ≤ i.val) && decide (i.val < 2 ^ (n - 1))

/-- An immediate that fits an unsigned field (LIH, R99). -/
def immFitsU (w : Nat) (i : Imm) : Bool :=
  let n := if i.ext then w + 28 else w
  decide (0 ≤ i.val) && decide (i.val < 2 ^ n)

/-- A signed value that fits `w` bits. -/
def fitsS (w : Nat) (v : Int) : Bool := decide (-(2 ^ (w - 1) : Int) ≤ v) && decide (v < 2 ^ (w - 1))

/-- A general register of the stream (R61, R62). -/
def grOk (st : StreamName) (n : Nat) : Bool := decide (n < (if st = .c then 64 else 16))

/-- A selector that names an assigned field code of DSET and DGETF (R152). -/
def descFieldOk (c : Nat) : Bool := decide (c ≤ 0x16) || (decide (0x18 ≤ c) && decide (c ≤ 0x1B))

/-- A selector of WHERE that R140 lists. -/
def whereOk (sel : Nat) : Bool :=
  (decide (sel / 256 < 2) && decide (sel % 256 < 6)) || (decide (0x200 ≤ sel) && decide (sel ≤ 0x208))

/-- A CSR number that R372 lists. -/
def csrOk (n : Nat) : Bool :=
  n ≤ 3 || n = 8 || n = 9 || (0x10 ≤ n && n ≤ 0x14) || n = 0x18 || (0x100 ≤ n && n ≤ 0x109)

/-- A CSR of level P (R372). -/
def csrPriv (n : Nat) : Bool := 0x100 ≤ n && n ≤ 0x109

/-- A quad of registers (R274). -/
def quadOk (st : StreamName) (n : Nat) : Bool := grOk st n && n % 4 = 0 && n ≠ 0

/-- A sync word whose fields fit (R56, R57). -/
def syncOk (s : Sync) : Bool :=
  let ok (w : Nat) : Option Nat → Bool
    | some n => decide (n < w)
    | none => true
  ok 32 s.give && ok 32 s.take0 && ok 32 s.take1 && ok 32 s.take2 && ok 16 s.rows

/-- The well-formed instructions of a stream: those with an encoding that decoding in that stream accepts. Events have none. -/
def wellFormed (st : StreamName) (i : Instr) : Bool :=
  let g := grOk st
  let cOnly := decide (st = .c)
  let cd := decide (st = .c) || decide (st = .d)
  let m (n : Nat) := decide (n < 32)
  let v := decide (st = .v)
  let x := decide (st = .x)
  let dS := decide (st = .d)
  let a3 (gd ga gb : Nat) := g gd && g ga && g gb
  let e3 (a b c : Nat) (s : Sync) := m a && m b && m c && syncOk s
  let h (n : Nat) := decide (n < 16)
  match i with
  | .nop | .rndv => true
  | .b o => immFits 22 o
  | .call o => cOnly && immFits 22 o
  | .ret | .rte | .yield | .tlbinvCtx => cOnly
  | .bccEq a b o | .bccNe a b o | .bccLt a b o | .bccGe a b o | .bccLtn a b o | .bccGen a b o => g a && g b && immFits 10 o
  | .loop a n => g a && decide (n < 1024)
  | .whereQ d s => g d && whereOk s
  | .fence _ _ => true
  | .semadd k a i | .semset k a i => m k && g a && fitsS 10 i
  | .semwait k a i => m k && g a && fitsS 8 i
  | .semwaitTake k => m k
  | .semtry d k i => g d && m k && fitsS 8 i
  | .semtryTake d k | .semrd d k | .semrdDraw d k => g d && m k
  | .semrdPb d k => g d && decide (k < 8)
  | .pbwait k a i => decide (k < 8) && g a && decide (i < 1024)
  | .add d a b | .sub d a b | .mul d a b | .and d a b | .or d a b | .xor d a b | .shl d a b | .shr d a b | .sar d a b | .min d a b
  | .max d a b | .minn d a b | .maxn d a b | .slt d a b | .sltn d a b | .seq d a b | .sel d a b => a3 d a b
  | .mulh d a b | .mulhn d a b | .div d a b | .divn d a b | .rem d a b | .bfx d a b | .bfi d a b => cOnly && a3 d a b
  | .clz d a | .ctz d a | .popc d a => cOnly && g d && g a
  | .addi d a i | .andi d a i | .ori d a i | .xori d a i => g d && g a && immFits 10 i
  | .shli d a s | .shri d a s | .sari d a s => g d && g a && decide (s < 64)
  | .li d i => g d && immFits 16 i
  | .lih d i => g d && immFitsU 16 i
  | .addpc d i => cOnly && g d && immFits 16 i
  | .fadd d a b _ | .fsub d a b _ | .fmul d a b _ | .ffma d a b _ | .fdiv d a b _ | .fmin d a b | .fmax d a b | .fcmp _ d a b =>
    cOnly && a3 d a b
  | .fsqrt d a _ | .fclass d a => cOnly && g d && g a
  | .fcvtTo d a f _ | .fcvtFrom d a f _ => cOnly && g d && g a && decide (f < 16)
  | .ld1s d a i | .ld1z d a i | .ld2s d a i | .ld2z d a i | .ld4s d a i | .ld4z d a i | .ld8 d a i | .st1 d a i | .st2 d a i | .st4 d a i
  | .st8 d a i => cOnly && g d && g a && immFits 10 i
  | .ld16 d a i | .st16 d a i => cOnly && g d && decide (d % 2 = 0) && g a && immFits 10 i
  | .amo4 _ d a b | .amo8 _ d a b | .acas4 d a b | .acas8 d a b => cOnly && a3 d a b
  | .vadd d a b _ s | .vsub d a b _ s | .vmul d a b _ s | .vfma d a b _ s | .vfms d a b _ s | .vdiv d a b _ s | .vmin d a b _ s
  | .vmax d a b _ s | .vand d a b s | .vor d a b s | .vxor d a b s | .vshl d a b s | .vshr d a b s | .vsar d a b s | .vcmp _ d a b s
  | .vsel d a b _ s | .vclamp d a b _ s | .vscale d a b _ s | .vperm _ d a b _ s | .vdot _ d a b _ s | .vdist _ _ d a b _ s
  | .vthrc _ _ d a b s | .vcomp _ _ d a b _ s | .vexpd _ d a b _ s => v && e3 d a b s
  | .vabs d a _ s | .vneg d a _ s | .vnot d a s | .vcvt d a _ s | .vexp2 d a _ s | .vlog2 d a _ s | .vrcp d a _ s | .vrsq d a _ s
  | .vsqrt d a _ s | .vtanh d a _ s | .vsig d a _ s | .verf d a _ s | .vsin d a _ s | .vcos d a _ s | .vmov d a s | .vred _ _ d a _ s
  | .vscan _ _ d a _ s | .vxform _ _ d a s | .vmaxi _ d a _ s | .vsort _ _ d a _ s | .vrankp d a s => v && m d && m a && syncOk s
  | .vbcast _ d a _ s => v && m d && h a && syncOk s
  | .viota _ d a b _ s => v && m d && h a && h b && syncOk s
  | .vhist _ _ d a b s => v && m d && m a && h b && syncOk s
  | .vranki _ _ a s => v && h a && syncOk s
  | .vranko _ d _ s => v && m d && syncOk s
  | .xlease s | .xfree _ s | .xzero _ _ s => x && syncOk s
  | .xcellop a s | .xsideb a s => x && h a && syncOk s
  | .xpass _ a b s => x && m a && m b && syncOk s
  | .xside a b s => x && m a && h b && syncOk s
  | .xdrain _ d _ s => x && m d && syncOk s
  | .xbias _ _ a s | .arel a s => x && m a && syncOk s
  | .ares d a b s => x && m d && m a && h b && syncOk s
  | .aqry _ d a s => x && h d && h a && syncOk s
  | .apub d a b s => x && h d && h a && h b && syncOk s
  | .dset f k a => cd && descFieldOk f && m k && g a
  | .dgetf f d k => cd && descFieldOk f && g d && m k
  | .dld k a i | .dst k a i => cd && m k && g a && immFits 10 i
  | .dcpy d a => cd && m d && m a
  | .dadv _ k a => m k && g a
  | .rinit n k => cd && decide (n < 8) && m k
  | .rcommit n a i | .rrelease n a i => decide (n < 8) && g a && decide (i < 1024)
  | .rstat d n s => g d && decide (n < 8) && decide (s < 8)
  | .dcopy _ d a _ s => dS && m d && m a && syncOk s
  | .dgather _ _ d a b _ s | .dscatter _ _ d a b _ s | .dscata _ _ d a b _ s => dS && e3 d a b s
  | .dfill d a s => dS && m d && h a && syncOk s
  | .dpref a s | .dflush a s | .dinv a s => dS && m a && syncOk s
  | .dpreq k a b s => dS && m a && m b && (k != .none || b == 0) && syncOk s
  | .dput f d a b s | .dfadd f d a b s | .dfcas f d a b s => dS && h f && e3 d a b s
  | .dget f d a s => dS && h f && m d && m a && syncOk s
  | .dfencef f a b s => dS && h f && m a && h b && syncOk s
  | .dflowOpen f d a s | .dflowClose f d a s | .dflowReset f d a s | .dflowStat f d a s => dS && h f && h d && h a && syncOk s
  | .tdef d k => cd && g d && m k
  | .tacqR a | .tacqW a | .trel a | .tseal a | .tsealDet a | .tfree a => cd && g a
  | .tacqRTry d a | .tacqWTry d a | .tqry _ d a => cd && g d && g a
  | .tsplit q a b => cd && quadOk st q && g a && g b
  | .tjoin d q b => cd && g d && quadOk st q && g b
  | .gjoin a s => cOnly && g a && decide (s < 4)
  | .gleave s => cOnly && decide (s < 4)
  | .gsync s y => dS && decide (s < 4) && syncOk y
  | .gred _ s d a _ y => dS && decide (s < 4) && m d && m a && syncOk y
  | .gbcast s d a b y => dS && decide (s < 4) && m d && m a && h b && syncOk y
  | .ggath s d a y => dS && decide (s < 4) && m d && m a && syncOk y
  | .launch d a q | .launchTry d a q => cOnly && a3 d a q
  | .qstat _ d a | .pmig _ d a => cOnly && g d && g a
  | .tlbinvPage a => cOnly && g a
  | .tlbinvRange a b | .iciv a b => cOnly && g a && g b
  | .trap a c => cOnly && g a && decide (c < 1024)
  | .csrr d c => cOnly && g d && csrOk c
  | .csrw d a c | .csrs d a c | .csrc d a c => cOnly && g d && g a && csrOk c
  | .brk c => decide (c < 2 ^ 22)
  | _ => false

end Sys2Proof
end

