-- ==== Sys2Proof/Decode.lean ====
section
/-! DEFINITION. Decoding of words into instructions, by the checks of R66 in their order, and the encoder. -/

namespace Sys2Proof
open Sys2Proof.Machine

/-- What the opcode map gives an opcode (R51, R64): its streams, whether it accepts an extension word, whether it is privileged, whether it
is 64 bits long. -/
structure OpInfo where
  streams : List StreamName
  ext : Bool
  priv : Bool
  long : Bool
  deriving DecidableEq, Repr

def allStreams : List StreamName := [.c, .d, .v, .x]

/-- The opcode map of R64, by class and opcode. -/
def opInfo (e op : Nat) : Option OpInfo :=
  let all (ext : Bool) : Option OpInfo := some ⟨allStreams, ext, false, false⟩
  let c (ext : Bool) : Option OpInfo := some ⟨[.c], ext, false, false⟩
  let cd (ext : Bool) : Option OpInfo := some ⟨[.c, .d], ext, false, false⟩
  let eng (s : StreamName) : Option OpInfo := some ⟨[s], false, false, true⟩
  match e with
  | 0 =>
    if op = 0x01 then all true else if op = 0x02 then c true else if op = 0x03 then c false
    else if 0x04 ≤ op ∧ op ≤ 0x09 then all true
    else if op ≤ 0x0D ∨ (0x10 ≤ op ∧ op ≤ 0x15) then all false else none
  | 1 =>
    if op ≤ 0x02 ∨ (0x08 ≤ op ∧ op ≤ 0x15) then all false
    else if op ≤ 0x1A then c false
    else if 0x20 ≤ op ∧ op ≤ 0x23 then all true else if 0x24 ≤ op ∧ op ≤ 0x26 then all false
    else if op = 0x28 ∨ op = 0x29 then all true else if op = 0x2A then c true else none
  | 2 =>
    if op ≤ 0x0B then c false else if 0x10 ≤ op ∧ op ≤ 0x1C then c true
    else if 0x20 ≤ op ∧ op ≤ 0x23 then c false else none
  | 3 => if op ≤ 0x23 ∨ (0x30 ≤ op ∧ op ≤ 0x3D) then eng .v else none
  | 4 => if op ≤ 0x08 ∨ (0x10 ≤ op ∧ op ≤ 0x13) then eng .x else none
  | 5 =>
    if op ≤ 0x01 ∨ op = 0x04 ∨ op = 0x08 then cd false else if op = 0x02 ∨ op = 0x03 then cd true
    else if op = 0x05 ∨ (0x09 ≤ op ∧ op ≤ 0x0B) then all false
    else if (0x10 ≤ op ∧ op ≤ 0x18) ∨ (0x20 ≤ op ∧ op ≤ 0x25) then eng .d else none
  | 6 =>
    if op ≤ 0x0A then cd false else if op = 0x10 ∨ op = 0x11 ∨ op = 0x20 ∨ op = 0x21 then c false
    else if 0x18 ≤ op ∧ op ≤ 0x1B then eng .d
    else if op = 0x28 ∨ op = 0x29 then some ⟨[.c], false, true, false⟩ else none
  | 7 =>
    if op = 0x01 then some ⟨[.c], false, true, false⟩ else if op = 0x07 then all false
    else if op ≤ 0x08 then c false else none
  | _ => none

/-- An extension word (R58). -/
def isExtWord (w : Nat) : Bool := w / 2 ^ 28 = 15

/-- The class of word 0. -/
def classOf (w : Nat) : Nat := w / 2 ^ 29 % 8
/-- The opcode of word 0. -/
def opOf (w : Nat) : Nat := w / 2 ^ 22 % 128

/-- The opcode map's entry for word 0. -/
def infoOf (w : Nat) : Option OpInfo := opInfo (classOf w) (opOf w)

/-- Word 0 asks for level P (step 9 of R66, R64, R372, R376). APUB asks for a fine-tuning partition instead. -/
def privOf (w : Nat) : Bool :=
  match infoOf w with
  | some o => o.priv || (classOf w = 7 && decide (2 ≤ opOf w) && decide (opOf w ≤ 5) && csrPriv (w % 1024))
  | none => false

def isApub (w : Nat) : Bool := classOf w = 4 && opOf w = 0x13

/-- The immediate of a field of `w` bits with its extension word (R58). -/
def immOf (w field : Nat) (ext : Option Nat) : Imm :=
  match ext with
  | some e => ⟨signExt (e % 2 ^ 28 * 2 ^ w + field) (w + 28), true⟩
  | none => ⟨signExt field w, false⟩

/-- As `immOf`, for an unsigned field. -/
def immOfU (w field : Nat) (ext : Option Nat) : Imm :=
  match ext with
  | some e => ⟨(e % 2 ^ 28 * 2 ^ w + field : Nat), true⟩
  | none => ⟨field, false⟩

/-- The rounding field of R55; the outer `none` is the reserved code 6. -/
def rmOf : Nat → Option Rm
  | 0 => some (some .rne) | 1 => some (some .rtz) | 2 => some (some .rup) | 3 => some (some .rdn)
  | 4 => some (some .rna) | 5 => some (some .sr) | 7 => some none | _ => none

/-- A field of the sync word with its enable bit; the outer `none` breaks R57. -/
def enabledField (en f : Nat) : Option (Option Nat) := if en = 1 then some (some f) else if f = 0 then some none else none

/-- The sync word of R56, unless it breaks R57 or a reserved bit is set. -/
def syncOf (w : Nat) : Option Sync :=
  match enabledField (bitField w 31 1) (bitField w 26 5), enabledField (bitField w 25 1) (bitField w 20 5),
    enabledField (bitField w 19 1) (bitField w 14 5), enabledField (bitField w 13 1) (bitField w 8 5),
    enabledField (bitField w 3 1) (bitField w 4 4) with
  | some g, some t0, some t1, some t2, some r =>
    if bitField w 1 2 = 0 then some ⟨g, t0, t1, t2, r, bitAt w 0⟩ else none
  | _, _, _, _, _ => none

/-- The first register field out of range (step 11 of R66), else the instruction. -/
def regsThen (i : Instr) : List (Bool × Cause) → Except Cause Instr
  | [] => .ok i
  | (ok, c) :: t => if ok then regsThen i t else .error c

/-- Steps 10 and 11 of R66: reserved fields, then registers in order. -/
def mk (fieldsOk : Bool) (regs : List (Bool × Cause)) (i : Instr) : Except Cause Instr :=
  if fieldsOk then regsThen i regs else .error .reservedField

/-- A general register field (R61, R62). -/
def gf (st : StreamName) (n : Nat) : Bool × Cause := (grOk st n, .badRegister)
/-- A 6-bit semaphore field (R61). -/
def mf (n : Nat) : Bool × Cause := (decide (n < 32), .semRange)
/-- A 6-bit descriptor field (R61). -/
def df (n : Nat) : Bool × Cause := (decide (n < 32), .badRegister)
/-- A field of a register file of 8 (R61). -/
def nf (n : Nat) : Bool × Cause := (decide (n < 8), .badRegister)
/-- An h register in an engine format's field (R54). -/
def hf (n : Nat) : Bool × Cause := (decide (n < 16), .badRegister)

/-- Class Q (R85 to R93, R139, R140, R296, R312). -/
def decodeQ (st : StreamName) (op w : Nat) (ext : Option Nat) : Except Cause Instr :=
  let gd := bitField w 16 6
  let ga := bitField w 10 6
  let im := w % 1024
  let z := w % 2 ^ 22
  let g := gf st
  match op with
  | 0x00 => mk (z == 0) [] .nop
  | 0x01 => mk true [] (.b (immOf 22 z ext))
  | 0x02 => mk true [] (.call (immOf 22 z ext))
  | 0x03 => mk (z == 0) [] .ret
  | 0x04 => mk true [g gd, g ga] (.bccEq gd ga (immOf 10 im ext))
  | 0x05 => mk true [g gd, g ga] (.bccNe gd ga (immOf 10 im ext))
  | 0x06 => mk true [g gd, g ga] (.bccLt gd ga (immOf 10 im ext))
  | 0x07 => mk true [g gd, g ga] (.bccGe gd ga (immOf 10 im ext))
  | 0x08 => mk true [g gd, g ga] (.bccLtn gd ga (immOf 10 im ext))
  | 0x09 => mk true [g gd, g ga] (.bccGen gd ga (immOf 10 im ext))
  | 0x0A => mk (gd == 0) [g ga] (.loop ga im)
  | 0x0B => mk (z == 0) [] .rndv
  | 0x0C => mk (ga == 0 && whereOk im) [g gd] (.whereQ gd im)
  | 0x0D =>
    let kind := match bitField w 3 2 with
      | 0 => FenceKind.acq | 1 => .rel | 2 => .full | _ => .eng
    let scope := match w % 8 with
      | 0 => Scope.stream | 1 => .core | 2 => .cluster | 3 => .die | 4 => .pkg | _ => .sys
    mk (bitField w 5 17 == 0 && decide (w % 8 < 6)) [] (.fence kind scope)
  | 0x10 => mk true [mf gd, g ga] (.semadd gd ga (signExt im 10))
  | 0x11 =>
    if bitField w 8 2 = 0 then mk true [mf gd, g ga] (.semwait gd ga (signExt (w % 256) 8))
    else mk (w % 2 ^ 16 == 256) [mf gd] (.semwaitTake gd)
  | 0x12 =>
    if bitField w 8 2 = 0 then mk true [g gd, mf ga] (.semtry gd ga (signExt (w % 256) 8))
    else mk (im == 256) [g gd, mf ga] (.semtryTake gd ga)
  | 0x13 => mk true [mf gd, g ga] (.semset gd ga (signExt im 10))
  | 0x14 =>
    if im = 0 then mk true [g gd, mf ga] (.semrd gd ga)
    else if im = 1 then mk true [g gd, mf ga] (.semrdDraw gd ga)
    else mk (im == 2) [g gd, nf ga] (.semrdPb gd ga)
  | 0x15 => mk true [nf gd, g ga] (.pbwait gd ga im)
  | _ => .error .illegalOpcode

/-- Class S (R94 to R100). -/
def decodeS (st : StreamName) (op w : Nat) (ext : Option Nat) : Except Cause Instr :=
  let gd := bitField w 16 6
  let ga := bitField w 10 6
  let gb := bitField w 4 6
  let fn0 := w % 16 == 0
  let im := w % 1024
  let k := w % 65536
  let g := gf st
  let r3 := [g gd, g ga, g gb]
  match op with
  | 0x00 => mk fn0 r3 (.add gd ga gb)
  | 0x01 => mk fn0 r3 (.sub gd ga gb)
  | 0x02 => mk fn0 r3 (.mul gd ga gb)
  | 0x03 => mk fn0 r3 (.mulh gd ga gb)
  | 0x04 => mk fn0 r3 (.mulhn gd ga gb)
  | 0x05 => mk fn0 r3 (.div gd ga gb)
  | 0x06 => mk fn0 r3 (.divn gd ga gb)
  | 0x07 => mk fn0 r3 (.rem gd ga gb)
  | 0x08 => mk fn0 r3 (.and gd ga gb)
  | 0x09 => mk fn0 r3 (.or gd ga gb)
  | 0x0A => mk fn0 r3 (.xor gd ga gb)
  | 0x0B => mk fn0 r3 (.shl gd ga gb)
  | 0x0C => mk fn0 r3 (.shr gd ga gb)
  | 0x0D => mk fn0 r3 (.sar gd ga gb)
  | 0x0E => mk fn0 r3 (.min gd ga gb)
  | 0x0F => mk fn0 r3 (.max gd ga gb)
  | 0x10 => mk fn0 r3 (.minn gd ga gb)
  | 0x11 => mk fn0 r3 (.maxn gd ga gb)
  | 0x12 => mk fn0 r3 (.slt gd ga gb)
  | 0x13 => mk fn0 r3 (.sltn gd ga gb)
  | 0x14 => mk fn0 r3 (.seq gd ga gb)
  | 0x15 => mk fn0 r3 (.sel gd ga gb)
  | 0x16 => mk (im == 0) [g gd, g ga] (.clz gd ga)
  | 0x17 => mk (im == 0) [g gd, g ga] (.ctz gd ga)
  | 0x18 => mk (im == 0) [g gd, g ga] (.popc gd ga)
  | 0x19 => mk fn0 r3 (.bfx gd ga gb)
  | 0x1A => mk fn0 r3 (.bfi gd ga gb)
  | 0x20 => mk true [g gd, g ga] (.addi gd ga (immOf 10 im ext))
  | 0x21 => mk true [g gd, g ga] (.andi gd ga (immOf 10 im ext))
  | 0x22 => mk true [g gd, g ga] (.ori gd ga (immOf 10 im ext))
  | 0x23 => mk true [g gd, g ga] (.xori gd ga (immOf 10 im ext))
  | 0x24 => mk (decide (im < 64)) [g gd, g ga] (.shli gd ga im)
  | 0x25 => mk (decide (im < 64)) [g gd, g ga] (.shri gd ga im)
  | 0x26 => mk (decide (im < 64)) [g gd, g ga] (.sari gd ga im)
  | 0x28 => mk true [g gd] (.li gd (immOf 16 k ext))
  | 0x29 => mk true [g gd] (.lih gd (immOfU 16 k ext))
  | 0x2A => mk true [g gd] (.addpc gd (immOf 16 k ext))
  | _ => .error .illegalOpcode

/-- The operation of AMO by its code (R65). -/
def amoOf : Nat → Option AmoOp
  | 0 => some .add | 1 => some .min | 2 => some .max | 3 => some .minn | 4 => some .maxn | 5 => some .and | 6 => some .or
  | 7 => some .xor | 8 => some .xchg | _ => none

/-- Step 12 of R66 for a format-code field. -/
def fmtThen (f : Nat) (r : Except Cause Instr) : Except Cause Instr :=
  match r with
  | .ok i => if f < 16 then .ok i else .error .formatUnsupported
  | .error c => .error c

/-- Class F (R102 to R121). -/
def decodeF (st : StreamName) (op w : Nat) (ext : Option Nat) : Except Cause Instr :=
  let gd := bitField w 16 6
  let ga := bitField w 10 6
  let gb := bitField w 4 6
  let fn := w % 16
  let im := w % 1024
  let g := gf st
  let r3 := [g gd, g ga, g gb]
  let rm := if fn < 8 then rmOf fn else none
  let fl (mkI : Rm → Instr) : Except Cause Instr :=
    match rm with
    | some r => mk true r3 (mkI r)
    | none => .error .reservedField
  let ldst (mkI : Nat → Nat → Imm → Instr) := mk true [g gd, g ga] (mkI gd ga (immOf 10 im ext))
  let pair (mkI : Nat → Nat → Imm → Instr) := mk true [g gd, (gd % 2 == 0, .badRegister), g ga] (mkI gd ga (immOf 10 im ext))
  let amo (mkI : AmoOp → Nat → Nat → Nat → Instr) : Except Cause Instr :=
    match amoOf fn with
    | some o => mk true r3 (mkI o gd ga gb)
    | none => .error .reservedField
  match op with
  | 0x00 => fl (.fadd gd ga gb)
  | 0x01 => fl (.fsub gd ga gb)
  | 0x02 => fl (.fmul gd ga gb)
  | 0x03 => fl (.ffma gd ga gb)
  | 0x04 => fl (.fdiv gd ga gb)
  | 0x05 =>
    match rm with
    | some r => mk (gb == 0) [g gd, g ga] (.fsqrt gd ga r)
    | none => .error .reservedField
  | 0x06 => mk (fn == 0) r3 (.fmin gd ga gb)
  | 0x07 => mk (fn == 0) r3 (.fmax gd ga gb)
  | 0x08 =>
    match fn with
    | 0 => mk true r3 (.fcmp .eq gd ga gb)
    | 1 => mk true r3 (.fcmp .lt gd ga gb)
    | 2 => mk true r3 (.fcmp .le gd ga gb)
    | 3 => mk true r3 (.fcmp .un gd ga gb)
    | _ => .error .reservedField
  | 0x09 => mk (im == 0) [g gd, g ga] (.fclass gd ga)
  | 0x0A =>
    match rm with
    | some r => fmtThen gb (mk true [g gd, g ga] (.fcvtTo gd ga gb r))
    | none => .error .reservedField
  | 0x0B =>
    match rm with
    | some r => fmtThen gb (mk true [g gd, g ga] (.fcvtFrom gd ga gb r))
    | none => .error .reservedField
  | 0x10 => ldst .ld1s
  | 0x11 => ldst .ld1z
  | 0x12 => ldst .ld2s
  | 0x13 => ldst .ld2z
  | 0x14 => ldst .ld4s
  | 0x15 => ldst .ld4z
  | 0x16 => ldst .ld8
  | 0x17 => pair .ld16
  | 0x18 => ldst .st1
  | 0x19 => ldst .st2
  | 0x1A => ldst .st4
  | 0x1B => ldst .st8
  | 0x1C => pair .st16
  | 0x20 => amo .amo4
  | 0x21 => amo .amo8
  | 0x22 => mk (fn == 0) r3 (.acas4 gd ga gb)
  | 0x23 => mk (fn == 0) r3 (.acas8 gd ga gb)
  | _ => .error .illegalOpcode

/-- The rounding field of an engine instruction that rounds. -/
def rounding (rf : Nat) (k : Rm → Except Cause Instr) : Except Cause Instr :=
  match rmOf rf with
  | some r => k r
  | none => .error .reservedField

/-- The predicate of VCMP by its code (R192). -/
def vcondOf : Nat → VCond
  | 0 => .eq | 1 => .ne | 2 => .lt | 3 => .le | 4 => .gt | 5 => .ge | 6 => .un | _ => .ord

/-- Class V (R184, R197, R201). `s` is the decoded sync word. -/
def decodeV (op w : Nat) (s : Sync) : Except Cause Instr :=
  let dd := bitField w 17 5
  let da := bitField w 12 5
  let db := bitField w 7 5
  let sub := bitField w 3 4
  let rf := w % 8
  let b0 := bitAt sub 0
  let b1 := bitAt sub 1
  let b2 := bitAt sub 2
  let b3 := bitAt sub 3
  let r3 (k : Nat → Nat → Nat → Rm → Sync → Instr) := rounding rf (fun r => mk (sub == 0) [] (k dd da db r s))
  let r2 (k : Nat → Nat → Rm → Sync → Instr) := rounding rf (fun r => mk (sub == 0 && db == 0) [] (k dd da r s))
  let n3 (k : Nat → Nat → Nat → Sync → Instr) := mk (sub == 0 && rf == 0) [] (k dd da db s)
  let n2 (k : Nat → Nat → Sync → Instr) := mk (sub == 0 && rf == 0 && db == 0) [] (k dd da s)
  match op with
  | 0x00 => r3 .vadd
  | 0x01 => r3 .vsub
  | 0x02 => r3 .vmul
  | 0x03 => r3 .vfma
  | 0x04 => r3 .vfms
  | 0x05 => r3 .vdiv
  | 0x06 => r3 .vmin
  | 0x07 => r3 .vmax
  | 0x08 => r2 .vabs
  | 0x09 => r2 .vneg
  | 0x0A => n3 .vand
  | 0x0B => n3 .vor
  | 0x0C => n3 .vxor
  | 0x0D => n2 .vnot
  | 0x0E => n3 .vshl
  | 0x0F => n3 .vshr
  | 0x10 => n3 .vsar
  | 0x11 => mk (decide (sub < 8) && rf == 0) [] (.vcmp (vcondOf sub) dd da db s)
  | 0x12 => r3 .vsel
  | 0x13 => r2 .vcvt
  | 0x14 => r2 .vexp2
  | 0x15 => r2 .vlog2
  | 0x16 => r2 .vrcp
  | 0x17 => r2 .vrsq
  | 0x18 => r2 .vsqrt
  | 0x19 => r2 .vtanh
  | 0x1A => r2 .vsig
  | 0x1B => r2 .verf
  | 0x1C => r2 .vsin
  | 0x1D => r2 .vcos
  | 0x1E => r3 .vclamp
  | 0x1F => r3 .vscale
  | 0x20 =>
    let kind := match sub with
      | 0 => BcastKind.hi64 | 1 => .hn64 | 2 => .hf32 | 3 => .hf16 | _ => .hbf16
    rounding rf (fun r => mk (decide (sub < 5) && db == 0) [hf da] (.vbcast kind dd da r s))
  | 0x21 => rounding rf (fun r => mk (decide (sub < 2)) [hf da, hf db] (.viota b0 dd da db r s))
  | 0x22 => rounding rf (fun r => mk (decide (sub < 2)) [] (.vperm b0 dd da db r s))
  | 0x23 => n2 .vmov
  | 0x30 =>
    let o := match sub % 8 with
      | 0 => RedOp.sum | 1 => .max | 2 => .min | 3 => .amax | _ => .sumsq
    rounding rf (fun r => mk (decide (sub % 8 < 5) && db == 0) [] (.vred o b3 dd da r s))
  | 0x31 =>
    let o := match sub % 4 with
      | 0 => ScanOp.sum | 1 => .max | _ => .min
    rounding rf (fun r => mk (decide (sub % 4 < 3) && !b3 && db == 0) [] (.vscan o b2 dd da r s))
  | 0x32 => rounding rf (fun r => mk (sub % 8 == 0) [] (.vdot b3 dd da db r s))
  | 0x33 =>
    let o := match sub % 4 with
      | 0 => Metric.l2sq | 1 => .l1 | 2 => .ip | _ => .ham
    rounding rf (fun r => mk (!b3) [] (.vdist o b2 dd da db r s))
  | 0x34 => mk (!b1 && !b2 && rf == 0) [] (.vthrc b0 b3 dd da db s)
  | 0x35 => rounding rf (fun r => mk (decide (sub < 4)) [] (.vcomp b0 b1 dd da db r s))
  | 0x36 => rounding rf (fun r => mk (decide (sub < 2)) [] (.vexpd b0 dd da db r s))
  | 0x37 => mk (decide (sub < 4) && rf == 0) [hf db] (.vhist b0 b1 dd da db s)
  | 0x38 => mk (decide (sub < 4) && rf == 0 && db == 0) [] (.vxform b0 b1 dd da s)
  | 0x39 => rounding rf (fun r => mk (sub % 8 == 0 && db == 0) [] (.vmaxi b3 dd da r s))
  | 0x3A => rounding rf (fun r => mk (decide (sub < 4) && db == 0) [] (.vsort b0 b1 dd da r s))
  | 0x3B => mk (decide (sub < 4) && rf == 0 && dd == 0 && db == 0) [hf da] (.vranki b0 b1 da s)
  | 0x3C => mk (sub == 0 && rf == 0 && dd == 0) [] (.vrankp da db s)
  | 0x3D => rounding rf (fun r => mk (decide (sub < 2) && da == 0 && db == 0) [] (.vranko b0 dd r s))
  | _ => .error .illegalOpcode

/-- Class X (R231, R255). -/
def decodeX (op w : Nat) (s : Sync) : Except Cause Instr :=
  let dd := bitField w 17 5
  let da := bitField w 12 5
  let db := bitField w 7 5
  let sub := bitField w 3 4
  let rf := w % 8
  let b0 := bitAt sub 0
  let b1 := bitAt sub 1
  let b2 := bitAt sub 2
  let z (b : Bool) (n : Nat) := b && n == 0
  match op with
  | 0x00 => mk (z (z (z (z (z true sub) rf) dd) da) db) [] (.xlease s)
  | 0x01 => mk (z (z (z (z (decide (sub < 2)) rf) dd) da) db) [] (.xfree b0 s)
  | 0x02 => mk (z (z (z (z true sub) rf) dd) db) [hf da] (.xcellop da s)
  | 0x03 =>
    let f := match sub % 4 with
      | 0 => ZeroFill.zero | 1 => .neginf | _ => .posinf
    mk (z (z (z (z (decide (sub < 8) && decide (sub % 4 < 3)) rf) dd) da) db) [] (.xzero f b2 s)
  | 0x04 => mk (z (z (decide (sub < 2)) rf) dd) [] (.xpass b0 da db s)
  | 0x05 => mk (z (z (z true sub) rf) dd) [hf db] (.xside da db s)
  | 0x06 => mk (z (z (z (z true sub) rf) dd) db) [hf da] (.xsideb da s)
  | 0x07 => rounding rf (fun r => mk (z (z (decide (sub < 2)) da) db) [] (.xdrain b0 dd r s))
  | 0x08 => mk (z (z (z (decide (sub < 4)) rf) dd) db) [] (.xbias b0 b1 da s)
  | 0x10 => mk (z (z true sub) rf) [hf db] (.ares dd da db s)
  | 0x11 => mk (z (z (z (z true sub) rf) da) db) [] (.arel dd s)
  | 0x12 =>
    let sel := match sub with
      | 0 => AqrySel.state | 1 => .ver | 2 => .old | _ => .slot
    mk (z (z (decide (sub < 4)) rf) db) [hf dd, hf da] (.aqry sel dd da s)
  | 0x13 => mk (z (z true sub) rf) [hf dd, hf da, hf db] (.apub dd da db s)
  | _ => .error .illegalOpcode

/-- The mask selection of R169 by its two bits; EMASK without MASK is reserved. -/
def maskOf : Nat → Option MaskKind
  | 0 => some .none | 1 => some .rows | 3 => some .elems | _ => none

/-- The engine instructions of class D (R169, R440). -/
def decodeDEngine (op w : Nat) (s : Sync) : Except Cause Instr :=
  let dd := bitField w 17 5
  let da := bitField w 12 5
  let db := bitField w 7 5
  let sub := bitField w 3 4
  let rf := w % 8
  let oob := bitAt sub 2
  let masked (k : MaskKind → Except Cause Instr) : Except Cause Instr :=
    match maskOf (sub % 4) with
    | some m => if sub < 8 then k m else .error .reservedField
    | none => .error .reservedField
  let one (k : Nat → Sync → Instr) := mk (sub == 0 && rf == 0 && dd == 0 && db == 0) [] (k da s)
  let flow (k : Nat → Nat → Nat → Sync → Instr) := mk (rf == 0) [hf dd, hf da] (k sub dd da s)
  match op with
  | 0x10 => rounding rf (fun r => masked (fun m => mk (!oob && db == 0) [] (.dcopy m dd da r s)))
  | 0x11 => rounding rf (fun r => masked (fun m => mk true [] (.dgather m oob dd da db r s)))
  | 0x12 => rounding rf (fun r => masked (fun m => mk true [] (.dscatter m oob dd da db r s)))
  | 0x13 => rounding rf (fun r => masked (fun m => mk true [] (.dscata m oob dd da db r s)))
  | 0x14 => mk (sub == 0 && rf == 0 && db == 0) [hf da] (.dfill dd da s)
  | 0x15 => one .dpref
  | 0x16 => masked (fun m => mk (!oob && rf == 0 && dd == 0 && (m != .none || db == 0)) [] (.dpreq m da db s))
  | 0x17 => one .dflush
  | 0x18 => one .dinv
  | 0x20 => mk (rf == 0) [] (.dput sub dd da db s)
  | 0x21 => mk (rf == 0 && db == 0) [] (.dget sub dd da s)
  | 0x22 => mk (rf == 0) [] (.dfadd sub dd da db s)
  | 0x23 => mk (rf == 0) [] (.dfcas sub dd da db s)
  | 0x24 => mk (rf == 0 && dd == 0) [hf db] (.dfencef sub da db s)
  | 0x25 =>
    match db with
    | 0 => flow .dflowOpen
    | 1 => flow .dflowClose
    | 2 => flow .dflowReset
    | 3 => flow .dflowStat
    | _ => .error .reservedField
  | _ => .error .illegalOpcode

/-- The 32-bit instructions of class D (R152 to R162). -/
def decodeDShort (st : StreamName) (op w : Nat) (ext : Option Nat) : Except Cause Instr :=
  let gd := bitField w 16 6
  let ga := bitField w 10 6
  let gb := bitField w 4 6
  let fn := w % 16
  let im := w % 1024
  let g := gf st
  match op with
  | 0x00 => mk (fn == 0 && descFieldOk gb) [df gd, g ga] (.dset gb gd ga)
  | 0x01 => mk (fn == 0 && descFieldOk gb) [g gd, df ga] (.dgetf gb gd ga)
  | 0x02 => mk true [df gd, g ga] (.dld gd ga (immOf 10 im ext))
  | 0x03 => mk true [df gd, g ga] (.dst gd ga (immOf 10 im ext))
  | 0x04 => mk (im == 0) [df gd, df ga] (.dcpy gd ga)
  | 0x05 => mk (decide (im < 2)) [df gd, g ga] (.dadv (im == 1) gd ga)
  | 0x08 => mk (im == 0) [nf gd, df ga] (.rinit gd ga)
  | 0x09 => mk true [nf gd, g ga] (.rcommit gd ga im)
  | 0x0A => mk true [nf gd, g ga] (.rrelease gd ga im)
  | 0x0B => mk (decide (im < 8)) [g gd, nf ga] (.rstat gd ga im)
  | _ => .error .illegalOpcode

/-- The engine instructions of class T (R332). -/
def decodeTEngine (op w : Nat) (s : Sync) : Except Cause Instr :=
  let dd := bitField w 17 5
  let da := bitField w 12 5
  let db := bitField w 7 5
  let slot := bitField w 3 2
  let hi := bitField w 5 2
  let rf := w % 8
  match op with
  | 0x18 => mk (hi == 0 && rf == 0 && dd == 0 && da == 0 && db == 0) [] (.gsync slot s)
  | 0x19 =>
    let o := match hi with
      | 0 => ScanOp.sum | 1 => .max | _ => .min
    rounding rf (fun r => mk (decide (hi < 3) && db == 0) [] (.gred o slot dd da r s))
  | 0x1A => mk (hi == 0 && rf == 0) [hf db] (.gbcast slot dd da db s)
  | 0x1B => mk (hi == 0 && rf == 0 && db == 0) [] (.ggath slot dd da s)
  | _ => .error .illegalOpcode

/-- A quad field (R274): out of the file, or not a non-zero multiple of 4. -/
def qf (st : StreamName) (n : Nat) : Bool × Cause := (quadOk st n, .badRegister)

/-- The 32-bit instructions of class T (R274, R332, R350, R422). -/
def decodeTShort (st : StreamName) (op w : Nat) : Except Cause Instr :=
  let gd := bitField w 16 6
  let ga := bitField w 10 6
  let gb := bitField w 4 6
  let fn := w % 16
  let im := w % 1024
  let g := gf st
  match op with
  | 0x00 => mk (im == 0) [g gd, df ga] (.tdef gd ga)
  | 0x01 => mk (im == 0 && gd == 0) [g ga] (.tacqR ga)
  | 0x02 => mk (im == 0 && gd == 0) [g ga] (.tacqW ga)
  | 0x03 => mk (im == 0) [g gd, g ga] (.tacqRTry gd ga)
  | 0x04 => mk (im == 0) [g gd, g ga] (.tacqWTry gd ga)
  | 0x05 => mk (im == 0 && gd == 0) [g ga] (.trel ga)
  | 0x06 => mk (decide (im < 2) && gd == 0) [g ga] (if im = 0 then .tseal ga else .tsealDet ga)
  | 0x07 => mk (fn == 0) [qf st gd, g ga, g gb] (.tsplit gd ga gb)
  | 0x08 => mk (fn == 0) [g gd, qf st ga, g gb] (.tjoin gd ga gb)
  | 0x09 => mk (im == 0 && gd == 0) [g ga] (.tfree ga)
  | 0x0A =>
    let sel := match fn with
      | 0 => TqrySel.state | 1 => .base | 2 => .ext01 | 3 => .ext23 | _ => .held
    mk (gb == 0 && decide (fn < 5)) [g gd, g ga] (.tqry sel gd ga)
  | 0x10 => mk (decide (im < 4) && gd == 0) [g ga] (.gjoin ga im)
  | 0x11 => mk (decide (w % 2 ^ 22 < 4)) [] (.gleave (w % 4))
  | 0x20 => mk (decide (fn < 2)) [g gd, g ga, g gb] (if fn = 0 then .launch gd ga gb else .launchTry gd ga gb)
  | 0x21 =>
    let sel := match fn with
      | 0 => QSel.tail | 1 => .prog | 2 => .done | _ => .state
    mk (gb == 0 && decide (fn < 4)) [g gd, g ga] (.qstat sel gd ga)
  | 0x28 =>
    match fn with
    | 0 => mk (gd == 0 && gb == 0) [g ga] (.tlbinvPage ga)
    | 1 => mk (gd == 0) [g ga, g gb] (.tlbinvRange ga gb)
    | 2 => mk (gd == 0 && ga == 0 && gb == 0) [] .tlbinvCtx
    | _ => .error .reservedField
  | 0x29 =>
    let o := match fn with
      | 0 => PmigOp.toHbm | 1 => .toCxl | _ => .evict
    mk (gb == 0 && decide (fn < 3)) [g gd, g ga] (.pmig o gd ga)
  | _ => .error .illegalOpcode

/-- Class P (R375). -/
def decodeP (st : StreamName) (op w : Nat) : Except Cause Instr :=
  let gd := bitField w 16 6
  let ga := bitField w 10 6
  let gb := bitField w 4 6
  let im := w % 1024
  let z := w % 2 ^ 22
  let g := gf st
  match op with
  | 0x00 => mk (gd == 0) [g ga] (.trap ga im)
  | 0x01 => mk (z == 0) [] .rte
  | 0x02 => mk (ga == 0 && csrOk im) [g gd] (.csrr gd im)
  | 0x03 => mk (csrOk im) [g gd, g ga] (.csrw gd ga im)
  | 0x04 => mk (csrOk im) [g gd, g ga] (.csrs gd ga im)
  | 0x05 => mk (csrOk im) [g gd, g ga] (.csrc gd ga im)
  | 0x06 => mk (gd == 0 && w % 16 == 0) [g ga, g gb] (.iciv ga gb)
  | 0x07 => mk true [] (.brk z)
  | 0x08 => mk (z == 0) [] .yield
  | _ => .error .illegalOpcode

/-- Steps 10 to 12 of R66, for an opcode of the map. `w1` is the sync word or the extension word. -/
def decodeFields (st : StreamName) (w0 : Nat) (w1 : Option Nat) : Except Cause Instr :=
  let op := opOf w0
  let withSync (k : Sync → Except Cause Instr) : Except Cause Instr :=
    match syncOf (w1.getD 0) with
    | some s => k s
    | none => .error .reservedField
  match classOf w0 with
  | 0 => decodeQ st op w0 w1
  | 1 => decodeS st op w0 w1
  | 2 => decodeF st op w0 w1
  | 3 => withSync (decodeV op w0)
  | 4 => withSync (decodeX op w0)
  | 5 => if op < 0x10 then decodeDShort st op w0 w1 else withSync (decodeDEngine op w0)
  | 6 => if 0x18 ≤ op ∧ op < 0x20 then withSync (decodeTEngine op w0) else decodeTShort st op w0
  | _ => decodeP st op w0

/-- Steps 8 to 12 of R66: stream, level, fields, registers, format codes. `lvl` is level P; `tune` admits APUB. -/
def decodeChecked (st : StreamName) (lvl tune : Bool) (w0 : Nat) (w1 : Option Nat) : Except Cause Instr :=
  match infoOf w0 with
  | none => .error .illegalOpcode
  | some o =>
    if !o.streams.contains st then .error .wrongStream
    else if (privOf w0 && !lvl) || (isApub w0 && !tune) then .error .privileged
    else decodeFields st w0 w1

/-- The words of an instruction decoded: word 0, and word 1 or the extension word when the instruction takes one (R59). Total on any words. -/
def decodeWords (st : StreamName) (lvl tune : Bool) : List Nat → Except Cause Instr
  | [] => .error .fetchFault
  | w0 :: rest =>
    if isExtWord w0 then .error .extWordMisplaced else
      match infoOf w0 with
      | none => .error .illegalOpcode
      | some o =>
        if o.long then
          match rest with
          | [] => .error .syncWordMissing
          | w1 :: _ => decodeChecked st lvl tune w0 (some w1)
        else
          match rest with
          | w1 :: _ => decodeChecked st lvl tune w0 (if o.ext && isExtWord w1 then some w1 else none)
          | [] => decodeChecked st lvl tune w0 none

/-- Word 0 in format A (R53). -/
def encA (e op gd ga gb fn : Nat) : Nat := e * 2 ^ 29 + op * 2 ^ 22 + gd * 2 ^ 16 + ga * 2 ^ 10 + gb * 2 ^ 4 + fn
/-- Word 0 in format I or B (R53). -/
def encI (e op gd ga im : Nat) : Nat := e * 2 ^ 29 + op * 2 ^ 22 + gd * 2 ^ 16 + ga * 2 ^ 10 + im
/-- Word 0 in format K (R53). -/
def encK (e op gd im : Nat) : Nat := e * 2 ^ 29 + op * 2 ^ 22 + gd * 2 ^ 16 + im
/-- Word 0 in format J or Z (R53). -/
def encJ (e op z : Nat) : Nat := e * 2 ^ 29 + op * 2 ^ 22 + z
/-- Word 0 of an engine instruction (R54). -/
def encE (e op dd da db sub rf : Nat) : Nat := e * 2 ^ 29 + op * 2 ^ 22 + dd * 2 ^ 17 + da * 2 ^ 12 + db * 2 ^ 7 + sub * 2 ^ 3 + rf

/-- The field of `w` bits of an immediate (R58). -/
def immField (w : Nat) (i : Imm) : Nat := truncBits i.val (if i.ext then w + 28 else w) % 2 ^ w
/-- The words after word 0: the extension word (R58). -/
def immTail (w : Nat) (i : Imm) : List Nat := if i.ext then [15 * 2 ^ 28 + truncBits i.val (w + 28) / 2 ^ w] else []

/-- The code of a rounding field (R55). -/
def rmCode : Rm → Nat
  | some .rne => 0 | some .rtz => 1 | some .rup => 2 | some .rdn => 3 | some .rna => 4 | some .sr => 5 | none => 7

/-- An enable bit with its field. -/
def encOpt (en lo : Nat) : Option Nat → Nat
  | some n => 2 ^ en + n * 2 ^ lo
  | none => 0

/-- The sync word (R56). -/
def syncWord (s : Sync) : Nat :=
  encOpt 31 26 s.give + encOpt 25 20 s.take0 + encOpt 19 14 s.take1 + encOpt 13 8 s.take2 + encOpt 3 4 s.rows + b2n s.nt

def amoCode : AmoOp → Nat
  | .add => 0 | .min => 1 | .max => 2 | .minn => 3 | .maxn => 4 | .and => 5 | .or => 6 | .xor => 7 | .xchg => 8
def fcondCode : FCond → Nat
  | .eq => 0 | .lt => 1 | .le => 2 | .un => 3
def kindCode : FenceKind → Nat
  | .acq => 0 | .rel => 1 | .full => 2 | .eng => 3
def scopeCode : Scope → Nat
  | .stream => 0 | .core => 1 | .cluster => 2 | .die => 3 | .pkg => 4 | .sys => 5
def vcondCode : VCond → Nat
  | .eq => 0 | .ne => 1 | .lt => 2 | .le => 3 | .gt => 4 | .ge => 5 | .un => 6 | .ord => 7
def bcastCode : BcastKind → Nat
  | .hi64 => 0 | .hn64 => 1 | .hf32 => 2 | .hf16 => 3 | .hbf16 => 4
def redCode : RedOp → Nat
  | .sum => 0 | .max => 1 | .min => 2 | .amax => 3 | .sumsq => 4
def scanCode : ScanOp → Nat
  | .sum => 0 | .max => 1 | .min => 2
def metricCode : Metric → Nat
  | .l2sq => 0 | .l1 => 1 | .ip => 2 | .ham => 3
def fillCode : ZeroFill → Nat
  | .zero => 0 | .neginf => 1 | .posinf => 2
def maskCode : MaskKind → Nat
  | .none => 0 | .rows => 1 | .elems => 3
def aqryCode : AqrySel → Nat
  | .state => 0 | .ver => 1 | .old => 2 | .slot => 3
def tqryCode : TqrySel → Nat
  | .state => 0 | .base => 1 | .ext01 => 2 | .ext23 => 3 | .held => 4
def qselCode : QSel → Nat
  | .tail => 0 | .prog => 1 | .done => 2 | .state => 3
def pmigCode : PmigOp → Nat
  | .toHbm => 0 | .toCxl => 1 | .evict => 2

/-- The words of an instruction, from the encoding tables of R64, R152 to R162, R169, R184, R201, R231, R255, R274, R296, R312, R332, R350,
R375, R422 and R440. An event has none. -/
def encode : Instr → List Nat
  | .nop => [0]
  | .b i => encJ 0 0x01 (immField 22 i) :: immTail 22 i
  | .call i => encJ 0 0x02 (immField 22 i) :: immTail 22 i
  | .ret => [encJ 0 0x03 0]
  | .bccEq a b i => encI 0 0x04 a b (immField 10 i) :: immTail 10 i
  | .bccNe a b i => encI 0 0x05 a b (immField 10 i) :: immTail 10 i
  | .bccLt a b i => encI 0 0x06 a b (immField 10 i) :: immTail 10 i
  | .bccGe a b i => encI 0 0x07 a b (immField 10 i) :: immTail 10 i
  | .bccLtn a b i => encI 0 0x08 a b (immField 10 i) :: immTail 10 i
  | .bccGen a b i => encI 0 0x09 a b (immField 10 i) :: immTail 10 i
  | .loop a n => [encI 0 0x0A 0 a n]
  | .rndv => [encJ 0 0x0B 0]
  | .whereQ d s => [encI 0 0x0C d 0 s]
  | .fence k s => [encJ 0 0x0D (kindCode k * 8 + scopeCode s)]
  | .semadd k a i => [encI 0 0x10 k a (truncBits i 10)]
  | .semwait k a i => [encI 0 0x11 k a (truncBits i 8)]
  | .semwaitTake k => [encI 0 0x11 k 0 256]
  | .semtry d k i => [encI 0 0x12 d k (truncBits i 8)]
  | .semtryTake d k => [encI 0 0x12 d k 256]
  | .semset k a i => [encI 0 0x13 k a (truncBits i 10)]
  | .semrd d k => [encI 0 0x14 d k 0]
  | .semrdDraw d k => [encI 0 0x14 d k 1]
  | .semrdPb d k => [encI 0 0x14 d k 2]
  | .pbwait k a i => [encI 0 0x15 k a i]
  | .add d a b => [encA 1 0x00 d a b 0]
  | .sub d a b => [encA 1 0x01 d a b 0]
  | .mul d a b => [encA 1 0x02 d a b 0]
  | .mulh d a b => [encA 1 0x03 d a b 0]
  | .mulhn d a b => [encA 1 0x04 d a b 0]
  | .div d a b => [encA 1 0x05 d a b 0]
  | .divn d a b => [encA 1 0x06 d a b 0]
  | .rem d a b => [encA 1 0x07 d a b 0]
  | .and d a b => [encA 1 0x08 d a b 0]
  | .or d a b => [encA 1 0x09 d a b 0]
  | .xor d a b => [encA 1 0x0A d a b 0]
  | .shl d a b => [encA 1 0x0B d a b 0]
  | .shr d a b => [encA 1 0x0C d a b 0]
  | .sar d a b => [encA 1 0x0D d a b 0]
  | .min d a b => [encA 1 0x0E d a b 0]
  | .max d a b => [encA 1 0x0F d a b 0]
  | .minn d a b => [encA 1 0x10 d a b 0]
  | .maxn d a b => [encA 1 0x11 d a b 0]
  | .slt d a b => [encA 1 0x12 d a b 0]
  | .sltn d a b => [encA 1 0x13 d a b 0]
  | .seq d a b => [encA 1 0x14 d a b 0]
  | .sel d a b => [encA 1 0x15 d a b 0]
  | .clz d a => [encA 1 0x16 d a 0 0]
  | .ctz d a => [encA 1 0x17 d a 0 0]
  | .popc d a => [encA 1 0x18 d a 0 0]
  | .bfx d a b => [encA 1 0x19 d a b 0]
  | .bfi d a b => [encA 1 0x1A d a b 0]
  | .addi d a i => encI 1 0x20 d a (immField 10 i) :: immTail 10 i
  | .andi d a i => encI 1 0x21 d a (immField 10 i) :: immTail 10 i
  | .ori d a i => encI 1 0x22 d a (immField 10 i) :: immTail 10 i
  | .xori d a i => encI 1 0x23 d a (immField 10 i) :: immTail 10 i
  | .shli d a s => [encI 1 0x24 d a s]
  | .shri d a s => [encI 1 0x25 d a s]
  | .sari d a s => [encI 1 0x26 d a s]
  | .li d i => encK 1 0x28 d (immField 16 i) :: immTail 16 i
  | .lih d i => encK 1 0x29 d (immField 16 i) :: immTail 16 i
  | .addpc d i => encK 1 0x2A d (immField 16 i) :: immTail 16 i
  | .fadd d a b r => [encA 2 0x00 d a b (rmCode r)]
  | .fsub d a b r => [encA 2 0x01 d a b (rmCode r)]
  | .fmul d a b r => [encA 2 0x02 d a b (rmCode r)]
  | .ffma d a b r => [encA 2 0x03 d a b (rmCode r)]
  | .fdiv d a b r => [encA 2 0x04 d a b (rmCode r)]
  | .fsqrt d a r => [encA 2 0x05 d a 0 (rmCode r)]
  | .fmin d a b => [encA 2 0x06 d a b 0]
  | .fmax d a b => [encA 2 0x07 d a b 0]
  | .fcmp c d a b => [encA 2 0x08 d a b (fcondCode c)]
  | .fclass d a => [encA 2 0x09 d a 0 0]
  | .fcvtTo d a f r => [encA 2 0x0A d a f (rmCode r)]
  | .fcvtFrom d a f r => [encA 2 0x0B d a f (rmCode r)]
  | .ld1s d a i => encI 2 0x10 d a (immField 10 i) :: immTail 10 i
  | .ld1z d a i => encI 2 0x11 d a (immField 10 i) :: immTail 10 i
  | .ld2s d a i => encI 2 0x12 d a (immField 10 i) :: immTail 10 i
  | .ld2z d a i => encI 2 0x13 d a (immField 10 i) :: immTail 10 i
  | .ld4s d a i => encI 2 0x14 d a (immField 10 i) :: immTail 10 i
  | .ld4z d a i => encI 2 0x15 d a (immField 10 i) :: immTail 10 i
  | .ld8 d a i => encI 2 0x16 d a (immField 10 i) :: immTail 10 i
  | .ld16 d a i => encI 2 0x17 d a (immField 10 i) :: immTail 10 i
  | .st1 d a i => encI 2 0x18 d a (immField 10 i) :: immTail 10 i
  | .st2 d a i => encI 2 0x19 d a (immField 10 i) :: immTail 10 i
  | .st4 d a i => encI 2 0x1A d a (immField 10 i) :: immTail 10 i
  | .st8 d a i => encI 2 0x1B d a (immField 10 i) :: immTail 10 i
  | .st16 d a i => encI 2 0x1C d a (immField 10 i) :: immTail 10 i
  | .amo4 o d a b => [encA 2 0x20 d a b (amoCode o)]
  | .amo8 o d a b => [encA 2 0x21 d a b (amoCode o)]
  | .acas4 d a b => [encA 2 0x22 d a b 0]
  | .acas8 d a b => [encA 2 0x23 d a b 0]
  | .vadd d a b r s => [encE 3 0x00 d a b 0 (rmCode r), syncWord s]
  | .vsub d a b r s => [encE 3 0x01 d a b 0 (rmCode r), syncWord s]
  | .vmul d a b r s => [encE 3 0x02 d a b 0 (rmCode r), syncWord s]
  | .vfma d a b r s => [encE 3 0x03 d a b 0 (rmCode r), syncWord s]
  | .vfms d a b r s => [encE 3 0x04 d a b 0 (rmCode r), syncWord s]
  | .vdiv d a b r s => [encE 3 0x05 d a b 0 (rmCode r), syncWord s]
  | .vmin d a b r s => [encE 3 0x06 d a b 0 (rmCode r), syncWord s]
  | .vmax d a b r s => [encE 3 0x07 d a b 0 (rmCode r), syncWord s]
  | .vabs d a r s => [encE 3 0x08 d a 0 0 (rmCode r), syncWord s]
  | .vneg d a r s => [encE 3 0x09 d a 0 0 (rmCode r), syncWord s]
  | .vand d a b s => [encE 3 0x0A d a b 0 0, syncWord s]
  | .vor d a b s => [encE 3 0x0B d a b 0 0, syncWord s]
  | .vxor d a b s => [encE 3 0x0C d a b 0 0, syncWord s]
  | .vnot d a s => [encE 3 0x0D d a 0 0 0, syncWord s]
  | .vshl d a b s => [encE 3 0x0E d a b 0 0, syncWord s]
  | .vshr d a b s => [encE 3 0x0F d a b 0 0, syncWord s]
  | .vsar d a b s => [encE 3 0x10 d a b 0 0, syncWord s]
  | .vcmp c d a b s => [encE 3 0x11 d a b (vcondCode c) 0, syncWord s]
  | .vsel d a b r s => [encE 3 0x12 d a b 0 (rmCode r), syncWord s]
  | .vcvt d a r s => [encE 3 0x13 d a 0 0 (rmCode r), syncWord s]
  | .vexp2 d a r s => [encE 3 0x14 d a 0 0 (rmCode r), syncWord s]
  | .vlog2 d a r s => [encE 3 0x15 d a 0 0 (rmCode r), syncWord s]
  | .vrcp d a r s => [encE 3 0x16 d a 0 0 (rmCode r), syncWord s]
  | .vrsq d a r s => [encE 3 0x17 d a 0 0 (rmCode r), syncWord s]
  | .vsqrt d a r s => [encE 3 0x18 d a 0 0 (rmCode r), syncWord s]
  | .vtanh d a r s => [encE 3 0x19 d a 0 0 (rmCode r), syncWord s]
  | .vsig d a r s => [encE 3 0x1A d a 0 0 (rmCode r), syncWord s]
  | .verf d a r s => [encE 3 0x1B d a 0 0 (rmCode r), syncWord s]
  | .vsin d a r s => [encE 3 0x1C d a 0 0 (rmCode r), syncWord s]
  | .vcos d a r s => [encE 3 0x1D d a 0 0 (rmCode r), syncWord s]
  | .vclamp d a b r s => [encE 3 0x1E d a b 0 (rmCode r), syncWord s]
  | .vscale d a b r s => [encE 3 0x1F d a b 0 (rmCode r), syncWord s]
  | .vbcast k d a r s => [encE 3 0x20 d a 0 (bcastCode k) (rmCode r), syncWord s]
  | .viota w d a b r s => [encE 3 0x21 d a b (b2n w) (rmCode r), syncWord s]
  | .vperm w d a b r s => [encE 3 0x22 d a b (b2n w) (rmCode r), syncWord s]
  | .vmov d a s => [encE 3 0x23 d a 0 0 0, syncWord s]
  | .vred o l d a r s => [encE 3 0x30 d a 0 (redCode o + 8 * b2n l) (rmCode r), syncWord s]
  | .vscan o x d a r s => [encE 3 0x31 d a 0 (scanCode o + 4 * b2n x) (rmCode r), syncWord s]
  | .vdot l d a b r s => [encE 3 0x32 d a b (8 * b2n l) (rmCode r), syncWord s]
  | .vdist m n d a b r s => [encE 3 0x33 d a b (metricCode m + 4 * b2n n) (rmCode r), syncWord s]
  | .vthrc g l d a b s => [encE 3 0x34 d a b (b2n g + 8 * b2n l) 0, syncWord s]
  | .vcomp f x d a b r s => [encE 3 0x35 d a b (b2n f + 2 * b2n x) (rmCode r), syncWord s]
  | .vexpd f d a b r s => [encE 3 0x36 d a b (b2n f) (rmCode r), syncWord s]
  | .vhist c o d a b s => [encE 3 0x37 d a b (b2n c + 2 * b2n o) 0, syncWord s]
  | .vxform c n d a s => [encE 3 0x38 d a 0 (b2n c + 2 * b2n n) 0, syncWord s]
  | .vmaxi l d a r s => [encE 3 0x39 d a 0 (8 * b2n l) (rmCode r), syncWord s]
  | .vsort c p d a r s => [encE 3 0x3A d a 0 (b2n c + 2 * b2n p) (rmCode r), syncWord s]
  | .vranki m n a s => [encE 3 0x3B 0 a 0 (b2n m + 2 * b2n n) 0, syncWord s]
  | .vrankp a b s => [encE 3 0x3C 0 a b 0 0, syncWord s]
  | .vranko k d r s => [encE 3 0x3D d 0 0 (b2n k) (rmCode r), syncWord s]
  | .xlease s => [encE 4 0x00 0 0 0 0 0, syncWord s]
  | .xfree d s => [encE 4 0x01 0 0 0 (b2n d) 0, syncWord s]
  | .xcellop a s => [encE 4 0x02 0 a 0 0 0, syncWord s]
  | .xzero f m s => [encE 4 0x03 0 0 0 (fillCode f + 4 * b2n m) 0, syncWord s]
  | .xpass p a b s => [encE 4 0x04 0 a b (b2n p) 0, syncWord s]
  | .xside a b s => [encE 4 0x05 0 a b 0 0, syncWord s]
  | .xsideb a s => [encE 4 0x06 0 a 0 0 0, syncWord s]
  | .xdrain z d r s => [encE 4 0x07 d 0 0 (b2n z) (rmCode r), syncWord s]
  | .xbias w p a s => [encE 4 0x08 0 a 0 (b2n w + 2 * b2n p) 0, syncWord s]
  | .ares d a b s => [encE 4 0x10 d a b 0 0, syncWord s]
  | .arel d s => [encE 4 0x11 d 0 0 0 0, syncWord s]
  | .aqry q d a s => [encE 4 0x12 d a 0 (aqryCode q) 0, syncWord s]
  | .apub d a b s => [encE 4 0x13 d a b 0 0, syncWord s]
  | .dset f k a => [encA 5 0x00 k a f 0]
  | .dgetf f d k => [encA 5 0x01 d k f 0]
  | .dld k a i => encI 5 0x02 k a (immField 10 i) :: immTail 10 i
  | .dst k a i => encI 5 0x03 k a (immField 10 i) :: immTail 10 i
  | .dcpy d a => [encA 5 0x04 d a 0 0]
  | .dadv r k a => [encA 5 0x05 k a 0 (b2n r)]
  | .rinit n k => [encA 5 0x08 n k 0 0]
  | .rcommit n a i => [encI 5 0x09 n a i]
  | .rrelease n a i => [encI 5 0x0A n a i]
  | .rstat d n s => [encI 5 0x0B d n s]
  | .dcopy m d a r s => [encE 5 0x10 d a 0 (maskCode m) (rmCode r), syncWord s]
  | .dgather m o d a b r s => [encE 5 0x11 d a b (maskCode m + 4 * b2n o) (rmCode r), syncWord s]
  | .dscatter m o d a b r s => [encE 5 0x12 d a b (maskCode m + 4 * b2n o) (rmCode r), syncWord s]
  | .dscata m o d a b r s => [encE 5 0x13 d a b (maskCode m + 4 * b2n o) (rmCode r), syncWord s]
  | .dfill d a s => [encE 5 0x14 d a 0 0 0, syncWord s]
  | .dpref a s => [encE 5 0x15 0 a 0 0 0, syncWord s]
  | .dpreq m a b s => [encE 5 0x16 0 a b (maskCode m) 0, syncWord s]
  | .dflush a s => [encE 5 0x17 0 a 0 0 0, syncWord s]
  | .dinv a s => [encE 5 0x18 0 a 0 0 0, syncWord s]
  | .dput f d a b s => [encE 5 0x20 d a b f 0, syncWord s]
  | .dget f d a s => [encE 5 0x21 d a 0 f 0, syncWord s]
  | .dfadd f d a b s => [encE 5 0x22 d a b f 0, syncWord s]
  | .dfcas f d a b s => [encE 5 0x23 d a b f 0, syncWord s]
  | .dfencef f a b s => [encE 5 0x24 0 a b f 0, syncWord s]
  | .dflowOpen f d a s => [encE 5 0x25 d a 0 f 0, syncWord s]
  | .dflowClose f d a s => [encE 5 0x25 d a 1 f 0, syncWord s]
  | .dflowReset f d a s => [encE 5 0x25 d a 2 f 0, syncWord s]
  | .dflowStat f d a s => [encE 5 0x25 d a 3 f 0, syncWord s]
  | .tdef d k => [encA 6 0x00 d k 0 0]
  | .tacqR a => [encA 6 0x01 0 a 0 0]
  | .tacqW a => [encA 6 0x02 0 a 0 0]
  | .tacqRTry d a => [encA 6 0x03 d a 0 0]
  | .tacqWTry d a => [encA 6 0x04 d a 0 0]
  | .trel a => [encA 6 0x05 0 a 0 0]
  | .tseal a => [encA 6 0x06 0 a 0 0]
  | .tsealDet a => [encA 6 0x06 0 a 0 1]
  | .tsplit q a b => [encA 6 0x07 q a b 0]
  | .tjoin d q b => [encA 6 0x08 d q b 0]
  | .tfree a => [encA 6 0x09 0 a 0 0]
  | .tqry q d a => [encA 6 0x0A d a 0 (tqryCode q)]
  | .gjoin a s => [encA 6 0x10 0 a 0 s]
  | .gleave s => [encA 6 0x11 0 0 0 s]
  | .gsync t s => [encE 6 0x18 0 0 0 t 0, syncWord s]
  | .gred o t d a r s => [encE 6 0x19 d a 0 (t + 4 * scanCode o) (rmCode r), syncWord s]
  | .gbcast t d a b s => [encE 6 0x1A d a b t 0, syncWord s]
  | .ggath t d a s => [encE 6 0x1B d a 0 t 0, syncWord s]
  | .launch d a q => [encA 6 0x20 d a q 0]
  | .launchTry d a q => [encA 6 0x20 d a q 1]
  | .qstat q d a => [encA 6 0x21 d a 0 (qselCode q)]
  | .tlbinvPage a => [encA 6 0x28 0 a 0 0]
  | .tlbinvRange a b => [encA 6 0x28 0 a b 1]
  | .tlbinvCtx => [encA 6 0x28 0 0 0 2]
  | .pmig o d a => [encA 6 0x29 d a 0 (pmigCode o)]
  | .trap a c => [encI 7 0x00 0 a c]
  | .rte => [encJ 7 0x01 0]
  | .csrr d c => [encI 7 0x02 d 0 c]
  | .csrw d a c => [encI 7 0x03 d a c]
  | .csrs d a c => [encI 7 0x04 d a c]
  | .csrc d a c => [encI 7 0x05 d a c]
  | .iciv a b => [encA 7 0x06 0 a b 0]
  | .brk c => [encJ 7 0x07 c]
  | .yield => [encJ 7 0x08 0]
  | _ => []

/-- The length of an instruction in bytes (R51, R52): 8 with a sync word or an extension word, else 4. -/
def instrLen (i : Instr) : Nat := 4 * (encode i).length

/-- The decoder on an instruction numbered as the opcode table numbers it: bit 0 is the least significant bit of the first word, and word 1
follows at bit 32. The words decode in the first of the streams C, D, V, X that accepts them, at level P of a fine-tuning partition. -/
def decodeTableWord (_nbits w : Nat) : Option Instr :=
  let ws := [w % 2 ^ 32, w / 2 ^ 32 % 2 ^ 32]
  let try_ (st : StreamName) : Option Instr :=
    match decodeWords st true true ws with
    | .ok i => some i
    | .error _ => none
  match try_ .c with
  | some i => some i
  | none => match try_ .d with
    | some i => some i
    | none => match try_ .v with
      | some i => some i
      | none => try_ .x

end Sys2Proof
end

