-- ==== Sys2Proof/Machine/Round.lean ====
section
/-! DEFINITION. RoundTo of R17: rounding to a format, its flags, stochastic rounding and block scales (R31 to R41, R47, R48). -/

namespace Sys2Proof.Machine

/-- The controls of a rounding: the mode, FTZ of VCTL, and what stochastic rounding draws from (R32, R36, R38, R41). -/
structure Rounding where
  mode : RoundMode
  ftz : Bool
  seed : BitVec 64
  tag : Nat
  idx : Nat
  deriving DecidableEq, Repr, Inhabited

/-- The interior rounding of R47 and R48: RNE, without FTZ or SR. -/
def interior : Rounding := ⟨.rne, false, 0, 0, 0⟩

/-- SrBits of R36. -/
def srBits (seed : BitVec 64) (tag idx : Nat) : Nat :=
  let x := seed ^^^ (BitVec.ofNat 64 tag <<< 48) ^^^ BitVec.ofNat 64 idx
  let x := x + 0x9E3779B97F4A7C15#64
  let x := (x ^^^ (x >>> 30)) * 0xBF58476D1CE9E5B9#64
  let x := (x ^^^ (x >>> 27)) * 0x94D049BB133111EB#64
  let x := x ^^^ (x >>> 31)
  x.toNat / 2 ^ 32

/-- The integer magnitude that `num / den` rounds to under a mode, by the rules of R32 and R37. -/
def roundMag (r : Rounding) (neg : Bool) (num den : Nat) : Nat :=
  let k := num / den
  let rem := num % den
  if rem = 0 then k else
    let up := match r.mode with
      | .rne => den < 2 * rem || (2 * rem == den && k % 2 == 1)
      | .rtz => false
      | .rup => !neg
      | .rdn => neg
      | .rna => den ≤ 2 * rem
      | .sr => srBits r.seed r.tag r.idx < rem * 2 ^ 32 / den
    if up then k + 1 else k

/-- The floor of the base-2 logarithm of a positive `num / den`. -/
def floorLog2 (num den : Nat) : Int :=
  let e : Int := (Nat.log2 num : Int) - Nat.log2 den
  -- num / den lies between 2 ^ (e - 1) and 2 ^ (e + 1)
  let ge := if 0 ≤ e then den * 2 ^ e.toNat ≤ num else den ≤ num * 2 ^ (-e).toNat
  if ge then e else e - 1

/-- An encoding with its sign bit. -/
def signBits (w : Nat) (neg : Bool) (mag : Nat) : Nat := if neg then 2 ^ (w - 1) + mag else mag

/-- The settled overflow of step 5 of R33. -/
def overflowFloat (sp : FloatSpec) (w : Nat) (mode : RoundMode) (neg : Bool) : Nat × Flags :=
  if sp.hasInf then
    let toInf := match mode with
      | .rtz => false
      | .rup => !neg
      | .rdn => neg
      | _ => true
    (signBits w neg (if toInf then sp.maxBits + 1 else sp.maxBits), flagOF)
  else (signBits w neg sp.maxBits, flagSAT)

/-- FTZ of R41 on a rounded encoding. -/
def flushFloat (sp : FloatSpec) (w : Nat) (ftz : Bool) (neg : Bool) (mag : Nat) (fl : Flags) : Nat × Flags :=
  if ftz && mag != 0 && decide (mag < 2 ^ sp.mant) then (signBits w neg 0, fl ||| flagUFZ ||| flagNX)
  else (signBits w neg mag, fl)

/-- RoundTo for a floating-point format (R33). -/
def roundFloat (sp : FloatSpec) (w : Nat) (r : Rounding) : XR → Nat × Flags
  | .nan => match sp.nanBits with
    | some n => (n, 0)
    | none => (sp.maxBits, flagSAT ||| flagNV)
  | .inf neg => if sp.hasInf then (signBits w neg (sp.maxBits + 1), 0) else (signBits w neg sp.maxBits, flagSAT)
  | .fin neg num den =>
    if num = 0 then (signBits w neg 0, 0) else
      let emin : Int := 1 - (sp.bias : Int)
      let e := floorLog2 num den
      let u := (if e < emin then emin else e) - sp.mant          -- exponent of the last place
      let n := if 0 ≤ u then num else num * 2 ^ (-u).toNat
      let d := if 0 ≤ u then den * 2 ^ u.toNat else den
      let k := roundMag r neg n d
      let mag := (u - (emin - sp.mant)).toNat * 2 ^ sp.mant + k
      let exact := n % d = 0 && decide (mag ≤ sp.maxBits)
      let fl : Flags := if exact then 0 else if e < emin then flagNX ||| flagUF else flagNX
      if sp.maxBits < mag then
        let o := overflowFloat sp w r.mode neg
        (o.1, fl ||| o.2)
      else flushFloat sp w r.ftz neg mag fl

/-- RoundTo for an integer format (R34). -/
def roundInt (lo hi : Int) (w : Nat) (r : Rounding) : XR → Nat × Flags
  | .nan => (truncBits hi w, flagSAT ||| flagNV)
  | .inf neg => (truncBits (if neg then lo else hi) w, flagSAT)
  | .fin neg num den =>
    let k := roundMag r neg num den
    let v : Int := if neg then -(k : Int) else k
    let c := if v < lo then lo else if hi < v then hi else v
    let inexact := num % den ≠ 0 ∨ c ≠ v
    (truncBits c w, (if c ≠ v then flagSAT else 0) ||| (if inexact then flagNX else 0))

/-- The nearer of two TS8 encodings to a value in sixty-fourths of `1 / den`: by distance, then by magnitude, then by byte (R35). -/
def ts8Better (x : Int) (den : Nat) (b c : Nat) : Bool :=
  let db := (x - ts8Units b * den).natAbs
  let dc := (x - ts8Units c * den).natAbs
  db < dc || (db == dc && ((ts8Units b).natAbs < (ts8Units c).natAbs ||
    (ts8Units b == ts8Units c && b < c)))

/-- The TS8 byte that a finite value is written as (R35). -/
def ts8Nearest (x : Int) (den : Nat) : Nat :=
  (upFrom 0 256).foldl (fun best b => if ts8Better x den b best then b else best) 8

/-- RoundTo for TS8 (R35). -/
def roundTs8 : XR → Nat × Flags
  | .nan => (ts8Nearest 128 1, flagSAT ||| flagNV)
  | .inf neg => (ts8Nearest (if neg then -128 else 128) 1, flagSAT)
  | .fin neg num den =>
    let b := ts8Nearest (xNum neg (num * 64)) den
    let sat : Flags := if 2 * den < num then flagSAT else 0
    let nx : Flags := if ts8Units b * den ≠ xNum neg (num * 64) then flagNX else 0
    (b, sat ||| nx)

/-- RoundTo of R17: the encoding and the flags. A B1 destination, which no instruction rounds to, takes whether the value is not zero. -/
def roundTo (x : XR) (f : Fmt) (r : Rounding) : Nat × Flags :=
  match floatSpec f, intRange f with
  | some sp, _ => roundFloat sp (fmtWidth f) r x
  | none, some (lo, hi) => roundInt lo hi (fmtWidth f) r x
  | none, none => if f = .ts8 then roundTs8 x else (b2n (!xIsZero x), 0)

/-- The interior rounding of R47 and R48 to F32, as a value. -/
def roundF32 (x : FV) : FV :=
  let r := roundTo x.1 .f32 interior
  (decodeFmt .f32 r.1, x.2 ||| r.2)

/-- Emax and MaxFinite of a block-scaled element format (R31). -/
def blockLimits : Fmt → Int × Nat
  | .e4m3 => (8, 448)
  | .e5m2 => (15, 57344)
  | .e2m1 => (2, 6)
  | .i8 => (6, 127)
  | .i4s => (2, 7)
  | _ => (1, 2)

/-- The greater magnitude of two finite values; NaN and infinities count as no value here. -/
def magMax : XR → XR → XR
  | .fin s n d, .fin _ m e => if n * e < m * d then .fin false m e else .fin s n d
  | x, .fin .. => x
  | .fin s n d, _ => .fin s n d
  | x, _ => x

/-- The largest finite magnitude of a block, 0 if there is none (R31). -/
def blockAmax (xs : List XR) : XR := xs.foldl (fun a x => magMax a (xAbs x)) xZero

/-- The scale written for a block without NaN (step 2 of R31): its bits. -/
def blockScale (sf : ScaleFmt) (f : Fmt) (amax : XR) : Nat :=
  match amax with
  | .fin _ n d =>
    match sf with
    | .e8m0 =>
      if n = 0 then 0 else
        let e := floorLog2 n d - (blockLimits f).1 + 127
        if e < 0 then 0 else if 254 < e then 254 else e.toNat
    | .bf16 => if n = 0 then 0x3F80 else
        let b := (roundTo (xFin false n (d * (blockLimits f).2)) .bf16 interior).1
        if b = 0 then 1 else b
    | .f16 => if n = 0 then 0x3C00 else
        let b := (roundTo (xFin false n (d * (blockLimits f).2)) .f16 interior).1
        if b = 0 then 1 else b
  | _ => 0

/-- The NaN scale of step 1 of R31. -/
def nanScale : ScaleFmt → Nat
  | .e8m0 => 0xFF
  | .bf16 => 0x7FC0
  | .f16 => 0x7E00

/-- The element written under a NaN scale (step 1 of R31). -/
def nanBlockElem (f : Fmt) : Nat := if f = .ts8 then 8 else 0

/-- A block written under R31: the scale's bits and the elements' bits with their flags. `xs` are the values below the valid count, each with
the index that stochastic rounding uses. -/
def roundBlock (sf : ScaleFmt) (f : Fmt) (r : Rounding) (xs : List (XR × Nat)) : Nat × List Nat × Flags :=
  if xs.any (fun p => xIsNan p.1) then (nanScale sf, xs.map (fun _ => nanBlockElem f), flagNV) else
    let sc := blockScale sf f (blockAmax (xs.map (·.1)))
    let scv := decodeScale sf sc
    let out := xs.map (fun p => roundTo (xDiv p.1 scv).1 f { r with idx := p.2 })
    (sc, out.map (·.1), out.foldl (fun a p => a ||| p.2) 0)

/-- The largest power of two below `n`, for `n ≥ 2` (R48). -/
def treeSplit (n : Nat) : Nat := 2 ^ Nat.log2 (n - 1)

/-- The tree of R48 over a non-empty list, with the combination's own rounding. `fuel` bounds the depth. -/
def treeCombine {α : Type} (op : α → α → α) : Nat → List α → Option α
  | 0, xs => xs.head?
  | _ + 1, [] => none
  | _ + 1, [x] => some x
  | f + 1, x :: y :: xs =>
    let l := x :: y :: xs
    let h := treeSplit l.length
    match treeCombine op f (l.take h), treeCombine op f (l.drop h) with
    | some a, some b => some (op a b)
    | some a, none => some a
    | none, b => b

/-- The tree of R48 over a list. -/
def tree {α : Type} (op : α → α → α) (xs : List α) : Option α := treeCombine op (xs.length.log2 + 2) xs

end Sys2Proof.Machine
end

