-- ==== Sys2Proof/Config.lean ====
section
/-! DEFINITION. Who may act next, and the free values of the model: constants without a body, which no proof can see. -/

namespace Sys2Proof

/-- A step of an agent that no row of the opcode table names. -/
inductive Act where
  /-- A metadata cache writes back a changed leaf or node (R417). -/
  | metaBack (key : Nat)
  /-- A read of `n` bytes of BAR 0, and a write of 4 bytes to it (R426, R430). -/
  | barRead (vd off n : Nat) (tee : Option Nat)
  | barWrite4 (vd off value : Nat) (tee : Option Nat)
  /-- A read of an item of a function's configuration space; no function is physical function 0 (R429, R453; log 32). -/
  | configRead (fn : Option Nat) (off : Nat)
  /-- The debug agent reads a register of its window (R369). -/
  | agentRead (off : Nat)
  /-- The host driver reads a die's health register, and what the controller reports with it (R449, R450). -/
  | healthRead (die : Nat)
  /-- The join of a member of another package arrives, is withdrawn, or a member there refuses a join of this package (R325, R326). -/
  | joinArrive (pkg key rank size : Nat) (hall : List (BitVec 64)) (members : List Nat)
  | joinWithdrawn (key rank : Nat)
  | joinRefused (key rank reason : Nat)
  /-- A fabric port loses lock, and the firmware writes the ports by which a package is reached (R433). -/
  | lockLoss (port : Nat)
  | routeWrite (pkg ports : Nat)
  /-- The firmware programs a CXL port's HDM decoder (R432). -/
  | hdmWrite (port size : Nat)
  /-- Bring-up goes on by a step, and the firmware fails (R452, R453). -/
  | bringUp
  | firmwareFail
  deriving DecidableEq, Repr, Inhabited

/-- Who acts next. -/
inductive Turn where
  /-- A stream issues (R83). -/
  | stream (core : Nat) (st : StreamName)
  /-- An engine advances its head by some elements (R165). -/
  | engine (core : Nat) (eng : EngineName) (units : Nat)
  /-- A step of another agent: one of the events of the opcode table. -/
  | event (i : Instr)
  /-- A TLB fills the translation of a page of a context (R405). -/
  | tlbFill (ctx va : Nat)
  /-- An instruction cache fills a word of a context (R69). -/
  | icFill (ctx va : Nat)
  /-- The memory controller writes back a dirty line (R417). -/
  | writeBack (line : Nat)
  /-- An uncorrectable error strikes: 0 data line, 1 line MAC, 2 line poisoned, 3 dirty L2 line, 4 leaf or node, 5 tree, 6 vault line,
  7 scratchpad line of a core (R418). -/
  | strike (kind addr core : Nat)
  /-- A step of another agent that is no event of the opcode table. -/
  | act (a : Act)
  deriving DecidableEq, Repr, Inhabited

/-- The agent that acts at each count of steps (R3, R83; log 1). -/
opaque Config.schedule : Nat → Turn

/-- The cycles that pass with a step (R3; log 2). -/
opaque Config.elapsed : Nat → Nat

/-- The die that is home to a line of a page that is not PRIVATE: the hash of R406 (log 94). -/
opaque Config.homeDie : Nat → Nat

/-- The choice among the L2 ways that a line may be filled into, by the count of steps (R386; log 94). -/
opaque Config.fillWay : Nat → Nat → Nat

/-- Whether an access made at a count of steps finds a line that is not dirty in no L2, so that data moves (R388; log 95). -/
opaque Config.l2Misses : Nat → Nat → Bool

/-- Which of the two controllers of its stack serves a line (R388; log 95). -/
opaque Config.hbmHalf : Nat → Nat

/-- The fabric port, among those that reach a package, that sends a part at a count of steps (R433; log 95). -/
opaque Config.sendPort : Nat → Nat → Nat

/-- Whether a frame is SECURE after bring-up: it holds the page ownership table or the security processor's data (R407, R453; log 66). -/
opaque Config.secureFrame : Nat → Bool

/-- Whether an access made at a count of steps uses the translation that a TLB holds for the page rather than the walk (R405; log 10). -/
opaque Config.usesHeld : Nat → Nat → Bool

/-- Whether a fetch made at a count of steps uses the copy of the word that an instruction cache holds (R69; log 10). -/
opaque Config.usesCached : Nat → Nat → Bool

/-- The floor that fixes the rounding of a transcendental value that no precision of the model settles (log 12). -/
opaque Config.unresolvedReal : Nat → Int → Nat → Int

/-- The units of its instruction that an engine of a core still does when a checkpoint or a halt made at a count of steps stops it (R177; log 112). -/
opaque Config.stopUnits : Nat → Nat → EngineName → Nat

/-- A byte of a frame in a part whose layout the spec does not give (R364; log 24). -/
opaque Config.frameByte : Nat → Nat → BitVec 8

/-- Whether the scrub of a unit made at a count of steps passes (R396; log 26). -/
opaque Config.scrubPasses : Nat → Nat → Bool

/-- The tag under which the host driver holds an evicted page (R410, R411; log 27). -/
opaque Config.hostTag : Nat → Nat

/-- A page's contents sealed for the host under a world key, and opened again; `none` fails the check (R410; log 27). -/
opaque Config.sealPage : Nat → Nat → List Byte → List Byte
opaque Config.openPage : Nat → Nat → List Byte → Option (List Byte)

/-- What a read of an item of a function's configuration space gives whose contents the spec does not (R425, R453; log 32). -/
opaque Config.configData : Option Nat → Nat → BitVec 32

/-- The USER field of a fetch event (R341, R346; log 30). -/
opaque Config.fetchUser : Nat → BitVec 64

/-- Whether a signature over a hash verifies against the fused Ed25519 or ML-DSA-65 key (R452; log 103). -/
opaque Config.ed25519Verifies : List (BitVec 8) → List (BitVec 8) → Bool
opaque Config.mlDsaVerifies : List (BitVec 8) → List (BitVec 8) → Bool

/-- The identity certificate of a device, and its two signatures of some bytes, by the seed of its key pair (R453; log 103). -/
opaque Config.certificate : Nat → List (BitVec 8)
opaque Config.ed25519Sign : Nat → List (BitVec 8) → List (BitVec 8)
opaque Config.mlDsaSign : Nat → List (BitVec 8) → List (BitVec 8)

end Sys2Proof
end

