-- ==== Sys2Proof/Machine/State.lean ====
section
/-! DEFINITION. The state of the package: plain data, every piece of state the spec names, and the state after reset. Each field's
docstring cites the rule that names it. -/

namespace Sys2Proof.Machine

/-- Bytes by address, in canonical form for the unlisted byte 0 (log 4). -/
abbrev Memory := List Host.Cell

/-- A loop-stack entry (R78, R90). -/
structure LoopEntry where
  start : Word
  stop : Word
  left : Word
  deriving DecidableEq, Repr, Inhabited

/-- The states of a stream (R80). -/
inductive StreamState where
  | idle | run | wait | met | trapped | halted | saved
  deriving DecidableEq, Repr, Inhabited

/-- What a pending wait waits for (R81, R317). -/
inductive Wait where
  /-- Every take of the sync word holds at once (R307). -/
  | takes (sems : List Nat)
  /-- SEMWAIT under ABS: the semaphore reaches a target (R314). -/
  | sem (k : Nat) (target : BitVec 32)
  /-- PBWAIT: the counter is at most a threshold (R316). -/
  | pb (k limit : Nat)
  /-- A ring claim of `w` slots by a producer or a consumer (R158). -/
  | ring (n : Nat) (producer : Bool) (w : Nat)
  /-- A tenure request that stands in the arrival order (R272). -/
  | tenure (request : Nat)
  /-- A scalar load from bytes of a tile held WRITE by another core (R283). -/
  | access (va n : Nat)
  /-- The reclaim of the array before a ring claim (R243). -/
  | lease
  /-- GJOIN: the formation of a group slot (R325). -/
  | group (slot : Nat)
  /-- GLEAVE: the end of the group instructions issued on a slot (R328). -/
  | leave (slot : Nat)
  /-- Completion: every engine instruction issued before `bound`, of one stream or of all, has completed (R297, R299). -/
  | engines (all : Bool) (bound : Nat)
  /-- TSEAL.DET in the C stream: every engine instruction issued before `bound` that writes the tile has completed (R278). -/
  | sealing (handle bound : Nat)
  /-- The result of an engine instruction that the stream holds until it completes, or the grant of its XLEASE (R81, R228, R258, R443). -/
  | result (seq : Nat)
  /-- The end of a page request or of a migration (R410, R411, R424). -/
  | page (va : Nat)
  deriving DecidableEq, Repr, Inhabited


/-- A trap record (R356). -/
structure TrapRecord where
  cause : Nat
  engine : Nat
  async : Bool
  level : Bool
  valid : Bool
  mett : Bool
  pc : Word
  words : Word
  esw : Word
  progress : Nat
  va : Word
  loops : List LoopEntry
  rets : List Word
  /-- The trap is class D and the debugger serves it (R359, R367). -/
  debug : Bool
  deriving DecidableEq, Repr, Inhabited

/-- A trap record that holds nothing. -/
def TrapRecord.none : TrapRecord := ⟨0, 0, false, false, false, false, 0, 0, 0, 0, 0, [], [], false⟩

/-- A ring claim that belongs to an engine instruction (R158, R163): the operand (1 dd, 2 da, 3 db), the register and the first slot. -/
structure Claim where
  operand : Nat
  ring : Nat
  slot : Nat
  deriving DecidableEq, Repr, Inhabited

/-- The states of a part of a link instruction (R311, R436, R437, R439, R445): `framed` stands in the open frame; `sent` and `refused` count the
refusals, and the failures of its end-to-end CRC in a row, so far; `refused` holds the cycle at which its hint ends. -/
inductive PartState where
  | unsent | framed | sent (refusals crc : Nat) | refused (until_ refusals : Nat) | performed
  deriving DecidableEq, Repr, Inhabited

/-- A part of a link instruction: its state, its sequence number, the copy that its port holds, the cycle of its last sending, and what has come
back for it (R311, R437, R441). -/
structure Part where
  state : PartState
  seq : Nat
  copy : List Byte
  sentAt : Nat
  back : Option (List Byte)
  deriving DecidableEq, Repr, Inhabited

/-- A part that has not been sent. -/
def Part.fresh : Part := ⟨.unsent, 0, [], 0, none⟩

/-- Partial state that an instruction keeps in its queue entry (R225, R334, R445). -/
inductive Partial where
  | none
  /-- The partial mask flag of a row (R167). -/
  | maskFlag (row : Nat) (flag : Bool)
  /-- The bins of VHIST.ONE (R225). -/
  | bins (counts : Tab Nat)
  /-- The running value of VSCAN (R225). -/
  | acc (x : XR)
  /-- The position w of VCOMP, or the pointer p of VEXPD, in its row (R225). -/
  | at (n : Nat)
  /-- The parts of a link instruction (R311, R445). -/
  | parts (t : Tab Part)
  /-- A link instruction whose unperformed parts have been abandoned: it faults with the cause (R435, R437). -/
  | abandoned (cause : Cause)
  /-- A group operation: its sequence number, and whether this member's contribution has been sent (R330, R334). -/
  | group (seq : Nat) (sent : Bool)
  /-- DPREQ: the elements whose pages it has requested, and the pages whose request has failed (R175, R177). ARES: the slots whose windows it
  has requested (R256). -/
  | pages (posted failed : List Nat)
  deriving DecidableEq, Repr, Inhabited

/-- An instruction in an engine's queue (R165, R177, R364). -/
structure QEntry where
  instr : Instr
  stream : StreamName
  seq : Nat
  pc : Word
  words : Word
  progress : Nat
  /-- The valid count, clamped under R137. -/
  count : Nat
  descs : List DescWord
  hvals : List Word
  claims : List Claim
  vctl : Word
  seed : Word
  part : Partial
  /-- The engine has begun it (R235, R243). -/
  started : Bool
  /-- It has faulted or been stopped at its boundary, and waits for the return (R177). -/
  stopped : Bool
  /-- The cycle since which an element has waited on a tenure (R176, R283) or a DFENCEF for earlier writes (R442), and the watchdog's exponent at
  that time (R319). -/
  stall : Option (Nat × Nat)
  deriving DecidableEq, Repr, Inhabited

/-- An instruction past step 4 of R165 that waits for the reclaim of the array or for its ring claims: its engine, its operands with their codes in
ESW and whether each is written, its takes, whether it needs the array, and its entry, sampled once (R137, R151, R165, R243). -/
structure Ready where
  engine : EngineName
  uses : List (Nat × DescWord × Bool)
  takes : List Nat
  array : Bool
  entry : QEntry
  deriving DecidableEq, Repr, Inhabited

/-- A pending wait, the cycle at which it began, its watchdog exponent and the words of the held instruction (R317, R319, R356); what the
instruction has sampled, when it waits past step 4 of R165. -/
structure Pending where
  on : Wait
  since : Nat
  wexp : Nat
  words : Word
  ready : Option Ready
  deriving DecidableEq, Repr, Inhabited

/-- The fault of an engine instruction that waits for its stream's next boundary (R177). -/
structure EngineFault where
  engine : EngineName
  /-- The engine's number in INFO, and ASYNC (R356). -/
  num : Nat
  async : Bool
  cause : Cause
  esw : Word
  progress : Nat
  va : Word
  pc : Word
  words : Word
  deriving DecidableEq, Repr, Inhabited

/-- A single step (R368): none, one instruction is to complete at a level, or STEP_DONE is due at that level behind the trap that a TRAP
instruction has raised (R377). -/
inductive StepMark where
  | off | armed (level : Bool) | due (level : Bool)
  deriving DecidableEq, Repr, Inhabited

/-- One stream of a core (R78). -/
structure Stream where
  pc : Word
  regs : Tab Word
  rets : List Word
  loops : List LoopEntry
  draws : Tab (BitVec 32)
  state : StreamState
  /-- The state that Unhalt brings back (R80). -/
  before : StreamState
  pending : Option Pending
  record : TrapRecord
  fault : Option EngineFault
  /-- DBGCMD STEP: one instruction, then STEP_DONE (R368). -/
  step : StepMark
  /-- DBGCMD DISPLACED: the two words executed once in place of those at the PC, and whether the stream stood at level P (R368). -/
  displaced : Option (Bool × Word32 × Word32)
  deriving DecidableEq, Repr, Inhabited

/-- A stream of a core that holds no job (R80; log 5). -/
def Stream.reset : Stream := ⟨0, [], [], [], [], .idle, .idle, none, TrapRecord.none, none, .off, none⟩

/-- The ranking unit (R217): each pair holds its score's encoding, `none` for NaN, and its id as a 64-bit pattern. -/
structure RankUnit where
  isOpen : Bool
  small : Bool
  int : Bool
  k : Nat
  m : Nat
  pairs : List (Option Nat × Nat)
  deriving DecidableEq, Repr, Inhabited

/-- The lease right of a core (R227). -/
inductive LeaseRight where
  | none | waiting | held | lapsed | reclaim
  deriving DecidableEq, Repr, Inhabited

/-- The array state of a core (R226). Unlisted cells hold +0. -/
structure ArrayState where
  acc : Tab Nat
  side : Tab Nat
  pattern : Nat
  map : Tab Nat
  layer : Nat
  k0 : Nat
  alive : Bool
  sideLive : Bool
  lastB : Nat
  passes : Nat
  cycles : Nat
  deriving DecidableEq, Repr, Inhabited

def ArrayState.fresh : ArrayState := ⟨[], [], 0, [], 0, 0, false, false, 0, 0, 0⟩

/-- A group slot of a core (R322, R326): its state is 0 FREE, 1 JOINING, 2 JOINED, 3 ABORTED. A FREE slot with a reason keeps it for the fault of
its GJOIN: the abort's reason, or 16 plus that of the refusal. -/
structure GroupSlot where
  state : Nat
  key : Nat
  size : Nat
  rank : Nat
  seq : Nat
  reason : Nat
  staging : Nat
  stageB : Nat
  members : List Nat
  hall : List Word
  deriving DecidableEq, Repr, Inhabited

def GroupSlot.free : GroupSlot := ⟨0, 0, 0, 0, 0, 0, 0, 0, [], []⟩

/-- A flow of a core: its registers, its next sequence number, and the batch header and first cycle of its open frame (R434, R435, R439). -/
structure Flow where
  fcfg : Word
  fsts : Word
  seq : Nat
  hdr : Nat
  since : Nat
  deriving DecidableEq, Repr, Inhabited

def Flow.idle : Flow := ⟨0, 0, 0, 0, 0⟩

/-- One core and what the spec keeps on it (R8 to R12, R43, R44, R78, R126, R164, R217, R226, R227, R250, R322, R373, R434). -/
structure Core where
  c : Stream
  d : Stream
  v : Stream
  x : Stream
  descs : Tab DescWord
  sems : Tab (BitVec 32)
  pbs : Tab (BitVec 40)
  rings : Tab (BitVec 128)
  spad : Tab Byte
  dirty : List Nat
  /-- Uncorrectable errors standing in scratchpad lines, by line (R418). -/
  spadErr : Tab Bool
  vstat : Word
  vctlLo : Word
  vctlSeed : Word
  cycle : Word
  tcmp : Word
  tepc : Word
  tstat : Word
  tscr0 : Word
  tscr1 : Word
  qdata : List QEntry
  qvec : List QEntry
  qmat : List QEntry
  qgrp : List QEntry
  /-- Engine instructions that have entered a queue, counted (R299). -/
  issued : Nat
  rank : RankUnit
  lease : LeaseRight
  /-- The cycle at which the lease request was posted or the grant made, and the cycles of grant so far (R229). -/
  leaseAt : Nat
  arr : ArrayState
  slots : Tab (Option (Nat × Nat × Nat))
  groups : Tab GroupSlot
  flows : Tab Flow
  job : Option Nat
  ctx : Nat
  jobRank : Nat
  /-- The cycle since which the deadlock detector's conditions have held (R318). -/
  stuckSince : Option Nat
  /-- After a resumption, until the ports' records are merged into the core's instructions: the flows that the ports have put in ERROR (R311). -/
  merge : Option (List Nat)
  deriving DecidableEq, Repr, Inhabited

def RankUnit.idle : RankUnit := ⟨false, false, false, 0, 0, []⟩

/-- A core that holds no job. Registers for which the spec gives no reset value read 0 (log 5). -/
def Core.reset : Core :=
  { c := Stream.reset, d := Stream.reset, v := Stream.reset, x := Stream.reset, descs := [], sems := [], pbs := [], rings := [],
    spad := [], dirty := [], spadErr := [], vstat := 0, vctlLo := 0, vctlSeed := 0, cycle := 0, tcmp := 0, tepc := 0, tstat := 0,
    tscr0 := 0, tscr1 := 0, qdata := [], qvec := [], qmat := [], qgrp := [], issued := 0, rank := RankUnit.idle, lease := .none,
    leaseAt := 0, arr := ArrayState.fresh, slots := [], groups := [], flows := [], job := none, ctx := 0, jobRank := 0,
    stuckSince := none, merge := none }

/-- The core of a job that holds a tenure: the job and the core's rank (R268). -/
structure Holder where
  job : Nat
  rank : Nat
  deriving DecidableEq, Repr, Inhabited

/-- The states of a tile (R268). -/
inductive TileState where
  | none | read | write | sealed
  deriving DecidableEq, Repr, Inhabited

/-- A tile: its box, its state and its holders (R266, R268, R271). COUNT is the number of readers. -/
structure Tile where
  base : Nat
  elem : Nat
  exts : List Nat
  strides : List Int
  state : TileState
  readers : List Holder
  writer : Option Holder
  deriving DecidableEq, Repr, Inhabited

/-- A waiting tenure request (R272). -/
structure TenureReq where
  id : Nat
  core : Nat
  stream : StreamName
  holder : Holder
  handle : Nat
  write : Bool
  deriving DecidableEq, Repr, Inhabited

/-- The states of a context (R355). -/
inductive CtxState where
  | free | idle | running | halted | saved
  deriving DecidableEq, Repr, Inhabited

/-- A translation held by a TLB: the leaf entry, where it stood and whether at level 1 (R405). -/
structure TlbEntry where
  leaf : Nat
  place : Nat
  large : Bool
  /-- The frames of the tables through which the walk has gone. -/
  tables : List Nat
  deriving DecidableEq, Repr, Inhabited

/-- A context (R353, R355, R371 to R373, R264, R405, R69). -/
structure Context where
  state : CtxState
  vd : Nat
  world : Nat
  table : Nat
  marks : List (List Byte)
  hall : List Word
  policy : Word
  waitctl : Word
  tvec : Word
  tvlen : Word
  tdel0 : Word
  tdel1 : Word
  savebase : Word
  saven : Word
  gens : Tab Nat
  tiles : Tab (Option Tile)
  requests : List TenureReq
  nextReq : Nat
  haltPending : Bool
  job : Option Nat
  tlb : Tab (Option TlbEntry)
  icache : Tab (Option Word32)
  deriving DecidableEq, Repr, Inhabited

/-- A context slot that holds no context; WAITCTL reads 30 and the other CSRs 0 (R319, R373). -/
def Context.reset : Context :=
  { state := .free, vd := 0, world := 0, table := 0, marks := [], hall := [0, 0, 0, 0], policy := 0, waitctl := 30, tvec := 0, tvlen := 0,
    tdel0 := 0, tdel1 := 0, savebase := 0, saven := 0, gens := [], tiles := [], requests := [], nextReq := 0, haltPending := false,
    job := none, tlb := [], icache := [] }

/-- The loop-table kinds (R124). -/
inductive LevelKind where
  | temporal | cores | dies
  deriving DecidableEq, Repr, Inhabited

/-- What of a kernel object has been read for good: nothing, its header with the loop table, or its plan too (R128). -/
inductive KernelRead where
  | nothing | header | all
  deriving DecidableEq, Repr, Inhabited

/-- What the dispatcher keeps of a kernel object's header, loop table and plan (R123 to R125, R128). -/
structure Kernel where
  /-- What has been read, once. -/
  got : KernelRead
  array : Bool
  fabric : Bool
  codeOff : List Nat
  codeLen : List Nat
  levels : List (LevelKind × Nat)
  descOff : Nat
  descN : Nat
  dataOff : Nat
  dataLen : Nat
  dataSpad : Nat
  /-- The plan's place in the object and its count of entries (R124). -/
  planAt : Nat
  planN : Nat
  plan : List (Nat × Nat)
  deriving DecidableEq, Repr, Inhabited

/-- A launch record (R340). -/
structure LaunchRec where
  kobj : Nat
  args : Word
  exts : List Nat
  vdn : Nat
  prio : Nat
  perm : Nat
  est : Nat
  csem : Nat
  user : Nat
  /-- Every reserved byte and bit is zero. -/
  clean : Bool
  deriving DecidableEq, Repr, Inhabited

/-- The states of a job (R134), with the record that waits for absent pages of its object (R128) and the record that has been refused (R341). -/
inductive JobState where
  | reading | queued | running | saved | retired | killed | refused
  deriving DecidableEq, Repr, Inhabited

/-- A job: one launch of a kernel (R128 to R136, R340 to R344, R362). -/
structure Job where
  state : JobState
  vd : Nat
  queue : Nat
  index : Nat
  rgen : Nat
  arrival : Nat
  rcd : LaunchRec
  kern : Kernel
  /-- The context that runs it, once placed (R342). -/
  ctx : Nat
  /-- Cores by rank while it is RUNNING (R131, R132). -/
  cores : List Nat
  /-- Cycles resident and not halted: E of R362. -/
  resident : Nat
  /-- Resident cycles at which its slice began (R386). -/
  sliceAt : Nat
  /-- Resident cycles at which a DRAIN was chosen (R362). -/
  drainAt : Option Nat
  /-- The saved cores by rank (R363 to R366). -/
  image : List Core
  /-- The vault save blocks that hold lent vaults of the saved job (R363). -/
  lent : Nat
  /-- The cycle of its last checkpoint and the cores that it then held (R448). -/
  savedAt : Option (Nat × List Nat)
  /-- The end of the job waits for the completion word's increment, with the cause that ended it (R135). -/
  ending : Option Nat
  /-- The context through which the word is reached, when the queue's registers have been reset meanwhile (R342, R348). -/
  via : Option Nat
  /-- The pages, by context, whose requests the record, the placement or the completion word waits for (R128, R135). -/
  asked : List (Nat × Nat)
  deriving DecidableEq, Repr, Inhabited

/-- A queue's registers and state block (R336 to R339). -/
structure Queue where
  qbase : Word
  qctl : Word
  tail : Nat
  prog : Nat
  done : Nat
  qsts : Word
  savedProg : Nat
  savedDone : Nat
  resident : Bool
  /-- PROG and DONE read the values saved at switch-out: STALE of R337. -/
  stale : Bool
  deriving DecidableEq, Repr, Inhabited

/-- A queue at reset: QLOG is 4 (R337). -/
def Queue.reset : Queue := ⟨0, 4, 0, 0, 0, 0, 0, 0, false, false⟩

/-- An event that is not yet written (R346, R347). -/
structure HeldEvent where
  user : Nat
  seq : Nat
  queue : Nat
  status : Nat
  cause : Nat
  rgen : Nat
  deriving DecidableEq, Repr, Inhabited

/-- The TDISP states of a virtual function (R429). -/
inductive Tdisp where
  | unlocked | locked | run | error
  deriving DecidableEq, Repr, Inhabited

/-- A range of the interface report: its BAR, its first 4 KiB page, its pages, whether it is TEE, and whether it is reserved; where the MSI-X table
stands in it, its page, and the offset of the PBA in that page (R431). -/
structure MmioRange where
  bar : Nat
  page : Nat
  pages : Nat
  tee : Bool
  reserved : Bool
  msix : Option (Nat × Nat)
  deriving DecidableEq, Repr, Inhabited

/-- The interface report fixed at lock (R431). -/
structure Report where
  /-- Interface information: no firmware update while locked, DMA without PASID only, no ATS. -/
  noUpdate : Bool
  noPasid : Bool
  noAts : Bool
  ranges : List MmioRange
  vd : Nat
  part : Nat
  digests : List (Nat × List Word)
  stream : Nat
  deriving DecidableEq, Repr, Inhabited

/-- An MSI-X table entry and its pending bit (R426). -/
structure MsixEntry where
  addr : Word
  data : BitVec 32
  masked : Bool
  pending : Bool
  deriving DecidableEq, Repr, Inhabited

/-- A virtual device and its function's registers (R337, R345, R367, R385, R410, R426, R427, R429). -/
structure VDev where
  /-- The 2,048 bits of the VD record in force (R385), and as it was last written (R386). -/
  rcd : Nat
  rcdNew : Nat
  queues : Tab Queue
  scheduled : Bool
  evbase : Word
  evctl : Word
  evhead : Nat
  evtail : Nat
  rgen : Nat
  held : List HeldEvent
  /-- A program has advanced EVHEAD, and the held events that follow are still to be written (R347, R402). -/
  advanced : Bool
  dbgctl : Word
  dbgsel : Word
  dbgreg : Word
  dbgx : Word
  dbgsts : Word
  winctl : Word
  winbase : Word
  msix0 : MsixEntry
  msix1 : MsixEntry
  /-- MSI-X Enable and Function Mask; Memory Space Enable and Bus Master Enable (R429). -/
  msixOn : Bool
  msixMask : Bool
  memOn : Bool
  busOn : Bool
  tdisp : Tdisp
  ide : Option Nat
  report : Option Report
  hbmPool : List Nat
  cxlPool : List Nat
  paused : Bool
  /-- The queues have stopped as the function moved from RUN to ERROR (R429). -/
  stopped : Bool
  /-- The cycle at which a function-level reset began, and whether a TDISP stop asked for it, until it is complete (R397, R398). -/
  resetting : Option (Nat × Bool)
  deriving DecidableEq, Repr, Inhabited

def MsixEntry.reset : MsixEntry := ⟨0, 0, false, false⟩

/-- A virtual device at reset: EVLOG 4, MSK 1 (R345), DBGCTL.MSK 1 (R367); the MSI-X table reads 0 (log 5). -/
def VDev.reset : VDev :=
  { rcd := 0, rcdNew := 0, queues := [], scheduled := false, evbase := 0, evctl := 0x24, evhead := 0, evtail := 0, rgen := 0, held := [], advanced := false, dbgctl := 4,
    dbgsel := 0, dbgreg := 0, dbgx := 0, dbgsts := 0, winctl := 0, winbase := 0, msix0 := MsixEntry.reset, msix1 := MsixEntry.reset,
    msixOn := false, msixMask := false, memOn := false, busOn := false, tdisp := .unlocked, ide := none, report := none, hbmPool := [], cxlPool := [], paused := false, stopped := false,
    resetting := none }

/-- The status word of a purse (R389). -/
structure Purse where
  bal : Int
  bor : Nat
  idle : Bool
  short : Bool
  deriving DecidableEq, Repr, Inhabited

def Purse.reset : Purse := ⟨0, 0, true, false⟩

/-- A margin unit's state (R393), with the partition that borrows it and the one that lends it. -/
inductive Margin where
  | home | lent (to_ of_ : Nat) | returning | fenced
  deriving DecidableEq, Repr, Inhabited

/-- The array of a cluster (R229): the core that holds it and the lane granted last. -/
structure ClusterArray where
  holder : Option Nat
  last : Nat
  deriving DecidableEq, Repr, Inhabited

/-- The entry of the page ownership table (R407). -/
structure PotEntry where
  owner : Nat
  state : Nat
  deriving DecidableEq, Repr, Inhabited

/-- A dirty L2 line: the world of its frame, the context that wrote it last, and the way that holds it, by its unit number (R386, R409, R419). -/
structure LineTag where
  world : Nat
  ctx : Nat
  way : Nat
  deriving DecidableEq, Repr, Inhabited

/-- A page held in a context's adapter cache (R250, R254). -/
structure CachedPage where
  ctx : Nat
  die : Nat
  adapter : Nat
  version : Nat
  page : Nat
  /-- The vault address at which the copy stands. -/
  place : Nat
  deriving DecidableEq, Repr, Inhabited

/-- A page pinned in the pin pool of a die (R254). -/
structure PinnedPage where
  die : Nat
  adapter : Nat
  version : Nat
  page : Nat
  place : Nat
  deriving DecidableEq, Repr, Inhabited

/-- A page request that the firmware serves (R410). -/
structure PageRequest where
  ctx : Nat
  page : Nat
  leaf : Nat
  /-- The frame that the service has taken for it, with its tier; `none` when the pools held none, and the host driver is then not asked. -/
  frame : Option (Nat × Nat)
  /-- The virtual device whose pools serve it, and POLICY.CONF of the context. -/
  vd : Nat
  conf : Bool
  deriving DecidableEq, Repr, Inhabited

/-- A migration in progress (R411). -/
structure Migration where
  ctx : Nat
  page : Nat
  leafAt : Nat
  /-- The entry as step 1 has written it. -/
  leaf : Nat
  old : Nat
  /-- The new frame, or `none` for an eviction. -/
  frame : Option Nat
  since : Nat
  /-- The virtual device to whose pool the old frame goes, and POLICY.CONF of the context. -/
  vd : Nat
  conf : Bool
  deriving DecidableEq, Repr, Inhabited

/-- A member that has executed GJOIN (R322, R325). -/
structure JoinRec where
  key : Nat
  rank : Nat
  size : Nat
  hall : List Word
  members : List Nat
  /-- The core and slot on this package; `none` for a member elsewhere. -/
  place : Option (Nat × Nat)
  deriving DecidableEq, Repr, Inhabited

/-- A part that has arrived: its type, address, argument and payload (R433). -/
structure RxPart where
  seq : Nat
  type : Nat
  va : Nat
  arg : Nat
  payload : List Byte
  deriving DecidableEq, Repr, Inhabited

/-- What the package keeps of a peer's flow (R302, R436): whether its peer has opened it, its mode, the next sequence number, the parts held behind a
gap. -/
structure RxFlow where
  opened : Bool
  next : Nat
  ordered : Bool
  held : List RxPart
  /-- The peer's job here was killed or its function reset: later parts are refused finally until the flow is opened anew (R437). -/
  dead : Bool
  deriving DecidableEq, Repr, Inhabited

/-- A step that is held while its context is halted (R369), or until its access is eligible (R391): a part that arrives, a notice of an abandoned row, or
a response to a part of a core; and a write of the UX9 to the save region that a migration holds (R412): its bytes, and the job that a failure of it
kills, with the cause (R359). -/
inductive HeldStep where
  | frame (kill : Option (Nat × Nat)) (va n : Nat) (img : Memory)
  | arrive (pkg ctx flow : Nat) (p : RxPart)
  | missing (pkg ctx flow header slot : Nat)
  | performed (core part : Nat) (payload : List Byte)
  | refused (core part hint : Nat)
  deriving DecidableEq, Repr, Inhabited

/-- A row whose parts are landing (R438): its flow, the sequence number of its first part, where it lands, and what its last part writes. -/
structure RxRow where
  flow : Nat
  first : Nat
  va : Nat
  slot : Nat
  cap : Nat
  statva : Nat
  status : Nat
  left : Nat
  deriving DecidableEq, Repr, Inhabited

/-- A message that the package sends out. -/
inductive Message where
  /-- An MSI-X message (R347, R367). -/
  | msix (vd vector : Nat) (addr : Word) (data : BitVec 32)
  /-- An error record to the host driver (R419, R420, R432, R448). -/
  | error (cause world ctx addr : Nat)
  /-- The answer of the physical function: 0 REFUSED, 1 DONE, 2 a value, 3 the system debug agent's status (R249, R355, R369, R389). -/
  | answer (what value : Nat)
  /-- Bytes read for a requester. -/
  | data (bytes : List Byte)
  /-- A read or request that completes as Unsupported Request (1) or Completer Abort (2). -/
  | completion (kind : Nat)
  /-- A fabric part: destination and source package, source context, flow, sequence number, type, address, argument and payload (R433; log 28). -/
  | part (pkg source ctx flow seq type va arg : Nat) (payload : List Byte)
  /-- A frame of a core's flow that closes: its batch header's address, and its index vector of 120 slots (R439). Its rows follow as parts. -/
  | frame (pkg ctx rank flow hdr : Nat) (index : List Nat)
  /-- A control message of a core's flow: 0 opened, 1 closed, 2 reset, 3 row abandoned, 4 in error (R435, R438). -/
  | flow (pkg ctx rank flow what arg : Nat)
  /-- A response to a part of a core's flow, of type 2, 4 or 5: performed (0), refused with a hint, refused finally (65,536), with the bytes returned
  (R433). -/
  | response (pkg ctx rank flow seq type status : Nat) (payload : List Byte)
  /-- A notice to the members of a group elsewhere: 1 an abort with its reason, 2 a join withdrawn, 3 a join refused with its reason (R325, R326). -/
  | group (pkg key rank what arg : Nat)
  /-- The join of a member of this package, with its record (R325). -/
  | join (pkg : Nat) (j : JoinRec)
  /-- A contribution sent to the members (R330). -/
  | contribute (c : Contribution)
  /-- A page request to the host driver: the tag (R410). -/
  | pageRequest (vd tag : Nat)
  /-- A page's contents to the host driver under a tag (R411). -/
  | pageOut (vd tag : Nat) (bytes : List Byte)
  /-- A TDISP response; the report of R431 when there is one. -/
  | tdisp (vd code : Nat) (report : Option Report)
  /-- A SPDM response: the measurement records and their digest, the identity certificate, and both signatures of the evidence (R371, R453). -/
  | spdm (records : List (List Byte)) (digest : List Word) (certificate ed25519 mlDsa : List Byte)
  /-- A die's health register, and the eye margins and corrected errors that are reported with it (R449, R450). -/
  | health (die value : Nat) (margins : Tab Nat)
  deriving DecidableEq, Repr, Inhabited

/-- The first touch of a PRIVATE page: the address of the entry that maps it, and the die (R406). -/
structure Touched where
  place : Nat
  die : Nat
  deriving DecidableEq, Repr, Inhabited

/-- The whole package. -/
structure State where
  turn : Turn
  /-- Requests of the host that a migration holds, and writes to BAR 0 and window accesses of the same function behind them, in the order in which they
  have come (R412, R427). -/
  hostHeld : List Turn
  pin : Option Turn
  tick : Nat
  now : Nat
  cur : StreamName
  words : List Word32
  /-- The instruction that the last turn took is held while its stream stays in RUN (R81, R412). -/
  held : Bool
  focus : Nat
  core : Core
  others : Tab Core
  outbox : List Message
  mem : Memory
  vaults : Memory
  vaultErr : Tab Bool
  lineErr : Tab Nat
  metaErr : Tab Nat
  l2 : Tab (Option LineTag)
  majors : Tab Nat
  minors : Tab Nat
  /-- The counter that the parent of a leaf or node, or the root, holds for it, and the leaves and nodes that the metadata caches hold changed
  (R416, R417): leaf or node `i` of level `k` has key k × 2^40 + i. -/
  treeCtrs : Tab Nat
  treeDirty : List Nat
  epoch : Nat
  /-- Where a PRIVATE page was first touched since it last became PRIVATE, by frame, and for a page of 512 MiB by 2^40 + frame / 8,192 (R406). -/
  touched : Tab (Option Touched)
  pot : Tab PotEntry
  earlier : Tab Nat
  keys : List Nat
  ctxs : Tab Context
  jobs : Tab (Option Job)
  nextJob : Nat
  att : Tab Nat
  cached : List CachedPage
  pinned : List PinnedPage
  pinPools : Tab (List Nat)
  vds : Tab VDev
  /-- The VF BAR 0 base of the SR-IOV capability (R429). -/
  barBase : Nat
  parts : Tab Nat
  /-- Partition records written while jobs of their partitions were resident (R384). -/
  partsNew : Tab (Option Nat)
  margins : Tab Margin
  purses : Tab Purse
  /-- The period of each arbiter's last refill (R390). -/
  refills : Tab Nat
  arrays : Tab ClusterArray
  /-- The fenced units: a cluster by its number, a vault from 1,024, an L2 way from 2,048 (16 to a die), a fabric port from 3,072, a CXL port
  from 3,584 (R396, R451). -/
  fenced : List Nat
  errTimes : Tab (List Nat)
  pageReqs : List PageRequest
  migs : List Migration
  joins : List JoinRec
  contribs : List Contribution
  pairings : List (Nat × Nat × Nat)
  rxFlows : Tab RxFlow
  rxRows : List RxRow
  /-- What reaches a halted context, in order of arrival: its context and the step (R369). -/
  holding : List (Nat × HeldStep)
  /-- The ports, as bits, by which a package is reached, less all 32: the routing tables (R433; log 101). -/
  routes : Tab Nat
  /-- The bytes that each CXL port's HDM decoder maps, of 1 TiB (R432; log 102). -/
  hdm : Tab Nat
  portsDown : List Nat
  cxlDown : List Nat
  peersDown : List Nat
  health : Tab Word
  /-- The dies that have tripped and still stand (R448). -/
  tripped : List Nat
  /-- The measurements below 2,250 W in the governor's run (R447). -/
  govRun : Nat
  /-- Eye margins in mV by lane (fabric 0 to 127, CXL 128 to 191, host 192 to 207), and corrected errors per hour of the HBM4E stacks from 208
  (R450). -/
  margin : Tab Nat
  /-- The frequency of each ageing monitor at first boot, monitor `m` of die `d` at 64 d + m, and the measurements of each die over the last 1,000 hours,
  oldest first: the cycle and the 64 shifts (R450). -/
  firstBoot : Tab Nat
  ageing : Tab (List (Nat × List Nat))
  /-- The debug agent's window: its context selector, and DBGSEL, DBGREG and DBGX (R369). -/
  agentCtx : Nat
  agentSel : Word
  agentReg : Word
  agentX : Word
  /-- The last step of the bring-up that is complete (R453). -/
  phase : Nat
  /-- This package's number among the fabric's packages (R323, R433). -/
  package : Nat
  /-- The image in the flash (R452), and the version and hash of the one that runs, as step 3 recorded them. -/
  flash : FwImage
  fwVersion : Nat
  fwHash : List Byte
  fwFused : Nat
  /-- The fused seed of the device identity, and whether the key pair has been derived from it (R453). -/
  idSeed : Nat
  identity : Bool
  deriving DecidableEq, Repr, Inhabited

/-- A health register at reset (R449). -/
def healthReset : Word := 0xFFFFFFFF

/-- Reasons for which a step stops. The UX9 takes a trap, refuses or waits in every case the spec describes, so only one remains. -/
inductive Fault where
  /-- A core number, context slot or virtual device that the package does not have, named by an agent's step. Raised by no instruction of a
  program; safe. -/
  | noSuchUnit
  deriving DecidableEq, Repr, Inhabited

/-- Reasons for which an instruction has no meaning. -/
inductive Refusal where
  /-- The instruction's arm gives it no meaning yet, by its mnemonic; safe. -/
  | notModelled (mnemonic : String)
  deriving DecidableEq, Repr, Inhabited

/-- SHA-512 of no bytes: what step 3 of the bring-up records of an image without bytes (R453). -/
def emptyHash : List Byte :=
  natLe 64 0x3eda27f97a3238a5817a4147bd31b9632fec7e87d21883ffb0f2855d3cd1d047cee96cd321a9f483dc15570b05e420d607806dd6502854f1bdb8ef7e35e183cf

/-- The package after reset and bring-up (R425, R453): every context FREE, every core without a job, nothing in memory. The first turn and
every register without a reset value of the spec are named in logs 1 to 6. -/
def State.reset : State :=
  { turn := .stream 0 .c, hostHeld := [], pin := none, tick := 0, now := 0, cur := .c, words := [], held := false, focus := 0, core := Core.reset, others := [],
    outbox := [], mem := [], vaults := [], vaultErr := [], lineErr := [], metaErr := [], l2 := [], majors := [], minors := [], treeCtrs := [],
    treeDirty := [], epoch := 0, touched := [],
    pot := [], earlier := [], keys := [], ctxs := [], jobs := [], nextJob := 0, att := [], cached := [], pinned := [], pinPools := [],
    vds := [], barBase := 0, parts := [], partsNew := [], margins := [], purses := [], refills := [], arrays := [], fenced := [], errTimes := [], pageReqs := [], migs := [],
    joins := [], contribs := [], pairings := [], rxFlows := [], rxRows := [], holding := [], routes := [], hdm := [], portsDown := [], cxlDown := [], peersDown := [],
    health := [], tripped := [], govRun := 0, margin := [], firstBoot := [], ageing := [], agentCtx := 0, agentSel := 0, agentReg := 0, agentX := 0,
    phase := 7, package := 0, flash := ⟨0, [], [], []⟩, fwVersion := 0, fwHash := emptyHash, fwFused := 0, idSeed := 0, identity := true }

end Sys2Proof.Machine
end

