-- ==== Sys2Proof/Machine/Access.lean ====
section
/-! DEFINITION. The named accessors of the state: cores, streams, registers, contexts, jobs, virtual devices, physical bytes, scratchpads and
vaults (R8 to R11, R17, R125, R141 to R143). -/

namespace Sys2Proof.Machine

/-- A leaf found by a walk: the entry, the address it stands at, and whether it stands at level 1 (R404). -/
structure Leaf where
  entry : Nat
  place : Nat
  large : Bool
  deriving DecidableEq, Repr

/-- An effect that stands although the instruction faults: of a hardware error, a page reclassification of an address through a leaf, or ERR of a
ring (R163, R277, R409, R419, R420). -/
inductive HwEffect where
  | poison (line : Nat)
  | quarantine (block : Nat)
  | reclass (l : Leaf) (va : Nat)
  | flush (line : Nat)
  | ringErr (n : Nat)
  deriving DecidableEq, Repr

/-- A fault of an instruction (R356, R357): cause, engine status word, progress, faulting address, the engine it stands in. -/
structure TrapInfo where
  cause : Cause
  esw : Nat := 0
  progress : Nat := 0
  va : Nat := 0
  hw : List HwEffect := []
  deriving DecidableEq, Repr

/-- Why an instruction does not take effect now: it faults, it waits under R81, it waits past step 4 of R165 with what it has sampled, it is held
while its stream stays in RUN (R81, R412), or its request is not eligible at an arbiter, by kind, instance, virtual device and die (R391). -/
inductive Stop where
  | trap (t : TrapInfo)
  | wait (w : Wait)
  | claim (w : Wait) (r : Ready)
  | busy
  | short (kind inst vd die : Nat)
  deriving DecidableEq, Repr

/-- A computation that may stop. -/
abbrev Res (α : Type) := Except Stop α

/-- A fault with no more than its cause. -/
def fault {α : Type} (c : Cause) : Res α := .error (.trap { cause := c })
/-- A fault with the operand that failed in ESW[23:16] (R357). -/
def faultOp {α : Type} (c : Cause) (operand : Nat) : Res α := .error (.trap { cause := c, esw := operand * 2 ^ 16 })
/-- A fault at a virtual address. -/
def faultVa {α : Type} (c : Cause) (va : Nat) : Res α := .error (.trap { cause := c, va := va })
/-- A condition, or a fault. -/
def require (b : Bool) (c : Cause) : Res Unit := if b then .ok () else fault c

/-- The fault of a stop, with the operand that failed (R357). -/
def withOperand {α : Type} (operand : Nat) : Res α → Res α
  | .error (.trap t) => .error (.trap { t with esw := t.esw ||| operand * 2 ^ 16 })
  | r => r

/-! ### Streams and registers -/

/-- A stream of a core. -/
def streamOf (c : Core) : StreamName → Stream
  | .c => c.c
  | .d => c.d
  | .v => c.v
  | .x => c.x

/-- A core with one stream replaced. -/
def setStream (c : Core) (n : StreamName) (t : Stream) : Core :=
  match n with
  | .c => { c with c := t }
  | .d => { c with d := t }
  | .v => { c with v := t }
  | .x => { c with x := t }

/-- The number of a stream: C 0, D 1, V 2, X 3 (R123, R356). -/
def streamNum : StreamName → Nat
  | .c => 0 | .d => 1 | .v => 2 | .x => 3

def streamOfNum : Nat → StreamName
  | 0 => .c | 1 => .d | 2 => .v | _ => .x

/-- The executing stream. -/
def curStream (s : State) : Stream := streamOf s.core s.cur
/-- The state with the executing stream replaced. -/
def setCur (s : State) (t : Stream) : State := { s with core := setStream s.core s.cur t }

/-- A general register of a stream; register 0 reads as zero (R10). -/
def regOf (t : Stream) (i : Nat) : Word := if i = 0 then 0 else tabGet 0 t.regs i
/-- A stream with a general register written; register 0 discards the write (R10). -/
def setRegOf (t : Stream) (i : Nat) (v : Word) : Stream := if i = 0 then t else { t with regs := tabSet 0 t.regs i v }

/-- G(i) of R17: the executing stream's own file (R62). -/
def readReg (s : State) (i : Nat) : Word := regOf (curStream s) i
/-- SetG(i, v) of R17. -/
def writeReg (s : State) (i : Nat) (v : Word) : State := setCur s (setRegOf (curStream s) i v)
/-- SetG of a number, truncated to 64 bits. -/
def writeNat (s : State) (i v : Nat) : State := writeReg s i (BitVec.ofNat 64 v)

/-- The executing stream runs at level P (R354). -/
def levelP (s : State) : Bool := s.cur = .c && s.core.tstat.getLsbD 0

/-! ### Cores -/

/-- A core by its package number (R8). -/
def coreAt (s : State) (n : Nat) : Core := if n = s.focus then s.core else tabGet Core.reset s.others n
/-- The state with a core replaced. -/
def putCore (s : State) (n : Nat) (c : Core) : State :=
  if n = s.focus then { s with core := c } else { s with others := tabSet Core.reset s.others n c }
/-- The state seen from a core. -/
def focusOn (s : State) (n : Nat) : State :=
  if n = s.focus then s
  else { s with focus := n, core := tabGet Core.reset s.others n, others := tabSet Core.reset (tabErase s.others n) s.focus s.core }

/-- The cycles of a microsecond, at 1.75 GHz (R2). -/
def usCycles : Nat := 1750

/-- The cores of the package (R8). -/
def coreCount : Nat := 1536
/-- A die has tripped and issues nothing (R448). -/
def dieTripped (s : State) (d : Nat) : Bool := s.tripped.contains d
/-- The die of a core (R8). -/
def dieOf (core : Nat) : Nat := core / 384
/-- The cluster of a core, counted over the package: also the number of its array (R8, R12). -/
def clusterOf (core : Nat) : Nat := core / 8
/-- The lane of a core (R8). -/
def laneOf (core : Nat) : Nat := core % 8

/-! ### Contexts, jobs, virtual devices -/

def ctxAt (s : State) (k : Nat) : Context := tabGet Context.reset s.ctxs k
def setCtx (s : State) (k : Nat) (c : Context) : State := { s with ctxs := tabSet Context.reset s.ctxs k c }
/-- The executing context. -/
def curCtx (s : State) : Context := ctxAt s s.core.ctx
def setCurCtx (s : State) (c : Context) : State := setCtx s s.core.ctx c

def jobAt (s : State) (j : Nat) : Option Job := tabGet none s.jobs j
def setJob (s : State) (j : Nat) (x : Job) : State := { s with jobs := tabSet none s.jobs j (some x) }
/-- The executing job. -/
def curJob (s : State) : Option Job := s.core.job.bind (jobAt s)

def vdAt (s : State) (v : Nat) : VDev := tabGet VDev.reset s.vds v
def setVd (s : State) (v : Nat) (d : VDev) : State := { s with vds := tabSet VDev.reset s.vds v d }

/-- A function-level reset of a virtual device's function is under way (R397). -/
def inReset (s : State) (v : Nat) : Bool := (vdAt s v).resetting.isSome

/-- A field of a VD record (R385). -/
def vdField (s : State) (v lo w : Nat) : Nat := bitField (vdAt s v).rcd lo w
/-- The partition of a virtual device (R385). -/
def vdPart (s : State) (v : Nat) : Nat := vdField s v 0 6
/-- The home die of a virtual device: that of its partition (R383, R387). -/
def vdHome (s : State) (v : Nat) : Nat := vdPart s v / 16
/-- SVALd (R385). -/
def vdSpan (s : State) (v d : Nat) : Bool := vdField s v (1030 + 128 * d) 1 = 1
/-- The virtual device may use a die (R387). -/
def vdUsesDie (s : State) (v d : Nat) : Bool := d = vdHome s v || vdSpan s v d
/-- The partition through which the virtual device uses a die (R387). -/
def vdPartOn (s : State) (v d : Nat) : Nat := if d = vdHome s v then vdPart s v else vdField s v (1024 + 128 * d) 6
/-- The core limit on a die (R387). -/
def vdCoreLimit (s : State) (v d : Nat) : Nat :=
  if d = vdHome s v then vdField s v 22 9 else if vdSpan s v d then vdField s v (1031 + 128 * d) 9 else 0
/-- A field of a partition record (R383). -/
def partField (s : State) (p lo w : Nat) : Nat := bitField (tabGet 0 s.parts p) lo w
/-- TUNE of the partition of a virtual device (R383). -/
def vdTune (s : State) (v : Nat) : Bool := partField s (vdPart s v) 225 1 = 1

/-- A purse configuration word of a virtual device (R385, R389): kinds 0 issue, 1 array, 2 L2, 3 HBM, 4 CXL, 5 fabric. -/
def pcfg (s : State) (v kind : Nat) : Nat := vdField s v (512 + 64 * kind) 64
def purseFill (p : Nat) : Nat := bitField p 0 16
def purseDepth (p : Nat) : Nat := bitField p 16 16
def purseLend (p : Nat) : Bool := bitAt p 32
def purseBorrow (p : Nat) : Bool := bitAt p 33
/-- The place of a purse's status: kind, arbiter instance, virtual device. -/
def purseKey (kind inst vd : Nat) : Nat := (kind * 2048 + inst) * 512 + vd
def purseAt (s : State) (kind inst vd : Nat) : Purse := tabGet Purse.reset s.purses (purseKey kind inst vd)
def setPurse (s : State) (kind inst vd : Nat) (p : Purse) : State :=
  { s with purses := tabSet Purse.reset s.purses (purseKey kind inst vd) p }

/-! ### Scratchpads -/

/-- The bytes of a scratchpad (R11). -/
def spadSize : Nat := 524288

/-- A block of 4 KiB is planned by the job (R125); a core without a job has no plan. -/
def blockPlanned (k : Option Job) (b : Nat) : Bool :=
  match k with
  | none => true
  | some j => j.kern.plan.isEmpty || j.kern.plan.any (fun p => p.1 ≤ b * 4096 && b * 4096 < p.1 + p.2)

/-- `n` bytes at a scratchpad offset exist and are planned (R17, R125). -/
def spadOk (s : State) (off n : Nat) : Bool :=
  off + n ≤ spadSize && (upFrom (off / 4096) ((off + n + 4095) / 4096 - off / 4096)).all (blockPlanned (curJob s))

/-- No uncorrectable error stands in the lines of the bytes (R418). -/
def spadSound (s : State) (off n : Nat) : Bool :=
  (upFrom (off / 64) ((off + n + 63) / 64 - off / 64)).all (fun l => !tabGet false s.core.spadErr l)

/-- A number added to a sorted list without repeats. -/
def setAdd (n : Nat) : List Nat → List Nat
  | [] => [n]
  | k :: t => if n = k then k :: t else if n < k then n :: k :: t else k :: setAdd n t

/-- The executing core's scratchpad bytes. -/
def spadBytes (s : State) (off n : Nat) : List Byte := tabRange 0 s.core.spad off n

/-- SpadLoad of R17. -/
def spadLoad (s : State) (off n : Nat) : Res (List Byte) :=
  if !spadOk s off n then fault .spadRange
  else if !spadSound s off n then fault .sramUncorrected
  else .ok (spadBytes s off n)

/-- A core's scratchpad with bytes written and their blocks marked dirty (R126). No byte written marks no block. -/
def putSpad (c : Core) (off : Nat) (bs : List Byte) : Core :=
  if bs.isEmpty then c else
  { c with spad := tabSetRange 0 c.spad off bs,
           dirty := (upFrom (off / 4096) ((off + bs.length + 4095) / 4096 - off / 4096)).foldl (fun l b => setAdd b l) c.dirty }

/-- SpadStore of R17. -/
def spadStore (s : State) (off : Nat) (bs : List Byte) : Res State :=
  if spadOk s off bs.length then .ok { s with core := putSpad s.core off bs } else fault .spadRange

/-! ### Vaults -/

/-- A vault stands above a lent cluster on which a job of the context runs (R8, R393). -/
def vaultLent (s : State) (ctx vault : Nat) : Bool :=
  (match tabGet .home s.margins (vault / 2) with | .lent .. => true | _ => false) &&
  (upFrom (vault / 2 * 8) 8).any fun c => (coreAt s c).job.isSome && (coreAt s c).ctx = ctx

/-- A vault is in the vault share of a context (R143, R387, R393). -/
def vaultShared (s : State) (ctx vault : Nat) : Bool :=
  let v := (ctxAt s ctx).vd
  let d := vault / 96
  let i := vault % 96
  decide (vault < 384) && !s.fenced.contains (1024 + vault) && (vaultLent s ctx vault || if d = vdHome s v then bitAt (vdField s v 64 96) i
    else vdSpan s v d && bitAt (vdField s v (1040 + 128 * d) 96) i)

/-- Bytes of a vault address meet a staging area of the context (R324). -/
def inStaging (s : State) (ctx addr n : Nat) : Bool :=
  let hit (c : Core) := c.ctx = ctx && c.groups.any (fun g => g.2.state ≠ 0 && g.2.staging < addr + n && addr < g.2.staging + g.2.stageB)
  hit s.core || s.others.any (fun p => hit p.2)

/-- `n` bytes of a vault address are reached by the executing context (R143, R324). -/
def vaultOk (s : State) (addr n : Nat) : Bool :=
  let off := addr % 4194304
  off + n ≤ 4194304 && vaultShared s s.core.ctx (addr / 4194304) && !inStaging s s.core.ctx addr n

def vaultSound (s : State) (addr n : Nat) : Bool :=
  (upFrom (addr / 64) ((addr + n + 63) / 64 - addr / 64)).all (fun l => !tabGet false s.vaultErr l)

/-- VaultLoad of R17, by the 31-bit vault address of R143. -/
def vaultLoad (s : State) (addr n : Nat) : Res (List Byte) :=
  if !vaultOk s addr n then fault .vaultRange
  else if !vaultSound s addr n then fault .sramUncorrected
  else .ok (tabRange 0 s.vaults addr n)

/-- VaultStore of R17. -/
def vaultStore (s : State) (addr : Nat) (bs : List Byte) : Res State :=
  if vaultOk s addr bs.length then .ok { s with vaults := tabSetRange 0 s.vaults addr bs } else fault .vaultRange

/-! ### Physical memory -/

/-- Bytes of physical memory (R401). -/
def physBytes (s : State) (pa n : Nat) : List Byte := tabRange 0 s.mem pa n

/-- The bytes of a list of addresses hold HBM or CXL memory (R401). -/
def paTier (pa : Nat) : Option Nat :=
  if pa < 0x8000000000 then some 0 else if 0x1000000000000 ≤ pa ∧ pa < 0x1040000000000 then some 1 else none

/-- The CXL port of a physical address (R401). -/
def cxlPort (pa : Nat) : Nat := bitField pa 40 2

/-- A frame of a CXL port's range stands within what the port's HDM decoder maps; every other frame is there (R401, R432; log 102). -/
def frameMapped (s : State) (frame : Nat) : Bool :=
  let pa := frame * 65536
  decide (paTier pa ≠ some 1) || decide (pa % 2 ^ 40 + 65536 ≤ tabGet (2 ^ 40) s.hdm (cxlPort pa))

/-! ### L2 ways (R386, R387, R393) -/

/-- The key under which the die that first touched a page is kept (R406). -/
def touchKey (large : Bool) (frame : Nat) : Nat := if large then 2 ^ 40 + frame / 8192 else frame

/-- The die in whose L2 a line stands: the die that first touched its PRIVATE page, or its home slice's (R406; log 94). -/
def lineDie (s : State) (line : Nat) : Nat :=
  let first (large : Bool) := tabGet none s.touched (touchKey large (line / 512))
  match first false, first true with
  | some t, _ => t.die
  | none, some t => t.die
  | none, none => Config.homeDie line % 4

/-- WAYS, or SWAYSd, of a virtual device on a die (R385, R387). -/
def vdWays (s : State) (v d : Nat) : Nat :=
  if d = vdHome s v then vdField s v 32 16 else if vdSpan s v d then vdField s v (1136 + 128 * d) 16 else 0

/-- A margin unit is lent to a partition (R393). -/
def lentTo (s : State) (unit part : Nat) : Bool := match tabGet .home s.margins unit with | .lent q _ => q = part | _ => false

/-- The ways of a die, by unit number, into which a line of a virtual device may be filled: those of its record, and margin ways lent to its
partition (R386). A fenced way serves no one (R396). -/
def fillWays (s : State) (v d : Nat) : List Nat :=
  (upFrom (2048 + 16 * d) 16).filter fun u =>
    !s.fenced.contains u && (bitAt (vdWays s v d) (u % 16) || (vdUsesDie s v d && lentTo s u (vdPartOn s v d)))

/-- The way that a written line of a context stands in: its own, or one that it is filled into; `none` when no way may hold it. -/
def wayFor (s : State) (ctx line : Nat) : Option Nat :=
  match tabGet none s.l2 line with
  | some t => some t.way
  | none =>
    let ws := fillWays s (ctxAt s ctx).vd (lineDie s line)
    if ws.isEmpty then none else some (ws.getD (Config.fillWay s.tick line % ws.length) 0)

/-! ### Counters of lines, leaves and nodes (R416, R417) -/

/-- The counters of memory: minors by line, majors by block, and the leaves that the metadata caches hold changed. -/
structure Counters where
  minors : Tab Nat
  majors : Tab Nat
  dirty : List Nat

/-- A line is written to memory: its minor counter advances, and at 127 the block's major counter does and every minor one returns to 0 (R417). -/
def Counters.written (c : Counters) (line : Nat) : Counters :=
  let block := line / 128
  let minor := tabGet 0 c.minors line
  let dirty := setAdd block c.dirty
  if minor < 127 then ⟨tabSet 0 c.minors line (minor + 1), c.majors, dirty⟩
  else ⟨c.minors.filter (fun p => p.1 / 128 ≠ block), tabSet 0 c.majors block (tabGet 0 c.majors block + 1), dirty⟩

/-- The counters after some lines have been written to memory. -/
def countersAfter (s : State) (lines : List Nat) : Counters := lines.foldl Counters.written ⟨s.minors, s.majors, s.treeDirty⟩

/-- Some lines written to memory: their counters advance. -/
def stepLines (s : State) (lines : List Nat) : State :=
  let c := countersAfter s lines
  { s with minors := c.minors, majors := c.majors, treeDirty := c.dirty }

/-- The lines that a range of bytes meets. -/
def linesOf (pa n : Nat) : List Nat := upFrom (pa / 128) ((pa + n + 127) / 128 - pa / 128)

/-- What a write of `n` bytes does beside them: the lines it meets become dirty under the writer's tag, in a way that may hold them, and a line that no
way may hold is written to memory (R386, R409). A line written whole loses its error (R419). -/
def dirtyLines (s : State) (pa n : Nat) (tag : LineTag) : State :=
  let lines := linesOf pa n
  let c := countersAfter s (lines.filter fun l => (wayFor s tag.ctx l).isNone)
  { s with l2 := lines.foldl (fun t l => tabSet none t l ((wayFor s tag.ctx l).map fun w => { tag with way := w })) s.l2,
           lineErr := lines.foldl (fun t l => if pa ≤ l * 128 ∧ l * 128 + 128 ≤ pa + n then tabSet 0 t l 0 else t) s.lineErr,
           minors := c.minors, majors := c.majors, treeDirty := c.dirty }

/-- The pages that stay PRIVATE when `n` bytes at `pa` are written: a page whose entry is written as anything else is touched anew when it becomes
PRIVATE again (R403, R406). -/
def stillPrivate (t : Tab (Option Touched)) (mem : Memory) (pa n : Nat) : Tab (Option Touched) :=
  t.filter fun p => match p.2 with
    | none => false
    | some t => !(decide (t.place < pa + n) && decide (pa < t.place + 8)) || leNat (tabRange 0 mem t.place 8) % 16 = 3

/-- A range of physical memory written (R17). -/
def physWrite (s : State) (pa : Nat) (bs : List Byte) (tag : LineTag) : State :=
  let mem := tabSetRange 0 s.mem pa bs
  { dirtyLines s pa bs.length tag with mem := mem, touched := stillPrivate s.touched mem pa bs.length }

/-! ### Purses (R389, R391) -/

/-- The balance that a purse may spend: BAL + BOR (R391). -/
def purseFunds (p : Purse) : Int := p.bal + p.bor

/-- A charge taken at the grant, first from BOR and then from BAL; any request clears IDLE (R391). -/
def chargePurse (s : State) (kind inst vd n : Nat) : State :=
  let p := purseAt s kind inst vd
  let b := min p.bor n
  setPurse s kind inst vd { p with bor := p.bor - b, bal := p.bal - ((n - b : Nat) : Int), idle := false }

/-- A request that is not eligible waits and sets SHORT (R391). -/
def shortPurse (s : State) (kind inst vd : Nat) : State :=
  setPurse s kind inst vd { purseAt s kind inst vd with idle := false, short := true }

/-- An access that is not eligible at an arbiter waits there; it has asked the L2 of its die as well (R391). -/
def shortAccess (s : State) (kind inst vd die : Nat) : State :=
  shortPurse (setPurse s 2 die vd { purseAt s 2 die vd with idle := false }) kind inst vd

/-- A request of a virtual device is eligible at an arbiter (R391). -/
def funded (s : State) (kind inst vd : Nat) : Bool := decide (0 < purseFunds (purseAt s kind inst vd))

/-- The arbiter through which the data of a line moves: an HBM controller, two to a stack, or a CXL port, by kind and instance (R388). -/
def lineArbiter (line : Nat) : Nat × Nat :=
  let pa := line * 128
  if paTier pa = some 1 then (4, cxlPort pa) else (3, pa / 2 ^ 36 * 2 + Config.hbmHalf line % 2)

/-- Both controllers of a line's stack, or its port, have a positive purse. -/
def lineFunded (s : State) (vd line : Nat) : Bool :=
  let pa := line * 128
  if paTier pa = some 1 then funded s 4 (cxlPort pa) vd else funded s 3 (pa / 2 ^ 36 * 2) vd && funded s 3 (pa / 2 ^ 36 * 2 + 1) vd

/-- The data of a line moves between the L2 and memory, 64 bytes twice (R388). -/
def chargeLine (s : State) (vd line : Nat) : State := let a := lineArbiter line; chargePurse s a.1 a.2 vd 2

/-- An access of a virtual device from a die meets some lines: a request to the die's L2 for each, and for each line that no L2 holds its data
(R388, R391). -/
def requestLines (s : State) (vd die : Nat) : List Nat → Res State
  | [] => .ok s
  | l :: ls =>
    let a := lineArbiter l
    if !funded s 2 die vd then .error (.short 2 die vd die)
    else if (tabGet none s.l2 l).isSome then requestLines (chargePurse s 2 die vd 1) vd die ls
    else if !lineFunded s vd l && Config.l2Misses s.tick l && !funded s a.1 a.2 vd then .error (.short a.1 a.2 vd die)
    else
      let s := chargePurse s 2 die vd 1
      requestLines { s with purses := if Config.l2Misses s.tick l then (chargeLine s vd l).purses else s.purses } vd die ls

end Sys2Proof.Machine
end

