-- ==== Sys2Proof/Machine/Regs.lean ====
section
/-! DEFINITION. The registers of a virtual function's BAR 0 as they read (R337, R339, R345, R367, R402, R426, R427). -/

namespace Sys2Proof.Machine

/-- A queue of a virtual device (R337). -/
def queueAt (s : State) (v q : Nat) : Queue := tabGet Queue.reset (vdAt s v).queues q
/-- A virtual device's queue replaced. -/
def setQueue (s : State) (v q : Nat) (x : Queue) : State :=
  let d := vdAt s v
  setVd s v { d with queues := tabSet Queue.reset d.queues q x }

/-- QLOG of a queue (R337). -/
def qlog (q : Queue) : Nat := bitField q.qctl.toNat 0 5
/-- PROG as it reads: the live value, or the one saved at switch-out (R339). -/
def progSeen (q : Queue) : Nat := if q.stale then q.savedProg else q.prog
/-- DONE as it reads (R339). -/
def doneSeen (q : Queue) : Nat := if q.stale then q.savedDone else q.done
/-- QSTS as it reads, with RES (R337). -/
def qstsSeen (q : Queue) : Nat := setField q.qsts.toNat 3 1 (b2n q.resident)

/-- The 64-bit register at an offset of a queue's window (R337). -/
def queueReg (q : Queue) (off : Nat) : Nat :=
  match off with
  | 0x00 => q.qbase.toNat
  | 0x08 => q.qctl.toNat
  | 0x10 => q.tail
  | 0x18 => progSeen q + b2n q.stale * 2 ^ 32
  | 0x20 => doneSeen q
  | 0x28 => qstsSeen q
  | _ => 0

/-- The core of a rank of the job that a context runs. -/
def coreOfRank (s : State) (k rank : Nat) : Option Nat :=
  ((ctxAt s k).job.bind (jobAt s)).bind fun j => if j.state = .running then j.cores[rank]? else none

/-- A context accepts user debug: POLICY.UDBG where POLICY.CONF is 1, and always where it is 0 (R370, R373). -/
def userDebug (s : State) (k : Nat) : Bool := let p := (ctxAt s k).policy; !p.getLsbD 2 || p.getLsbD 0

/-- The context that a virtual function's debug window reaches: the one WINCTL.CTX names (log 20). -/
def dbgContext (s : State) (v : Nat) : Nat := bitField (vdAt s v).winctl.toNat 0 9

/-- PERMIT of the debug window: a context of the virtual device that accepts user debug (R367, R370). -/
def dbgPermits (s : State) (v : Nat) : Bool :=
  let k := dbgContext s v
  decide ((ctxAt s k).state ≠ .free ∧ (ctxAt s k).vd = v) && userDebug s k

/-- A stream that stays TRAPPED for the debugger (R359). -/
def trappedForDebug (t : Stream) : Bool := t.state = .trapped && t.record.debug

/-- The core and stream that the debug window addresses, when the stream is TRAPPED for the debugger (R367). -/
def dbgTarget (s : State) (v : Nat) : Option (Nat × StreamName) :=
  let sel := (vdAt s v).dbgsel.toNat
  let k := dbgContext s v
  let st := streamOfNum (bitField sel 32 2)
  if (ctxAt s k).state ≠ .free ∧ (ctxAt s k).vd = v then
    (coreOfRank s k (bitField sel 0 32)).bind fun c =>
      if trappedForDebug (streamOf (coreAt s c) st) then some (c, st) else none
  else none

/-- The streams of a context's job that are TRAPPED for the debugger: DBGSTS.WAITING (R367). -/
def dbgWaiting (s : State) (k : Nat) : Nat :=
  match (ctxAt s k).job.bind (jobAt s) with
  | none => 0
  | some j => if j.state ≠ .running then 0 else
    j.cores.foldl (fun n c => [StreamName.c, .d, .v, .x].foldl
      (fun m st => m + b2n (trappedForDebug (streamOf (coreAt s c) st))) n) 0

/-- The 64-bit register at an offset of the debug window (R367). -/
def dbgReg (s : State) (v off : Nat) : Nat :=
  let d := vdAt s v
  match off with
  | 0x00 => setField d.dbgctl.toNat 1 1 (b2n (dbgPermits s v))
  | 0x08 => d.dbgsel.toNat
  | 0x10 => match dbgTarget s v with
    | some (c, st) => (streamOf (coreAt s c) st).pc.toNat
    | none => 0
  | 0x18 => d.dbgreg.toNat
  | 0x20 => match dbgTarget s v with
    | some (c, st) => if st ≠ .c ∧ d.dbgreg.toNat > 15 then 0 else (regOf (streamOf (coreAt s c) st) d.dbgreg.toNat).toNat
    | none => 0
  | 0x28 => d.dbgx.toNat
  | 0x38 => setField d.dbgsts.toNat 0 16 (if (ctxAt s (dbgContext s v)).vd = v then dbgWaiting s (dbgContext s v) else 0)
  | _ => 0

/-- The TDISP state's number (R426). -/
def tdispNum : Tdisp → Nat
  | .unlocked => 0 | .locked => 1 | .run => 2 | .error => 3

/-- The first half of an MSI-X entry: its address; the second: data and mask (R426). -/
def msixReg (m : MsixEntry) (hi : Bool) : Nat := if hi then m.data.toNat + b2n m.masked * 2 ^ 32 else m.addr.toNat

/-- The 64-bit word of BAR 0 at an offset that is a multiple of 8 (R426). -/
def barWord (s : State) (v off : Nat) : Nat :=
  let d := vdAt s v
  if off = 0 then v
  else if off = 8 then tdispNum d.tdisp
  else if 0x1000 ≤ off ∧ off < 0x1200 then queueReg (queueAt s v ((off - 0x1000) / 0x40)) (off % 0x40)
  else if off = 0x1200 then d.evbase.toNat
  else if off = 0x1208 then d.evctl.toNat
  else if off = 0x1210 then d.evhead
  else if off = 0x1218 then d.evtail
  else if off = 0x1220 then d.rgen
  else if 0x1400 ≤ off ∧ off < 0x1440 then dbgReg s v (off - 0x1400)
  else if off = 0x1600 then d.winctl.toNat
  else if off = 0x1608 then d.winbase.toNat
  else if off = 0x2000 then msixReg d.msix0 false
  else if off = 0x2008 then msixReg d.msix0 true
  else if off = 0x2010 then msixReg d.msix1 false
  else if off = 0x2018 then msixReg d.msix1 true
  else if off = 0x2800 then b2n d.msix0.pending + 2 * b2n d.msix1.pending
  else 0

/-- A read of `n` bytes, 4 or 8, of a register view through a page of class DEVICE: the debug window reads 0 (R402). -/
def viewRead (s : State) (v off n : Nat) : Nat :=
  if 0x1400 ≤ off ∧ off < 0x1440 then 0 else bitField (barWord s v (off / 8 * 8)) (off % 8 * 8) (8 * n)

/-- EVHEAD written: a value that passes EVTAIL is not performed (R345). -/
def writeEvhead (s : State) (v value : Nat) : State :=
  let d := vdAt s v
  let adv := (value + 2 ^ 32 - d.evhead) % 2 ^ 32
  let room := (d.evtail + 2 ^ 32 - d.evhead) % 2 ^ 32
  if adv ≤ room then setVd s v { d with evhead := value % 2 ^ 32 } else s

/-- A write of a register view through a page of class DEVICE: only EVHEAD is written, as by the host, and held events follow before the step ends (R347,
R402). -/
def viewWrite (s : State) (v off n value : Nat) : State :=
  if off = 0x1210 ∨ (n = 8 ∧ off / 8 * 8 = 0x1210) then
    let s := writeEvhead s v (bitField value 0 32)
    setVd s v { vdAt s v with advanced := true }
  else s

end Sys2Proof.Machine
end

