-- ==== Sys2Proof/Machine/Translate.lean ====
section
/-! DEFINITION. Translation, the page ownership check, page classes, tenure on TILED pages and the errors that data may carry (R266, R283,
R400 to R409, R412, R415, R418 to R420). -/

namespace Sys2Proof.Machine

/-- What an access does (R404, R121). -/
inductive Access where
  | read | write | exec | atomic
  deriving DecidableEq, Repr

/-- The agent of an access: its context, whether it stands at level P, the core of a job whose tenures it uses, and its die. -/
structure Accessor where
  ctx : Nat
  level : Bool
  who : Option Holder
  die : Nat
  deriving DecidableEq, Repr


/-! ### Page-table entries (R403) -/

def pteLeaf (e : Nat) : Bool := bitAt e 1
def pteClass (e : Nat) : Nat := bitField e 2 2
def pteAbs (e : Nat) : Bool := bitAt e 8
def pteTier (e : Nat) : Nat := bitField e 9 1
def pteClk (e : Nat) : Bool := bitAt e 11
def pteMig (e : Nat) : Bool := bitAt e 12
def pteFrame (e : Nat) : Nat := bitField e 16 36
def pteWorld (e : Nat) : Nat := bitField e 52 8

/-- The TIER bit of the range that holds a physical address (R401). -/
def rangeTier (pa : Nat) : Option Nat :=
  if 0x8000000000000 ≤ pa ∧ pa < 0x8010000000000 then some 0 else paTier pa

/-- An entry is malformed at a level (R401, R403). -/
def pteBad (e lv : Nat) : Bool :=
  bitField e 13 3 ≠ 0 || bitField e 60 4 ≠ 0 ||
  (if pteLeaf e then
    lv = 0 || (pteClass e = 1 && bitAt e 5) || (!pteAbs e && rangeTier (pteFrame e * 65536) ≠ some (pteTier e))
  else lv = 2 || e ≠ 1 + pteFrame e * 65536)

/-! ### The page ownership table (R407, R408) -/

/-- The entry that bring-up writes: FREE, but for the metadata and security frames (R453; log 66). -/
def potFresh (frame : Nat) : PotEntry := ⟨0, if Config.secureFrame frame then 5 else 0⟩

def potAt (s : State) (frame : Nat) : PotEntry := tabGet (potFresh frame) s.pot frame
def setPot (s : State) (frame : Nat) (e : PotEntry) : State := { s with pot := tabSet (potFresh frame) s.pot frame e }

/-- The three answers of CheckPot for an access that is not refused: it passes, or it is held (R408, R412). `shared` says that the leaf
has class SHARED-RO; a table check has no leaf. -/
def checkPot (s : State) (pa w : Nat) (readOnly shared : Bool) (va : Nat) : Res Unit :=
  let e := potAt s (pa / 65536)
  if e.state = 1 then if e.owner = w then .ok () else faultVa .worldMismatch va
  else if e.state = 2 then
    if e.owner = 0 ∧ (w = 0 ∨ (readOnly ∧ shared)) then .ok () else faultVa .worldMismatch va
  else if e.state = 3 then if e.owner = w then .error .busy else faultVa .worldMismatch va
  else if e.state = 4 then faultVa .subtreeQuarantined va
  else faultVa .worldMismatch va

/-- The key of the world that owns a frame is installed (R415). The device window is not enciphered. -/
def keyPresent (s : State) (pa : Nat) : Bool := (paTier pa).isNone || s.keys.contains (potAt s (pa / 65536)).owner

/-! ### Lines and blocks (R409, R416 to R420) -/

/-- The tree above an address: one for each stack of 64 GiB, and one for each port's range (R401, R416; log 9). -/
def treeOf (pa : Nat) : Nat := if pa < 2 ^ 48 then pa / 2 ^ 36 else pa / 2 ^ 40

/-- An address lies under the node of a level that stands above a 16 KiB block, in the block's tree (R416). -/
def underNode (block level pa : Nat) : Bool := pa / (16384 * 16 ^ level) = block / 16 ^ level && treeOf pa = treeOf (block * 16384)

/-- The level of the leaf or node in error, from how the error is kept: twice the level, and 1 for a mismatch or 2 for an uncorrectable error. -/
def errorLevel (v : Nat) : Nat := (v - 1) / 2

/-- The error that stands in the metadata above the blocks of some bytes (R418). -/
def metaErrorAt (s : State) (pa n : Nat) : Option (Nat × Nat) :=
  s.metaErr.find? fun p => (upFrom (pa / 16384) ((pa + n + 16383) / 16384 - pa / 16384)).any fun b => underNode p.1 (errorLevel p.2) (b * 16384)

/-- The port of a physical address does not answer: its link is down, or its decoder does not map the address (R432; log 102). -/
def cxlLost (s : State) (pa : Nat) : Bool := paTier pa = some 1 && (s.cxlDown.contains (cxlPort pa) || !frameMapped s (pa / 65536))

/-- What any access to some bytes meets before their lines: a port that does not answer, or an error of a leaf or node above them (R418, R432). -/
def accessErrors (s : State) (pa n va : Nat) : Res Unit :=
  if cxlLost s pa then faultVa .poisonCxl va
  else match metaErrorAt s pa n with
  | some (b, v) => .error (.trap { cause := if v % 2 = 0 then .eccMeta else .treeFail, va := va, hw := [.quarantine b] })
  | none => .ok ()

/-- The errors that a read of bytes of physical memory meets (R418, R419, R432). -/
def readErrors (s : State) (pa n va : Nat) : Res Unit :=
  match paTier pa with
  | none => .ok ()
  | some tier =>
    let line := pa / 128
    match accessErrors s pa n va with
    | .error e => .error e
    | .ok () =>
      match s.lineErr.find? fun p => line ≤ p.1 && p.1 * 128 < pa + n with
      | none => .ok ()
      | some (l, e) =>
        if e = 1 then faultVa .eccData va
        else if e = 2 then faultVa .macFail va
        else if e = 4 then .error (.trap { cause := .l2Uncorrected, va := va, hw := [.poison l] })
        else faultVa (if tier = 0 then .poisonHbm else .poisonCxl) va

/-- The errors that a store meets: those above its lines, and a dirty line in error that it does not write whole (R418, R432). -/
def storeErrors (s : State) (pa n va : Nat) : Res Unit :=
  if (paTier pa).isNone then .ok ()
  else match accessErrors s pa n va with
  | .error e => .error e
  | .ok () =>
    match (linesOf pa n).find? fun l => tabGet 0 s.lineErr l = 4 && !(decide (pa ≤ l * 128) && decide (l * 128 + 128 ≤ pa + n)) with
    | some l => .error (.trap { cause := .l2Uncorrected, va := va, hw := [.poison l] })
    | none => .ok ()

/-- Two checks, the first before the second. -/
def inTurn (a b : Res Unit) : Res Unit := match a with | .ok () => b | .error e => .error e

/-- A line tagged with another world is not reached (R409). -/
def tagBars (s : State) (w : Nat) (reads : Bool) (line : Nat) : Bool :=
  match tabGet none s.l2 line with
  | none => false
  | some t => !(t.world = w || (reads && t.world = 0))

/-- The lines of some bytes may be reached by a world (R409): the first that may not is written back and invalidated. -/
def checkTag (s : State) (pa n w va : Nat) (reads : Bool) : Res Unit :=
  match (linesOf pa n).find? (tagBars s w reads) with
  | none => .ok ()
  | some l => .error (.trap { cause := .worldMismatch, va := va, hw := [.flush l] })

/-- An access is held on a page that migrates (R412). -/
def isBusy {α : Type} : Res α → Bool
  | .error .busy => true
  | _ => false

/-! ### The walk (R404) -/

/-- One level of the walk. -/
def walkLevel (s : State) (w va t : Nat) : Nat → Nat → Res Leaf
  | 0, _ => faultVa .noMapping va
  | fuel + 1, lv =>
    let at_ := t + 8 * bitField va (42 - 13 * lv) 13
    match checkPot s t w true false va with
    | .error e => .error e
    | .ok () =>
      if !keyPresent s t then faultVa .worldKeyAbsent va else
      match checkTag s at_ 8 w va true with
      | .error e => .error e
      | .ok () =>
      match readErrors s at_ 8 va with
      | .error e => .error e
      | .ok () =>
        let e := leNat (physBytes s at_ 8)
        if !bitAt e 0 || pteBad e lv then faultVa .noMapping va
        else if pteLeaf e then
          if lv = 1 ∧ bitField e 16 13 ≠ 0 then faultVa .noMapping va else .ok ⟨e, at_, lv = 1⟩
        else walkLevel s w va (pteFrame e * 65536) fuel (lv + 1)

/-- The leaf of a virtual address of a context, without a permission test (R404, R424). -/
def walk (s : State) (k va : Nat) : Res Leaf :=
  if va ≥ 2 ^ 55 then faultVa .noMapping va else walkLevel s (ctxAt s k).world va (ctxAt s k).table 3 0

/-- The world of a leaf agrees with the context's (R404). -/
def leafWorld (s : State) (k va : Nat) (l : Leaf) : Res Unit :=
  if pteWorld l.entry = (ctxAt s k).world ∨ (pteWorld l.entry = 0 ∧ pteClass l.entry = 1) then .ok () else faultVa .worldMismatch va

/-- The leaf that an access uses: the walk's, or one that a TLB still holds (R404, R405). -/
def leafFor (s : State) (k va : Nat) : Res Leaf :=
  match tabGet none (ctxAt s k).tlb (va / 65536) with
  | some t => if va < 2 ^ 55 ∧ Config.usesHeld s.tick (va / 65536) then .ok ⟨t.leaf, t.place, t.large⟩ else walk s k va
  | none => walk s k va

/-- The permission tests of R404; an atomic needs both, read first (R121). -/
def leafAllows (e : Nat) (kind : Access) (level : Bool) (va : Nat) : Res Unit :=
  let perm : Cause := match kind with | .read | .atomic => .permRead | .write => .permWrite | .exec => .permExec
  if bitAt e 7 ∧ !level then faultVa perm va
  else match kind with
  | .read => if bitAt e 4 then .ok () else faultVa .permRead va
  | .write => if bitAt e 5 then .ok () else faultVa .permWrite va
  | .exec => if bitAt e 6 then .ok () else faultVa .permExec va
  | .atomic => if !bitAt e 4 then faultVa .permRead va else if !bitAt e 5 then faultVa .permWrite va else .ok ()

/-- The physical address that a leaf gives (R404). -/
def leafPa (l : Leaf) (va : Nat) : Nat := pteFrame l.entry * 65536 + va % (if l.large then 2 ^ 29 else 2 ^ 16)

/-- A translated address: resident, with its class; or absent (R404). -/
inductive Xlat where
  | absent (l : Leaf)
  | here (l : Leaf) (pa : Nat)
  deriving DecidableEq, Repr

/-- Where the first touch of the page that a leaf maps is kept (R406). -/
def leafTouch (l : Leaf) : Nat := touchKey l.large (pteFrame l.entry)

/-- The die that first touched the PRIVATE page that an entry maps, since it last became PRIVATE (R406). -/
def firstDie (s : State) (l : Leaf) : Option Nat :=
  match tabGet none s.touched (leafTouch l) with
  | some t => if t.place = l.place then some t.die else none
  | none => none

/-- An access reclassifies the page (R277, R406): a PRIVATE page without the class lock that another die touched first. -/
def reclassDue (s : State) (a : Accessor) (l : Leaf) : Bool :=
  pteClass l.entry = 0 && !pteClk l.entry && (firstDie s l).any (· ≠ a.die)

/-- The leaf on which a reclassification acts: where the entry in memory is another by now, its compare-and-swap fails, and the walk is made again
(R403, R406). -/
def swapLeaf (s : State) (k va : Nat) (l : Leaf) : Res Leaf := if leNat (physBytes s l.place 8) = l.entry then .ok l else walk s k va

/-- The leaf of an access under the class rule of its page (R404 to R406). -/
def leafUsed (s : State) (a : Accessor) (va : Nat) : Res Leaf :=
  match leafFor s a.ctx va with
  | .error e => .error e
  | .ok l => if reclassDue s a l then swapLeaf s a.ctx va l else .ok l

/-- What a leaf gives an access (R404). A page that a migration holds holds the access (R412). -/
def leafAccess (s : State) (a : Accessor) (kind : Access) (va : Nat) (l : Leaf) : Res Xlat :=
  match leafWorld s a.ctx va l with
  | .error e => .error e
  | .ok () =>
    match leafAllows l.entry kind a.level va with
    | .error e => .error e
    | .ok () =>
      if pteAbs l.entry then .ok (.absent l)
      else if pteMig l.entry then .error .busy
      else
        let pa := leafPa l va
        match checkPot s pa (ctxAt s a.ctx).world (kind = .read || kind = .exec) (pteClass l.entry = 1) va with
        | .error e => .error e
        | .ok () => if keyPresent s pa then .ok (.here l pa) else faultVa .worldKeyAbsent va

/-- Translate of R17 and R404. -/
def translate (s : State) (a : Accessor) (kind : Access) (va : Nat) : Res Xlat :=
  match leafUsed s a va with
  | .error e => .error e
  | .ok l => leafAccess s a kind va l

/-! ### Translations and classes -/

/-- The frames of the tables that a walk reads (R404). -/
def walkTables (s : State) (va t : Nat) : Nat → Nat → List Nat
  | 0, _ => []
  | fuel + 1, lv =>
    let e := leNat (physBytes s (t + 8 * bitField va (42 - 13 * lv) 13) 8)
    t / 65536 :: if bitAt e 0 && !pteLeaf e then walkTables s va (pteFrame e * 65536) fuel (lv + 1) else []

/-- Every translation of a physical frame of every context is invalidated, and every one that came through a table in it (R405, R420). -/
def dropFrameTranslations (s : State) (frame : Nat) : State :=
  { s with ctxs := s.ctxs.map fun p => (p.1, { p.2 with tlb := p.2.tlb.filter fun q =>
      match q.2 with
      | none => true
      | some t => !t.tables.contains frame && if t.large then frame / 8192 ≠ pteFrame t.leaf / 8192 else pteFrame t.leaf ≠ frame }) }

/-- The world that a frame belongs to, quarantined or not (R407, R420). -/
def frameWorld (s : State) (f : Nat) : Option Nat :=
  let e := potAt s f
  let state := if e.state = 4 then tabGet 0 s.earlier f / 256 else e.state
  if 1 ≤ state ∧ state ≤ 3 then some e.owner else none

/-- The frames under a block's failed leaf or node become QUARANTINED, their translations are dropped and the driver is told (R420). -/
def quarantineBlock (s : State) (block : Nat) : State :=
  let level := errorLevel (tabGet 0 s.metaErr block)
  let span := 16384 * 16 ^ level
  let lo := block * 16384 / span * span
  let frames := (upFrom (lo / 65536) ((span + 65535) / 65536)).filter fun f =>
    (paTier (f * 65536)).isSome && treeOf (f * 65536) = treeOf lo && decide ((potAt s f).state ≠ 4)
  let worlds := (frames.filterMap (frameWorld s)).eraseDups
  let s := frames.foldl (fun s f =>
    let e := potAt s f
    dropFrameTranslations { setPot s f { e with state := 4 } with earlier := tabSet 0 s.earlier f (e.owner + 256 * e.state) } f) s
  { s with outbox := s.outbox ++ worlds.map fun w => .error (if tabGet 0 s.metaErr block % 2 = 0 then 0x41 else 0x43) w 0 lo }

/-- Every translation that came from an entry at an address is invalidated (R405). -/
def dropLeafTranslations (s : State) (place : Nat) : State :=
  { s with ctxs := s.ctxs.map fun p => (p.1, { p.2 with tlb := p.2.tlb.filter fun q =>
      match q.2 with | none => true | some t => t.place ≠ place }) }

/-- A line written back: its data moves, at the charge of the virtual device that wrote it, and its counters advance (R388, R417); a leaf or node in
error above it is met there (R418, R420). A line that cannot be read intact becomes poison and its tag is charged (R419). -/
def writeBackLine (s : State) (line : Nat) : State :=
  match tabGet none s.l2 line with
  | none => s
  | some t =>
    let s := (metaErrorAt s (line * 128) 128).elim s fun b => quarantineBlock s b.1
    let s := chargeLine (stepLines { s with l2 := tabSet none s.l2 line none } [line]) (ctxAt s t.ctx).vd line
    if tabGet 0 s.lineErr line = 4 then
      { s with lineErr := tabSet 0 s.lineErr line 3,
               outbox := s.outbox ++ [.error (if paTier (line * 128) = some 1 then 0x45 else 0x44) t.world t.ctx (line * 128)] }
    else s

/-- Every dirty line of a range is written back (R277, R175). -/
def writeBackRange (s : State) (pa n : Nat) : State :=
  (s.l2.filter fun p => pa / 128 ≤ p.1 ∧ p.1 * 128 < pa + n).foldl (fun s p => writeBackLine s p.1) s

/-- The tag of a line that is written for a context: the world that owns its frame (R409). -/
def ownerTag (s : State) (ctx pa : Nat) : LineTag := ⟨(potAt s (pa / 65536)).owner, ctx, 0⟩

/-- Every dirty line of a way is written back, and none is left in it (R394). -/
def flushWay (s : State) (unit : Nat) : State :=
  (s.l2.filter fun p => p.2.any fun t => t.way = unit).foldl (fun s p => writeBackLine s p.1) s

/-! ### The integrity trees (R416, R417) -/

/-- The key of leaf or node `i` of a level. -/
def treeKey (level i : Nat) : Nat := level * 2 ^ 40 + i
/-- The level whose nodes the root counts, in the tree of a block: a stack of 64 GiB has four nodes at level 5, a port's range four at level 6. -/
def topLevel (block : Nat) : Nat := if block * 16384 < 2 ^ 48 then 5 else 6

/-- A changed leaf or node is written back from a metadata cache: the 56-bit counter that its parent, or the root, holds for it advances, and the
parent is changed (R416, R417). -/
def writeBackNode (s : State) (key : Nat) : State :=
  let level := key / 2 ^ 40
  let i := key % 2 ^ 40
  if !s.treeDirty.contains key then s
  else
    let rest := s.treeDirty.filter (· ≠ key)
    { s with treeCtrs := tabSet 0 s.treeCtrs key ((tabGet 0 s.treeCtrs key + 1) % 2 ^ 56),
             treeDirty := if level < topLevel (i * 16 ^ level) then setAdd (treeKey (level + 1) (i / 16)) rest else rest }

/-- An 8-byte update of a page-table entry by the UX9; its translations are invalidated before (R403, R405). The line is written under the tag of
the world that owns it and of the context that the update serves. -/
def writeEntry (s : State) (ctx place e : Nat) : State :=
  let s := dropLeafTranslations s place
  physWrite s place (natLe 8 e) (ownerTag s ctx place)

/-- The dirty lines of a frame are written back and none is held any more (R409, R411). -/
def flushFrame (s : State) (frame : Nat) : State := writeBackRange s (frame * 65536) 65536

/-- The page ownership of a frame changes: its lines leave the L2s and its translations are invalidated first (R405, R407, R409). Another owner's page
has been touched by no die (R406). -/
def changePot (s : State) (frame : Nat) (e : PotEntry) : State :=
  let s := dropFrameTranslations (flushFrame s frame) frame
  setPot { s with touched := if (potAt s frame).owner = e.owner then s.touched else tabSet none s.touched frame none } frame e

/-- The page service changes the ownership of a frame, unless the frame is QUARANTINED: that stands until it is initialised again (R420). -/
def movePot (s : State) (frame : Nat) (e : PotEntry) : State :=
  let t := flushFrame s frame
  if (potAt t frame).state = 4 then t else changePot t frame e

/-- A PRIVATE page becomes TILED through the entry that maps it: its dirty lines are written back, all 512 MiB of a large page's (R277, R406). -/
def makeTiled (s : State) (ctx : Nat) (l : Leaf) : State :=
  let s := if pteAbs l.entry then s else writeBackRange s (pteFrame l.entry * 65536) (if l.large then 2 ^ 29 else 65536)
  writeEntry { s with touched := tabSet none s.touched (leafTouch l) none } ctx l.place (setField l.entry 2 2 2)

/-- Reclassification of a PRIVATE page through the leaf of `swapLeaf` (R277, R406). -/
def reclassify (s : State) (ctx va : Nat) (l : Leaf) : Res State :=
  if pteClk l.entry then faultVa .classLocked va else .ok (makeTiled s ctx l)

/-- The class rule of R406 for one access: a PRIVATE page touched first by another die becomes TILED. The Boolean says that the page is TILED. -/
def classRule (s : State) (a : Accessor) (l : Leaf) (va : Nat) : Res (State × Bool) :=
  if pteClass l.entry ≠ 0 then .ok ({ s with touched := tabSet none s.touched (leafTouch l) none }, pteClass l.entry = 2)
  else match firstDie s l with
  | none => .ok ({ s with touched := tabSet none s.touched (leafTouch l) (some ⟨l.place, a.die⟩) }, false)
  | some d => if d = a.die then .ok (s, false) else (reclassify s a.ctx va l).map fun s => (s, true)

/-! ### Tenure (R266, R283) -/

/-- The bytes of a row of elements: `n` elements of `e` bytes, `s` bytes apart, from `base`, meet the bytes from `lo` to `hi`. A row with a
negative stride is read from its other end. -/
def rowMeets (base : Int) (n : Nat) (s : Int) (e : Nat) (lo hi : Int) : Bool :=
  let b := if s < 0 then base + ((n : Int) - 1) * s else base
  let step : Int := s.natAbs
  if n = 0 then false
  else if lo < b + e then b < hi
  else if step = 0 then false
  else let k := (lo - b - e) / step + 1; k < n && b + k * step < hi

/-- The bytes of a tile meet the bytes from `lo` to `hi` (R266): the outer dimensions are enumerated. -/
def boxMeets (base : Int) (e : Nat) (lo hi : Int) : List (Nat × Int) → Bool
  | [] => base < hi && lo < base + e
  | [(n, s)] => rowMeets base n s e lo hi
  | (n, s) :: t => (upFrom 0 n).any fun c => boxMeets (base + c * s) e lo hi t

/-- The bounding interval of a box: its lowest byte and its highest byte plus 1 (R266). -/
def boxBounds (base : Nat) (e : Nat) (exts : List Nat) (strides : List Int) : Int × Int :=
  ((exts.zip strides).foldl (fun (b : Int × Int) p =>
    let far := ((p.1 : Int) - 1) * p.2
    if far < 0 then (b.1 + far, b.2) else (b.1, b.2 + far)) ((base : Int), (base : Int) + e))

/-- The tile has a byte in a range (R266). -/
def tileMeets (t : Tile) (va n : Nat) : Bool :=
  let b := boxBounds t.base t.elem t.exts t.strides
  b.1 < (va + n : Nat) && (va : Int) < b.2 && boxMeets t.base t.elem va (va + n : Nat) (t.exts.zip t.strides).reverse

/-- A holder has a tenure on a tile (R268). -/
def holdsTile (t : Tile) (h : Holder) : Bool := t.readers.contains h || t.writer = some h

/-- A tile whose bytes meet the range and on which the accessor holds no tenure stands in a state that stops the access (R283). A holder's own
read tenure on a SEALED tile does not permit a store. -/
def tenureStops (s : State) (a : Accessor) (stores : Bool) (va n : Nat) : Bool :=
  (ctxAt s a.ctx).tiles.any fun p => match p.2 with
    | none => false
    | some t =>
      let held := match a.who with | none => false | some h => holdsTile t h
      ((t.state = .write && !held) || (t.state = .sealed && stores)) && tileMeets t va n

/-- The tenure rule of R283 for a load or a store on a TILED page. -/
def tenureRule (s : State) (a : Accessor) (stores : Bool) (va n : Nat) : Res Unit :=
  if tenureStops s a stores va n then if stores then faultVa .tenureConflictStore va else .error (.wait (.access va n)) else .ok ()

/-- The fault of an access on a page that it has reclassified keeps the page TILED. -/
def keepReclass {α : Type} (l : Leaf) (va : Nat) (was now : Bool) : Res α → Res α
  | .error (.trap t) => .error (.trap (if !was && now then { t with hw := t.hw ++ [.reclass l va] } else t))
  | r => r

/-- The checks of an access of `n` bytes after its translation: class, tenure, line tags and errors, and the arbiters of the memory system
(R283, R388, R391, R406, R409, R418). -/
def pageChecks (s : State) (a : Accessor) (l : Leaf) (pa va n : Nat) (reads stores : Bool) : Res State :=
  match classRule s a l va with
  | .error e => .error e
  | .ok (s', tiled) =>
    keepReclass l va (pteClass l.entry = 2) tiled <|
      match (if tiled then tenureRule s' a stores va n else .ok ()) with
      | .error e => .error e
      | .ok () =>
        match checkTag s' pa n (ctxAt s a.ctx).world va (!stores) with
        | .error e => .error e
        | .ok () =>
          match (if reads then readErrors s' pa n va else storeErrors s' pa n va) with
          | .error e => .error e
          | .ok () => requestLines s' (ctxAt s a.ctx).vd a.die (linesOf pa n)

/-- The tag of a line that an accessor writes (R409). -/
def tagOf (s : State) (a : Accessor) (pa : Nat) : LineTag := ownerTag s a.ctx pa

/-- The accessor that a stream of the executing core is (R114, R268). -/
def curAccessor (s : State) : Accessor :=
  ⟨s.core.ctx, levelP s, s.core.job.map fun j => ⟨j, s.core.jobRank⟩, dieOf s.focus⟩

/-- The accessor that an engine of the executing core is: level U (R354). -/
def engineAccessor (s : State) : Accessor := { curAccessor s with level := false }

/-! ### Virtual memory -/

/-- The register view that a physical address names, with the offset in it (R402). -/
def viewAt (pa : Nat) : Nat × Nat := ((pa - 0x8000000000000) / 65536, pa % 65536)

/-- The arbiters of an access of class DEVICE to memory, which is not cached: a request to the die's L2, and 64 bytes moved for a load; a store is
charged as its line is written through (R388, R391, R406). -/
def deviceRequest (s : State) (vd die line : Nat) (stores : Bool) : Res State :=
  let a := lineArbiter line
  if !funded s 2 die vd then .error (.short 2 die vd die)
  else if !funded s a.1 a.2 vd then .error (.short a.1 a.2 vd die)
  else
    let s := chargePurse s 2 die vd 1
    .ok (if stores then s else chargePurse s a.1 a.2 vd 1)

/-- The checks of an access of class DEVICE to a frame of memory: nothing of it is cached, but no line of another world is reached (R406, R409). -/
def deviceChecks (s : State) (a : Accessor) (pa va n : Nat) (stores : Bool) : Res State :=
  match checkTag s pa n (ctxAt s a.ctx).world va (!stores) with
  | .error e => .error e
  | .ok () =>
    match (if stores then storeErrors s pa n va else readErrors s pa n va) with
    | .error e => .error e
    | .ok () => deviceRequest s (ctxAt s a.ctx).vd a.die (pa / 128) stores

/-- Bytes written past the L2: no line of them stays in it (R406). -/
def writeThrough (s : State) (pa : Nat) (bs : List Byte) (tag : LineTag) : State := writeBackRange (physWrite s pa bs tag) pa bs.length

/-- MemLoad of R17 of `n` bytes by a scalar access (R114, R116). -/
def memLoad (s : State) (a : Accessor) (va n : Nat) : Res (State × List Byte) :=
  match translate s a .read va with
  | .error e => .error e
  | .ok (.absent l) =>
    if pteClass l.entry = 3 ∧ n ≠ 4 ∧ n ≠ 8 then faultVa .deviceAccessSize va
    else .error (.trap { cause := .noMapping, esw := 1, va := va })
  | .ok (.here l pa) =>
    if pteClass l.entry = 3 then
      if n ≠ 4 ∧ n ≠ 8 then faultVa .deviceAccessSize va
      else if (paTier pa).isNone then let v := viewAt pa; .ok (s, natLe n (viewRead s v.1 v.2 n))
      else match deviceChecks s a pa va n false with
        | .error e => .error e
        | .ok s => .ok (s, physBytes s pa n)
    else match pageChecks s a l pa va n true false with
      | .error e => .error e
      | .ok s' => .ok (s', physBytes s' pa n)

/-- MemStore of R17 by a scalar access (R114, R116). -/
def memStore (s : State) (a : Accessor) (va : Nat) (bs : List Byte) : Res State :=
  match translate s a .write va with
  | .error e => .error e
  | .ok (.absent l) =>
    if pteClass l.entry = 3 ∧ bs.length ≠ 4 ∧ bs.length ≠ 8 then faultVa .deviceAccessSize va else faultVa .absentStore va
  | .ok (.here l pa) =>
    if pteClass l.entry = 3 then
      if bs.length ≠ 4 ∧ bs.length ≠ 8 then faultVa .deviceAccessSize va
      else if (paTier pa).isNone then let v := viewAt pa; .ok (viewWrite s v.1 v.2 bs.length (leNat bs))
      else match deviceChecks s a pa va bs.length true with
        | .error e => .error e
        | .ok s => .ok (writeThrough s pa bs (tagOf s a pa))
    else match pageChecks s a l pa va bs.length false true with
      | .error e => .error e
      | .ok s' => .ok (physWrite s' pa bs (tagOf s a pa))

/-- The old value of an atomic and the place of its bytes (R118, R121): a page of class DEVICE faults. -/
def memAtomic (s : State) (a : Accessor) (va n : Nat) : Res (State × Nat × Nat) :=
  match translate s a .atomic va with
  | .error e => .error e
  | .ok (.absent l) => if pteClass l.entry = 3 then faultVa .deviceAccessSize va else faultVa .absentStore va
  | .ok (.here l pa) =>
    if pteClass l.entry = 3 then faultVa .deviceAccessSize va
    else match pageChecks s a l pa va n true true with
      | .error e => .error e
      | .ok s' => .ok (s', pa, leNat (physBytes s' pa n))

/-- An access of an engine element, or of an agent that no register view serves: a page of class DEVICE faults (R176). `none` for an
absent page. -/
def elemLoad (s : State) (a : Accessor) (va n : Nat) : Res (State × Option (List Byte)) :=
  match translate s a .read va with
  | .error e => .error e
  | .ok (.absent l) => if pteClass l.entry = 3 then faultVa .deviceAccessSize va else .ok (s, none)
  | .ok (.here l pa) =>
    if pteClass l.entry = 3 then faultVa .deviceAccessSize va
    else match pageChecks s a l pa va n true false with
      | .error e => .error e
      | .ok s' => .ok (s', some (physBytes s' pa n))

/-- A write of an engine element (R176). -/
def elemStore (s : State) (a : Accessor) (va : Nat) (bs : List Byte) : Res State :=
  match translate s a .write va with
  | .error e => .error e
  | .ok (.absent l) => if pteClass l.entry = 3 then faultVa .deviceAccessSize va else faultVa .absentStore va
  | .ok (.here l pa) =>
    if pteClass l.entry = 3 then faultVa .deviceAccessSize va
    else match pageChecks s a l pa va bs.length false true with
      | .error e => .error e
      | .ok s' => .ok (physWrite s' pa bs (tagOf s a pa))

/-! ### Hardware errors (R277, R409, R419, R420) -/

/-- A line written to memory as poison, its tag charged (R419). -/
def poisonLine (s : State) (line : Nat) : State := writeBackLine { s with lineErr := tabSet 0 s.lineErr line 4 } line

/-- The effects that stand whatever becomes of an instruction of a core. -/
def applyHw (s : State) (core : Nat) : HwEffect → State
  | .poison l => poisonLine s l
  | .quarantine b => quarantineBlock s b
  | .reclass l va => match reclassify s (coreAt s core).ctx va l with | .ok t => t | .error _ => s
  | .flush l => writeBackLine s l
  | .ringErr n => let c := coreAt s core; putCore s core { c with rings := tabSet 0 c.rings n (tabGet 0 c.rings n ||| BitVec.ofNat 128 (2 ^ 112)) }

/-- The effects of a stop that stand whatever becomes of its access. -/
def hwOf {α : Type} : Res α → List HwEffect
  | .error (.trap t) => t.hw
  | _ => []

/-- Effects that stand, in order. -/
def standHw (s : State) (l : List HwEffect) : State := l.foldl (fun s e => applyHw s s.focus e) s

/-- What the hardware does of its own accord for a stop met by an access that the package makes on its own account (R420). -/
def absorb {α : Type} (s : State) (r : Res α) : State := standHw s (hwOf r)

/-- Bytes of a context's virtual memory read by the package on its own account, page by page (R128, R341, R371). An absent page answers its
address. -/
def agentLoad (s : State) (k va : Nat) : Nat → Nat → Res (Except Nat (List Byte))
  | 0, _ => .ok (.ok [])
  | fuel + 1, n =>
    if n = 0 then .ok (.ok []) else
    let a : Accessor := ⟨k, false, none, 0⟩
    let here := min n (65536 - va % 65536)
    match translate s a .read va with
    | .error e => .error e
    | .ok (.absent _) => .ok (.error va)
    | .ok (.here l pa) =>
      if pteClass l.entry = 3 then faultVa .deviceAccessSize va
      else match inTurn (checkTag s pa here (ctxAt s k).world va true) (readErrors s pa here va) with
        | .error e => .error e
        | .ok () => match agentLoad s k (va + here) fuel (n - here) with
          | .ok (.ok bs) => .ok (.ok (physBytes s pa here ++ bs))
          | r => r

end Sys2Proof.Machine
end

