-- ==== Sys2Proof/Machine/Operands.lean ====
section
/-! DEFINITION. Descriptors, regions and their elements, and the address forms of scalar accesses (R111, R143 to R151, R158, R159, R168,
R179). -/

namespace Sys2Proof.Machine

/-! ### Descriptors (R145) -/

/-- The fields of a descriptor, both readings settled: in the full layout the auxiliary fields are zero, and in the auxiliary layout
dimensions 2 and 3 are. -/
structure Desc where
  raw : Nat
  type : Nat
  fmt : Nat
  base : Nat
  exts : List Nat
  strides : List Int
  tag : Nat
  sfmt : Nat
  blk : Nat
  amv : Bool
  amap : Nat
  sbase : Int
  sstride : Int
  slots : Nat
  slotb : Nat
  nreg : Nat
  claim : Nat
  peek : Bool
  deriving DecidableEq, Repr, Inhabited

/-- The reading of a descriptor (R145, R147). -/
def descOf (dw : DescWord) : Desc :=
  let d := dw.toNat
  let f (lo w : Nat) := bitField d lo w
  let g (lo w : Nat) := signExt (bitField d lo w) w
  let one (n : Nat) := if n = 0 then 1 else n
  let full := f 192 16 ≠ 0
  let aux (n : Nat) : Nat := if full then 0 else n
  let auxI (n : Int) : Int := if full then 0 else n
  { raw := d, type := f 61 3, fmt := f 55 6, base := f 0 55,
    exts := if full then [f 64 16, one (f 112 16), f 192 16, one (f 208 16)] else [f 64 16, one (f 112 16), 1, 1],
    strides := if full then [g 80 32, g 128 32, g 160 32, g 224 32] else [g 80 32, g 128 32, 0, 0],
    tag := aux (f 160 16), sfmt := aux (f 176 2), blk := aux (f 178 1), amv := !full && bitAt d 179, amap := aux (f 180 12),
    sbase := auxI (g 208 32), sstride := auxI (g 240 16), slots := aux (f 208 16), slotb := aux (f 224 20), nreg := aux (f 244 3),
    claim := aux (f 247 4) + 1, peek := !full && bitAt d 251 }

/-- COUNT (R145). -/
def descCount (d : Desc) : Nat := d.exts.headD 0
/-- N of R147. -/
def descN (d : Desc) : Nat := d.exts.foldl (· * ·) 1
/-- Rows of R147. -/
def descRows (d : Desc) : Nat := if descCount d = 0 then 0 else descN d / descCount d
/-- The format, where its code is not reserved (R21). -/
def descFmt (d : Desc) : Fmt := (fmtOfCode d.fmt).getD .f32
/-- The width of the descriptor's elements (R21). -/
def descWidth (d : Desc) : Nat := fmtWidth (descFmt d)
/-- The bytes an element touches. -/
def elemBytes (f : Fmt) : Nat := (fmtWidth f + 7) / 8
/-- The scale format (R145). -/
def descScale (d : Desc) : Option ScaleFmt :=
  match d.sfmt with | 1 => some .e8m0 | 2 => some .bf16 | 3 => some .f16 | _ => none
/-- B of R149. -/
def blockSize (d : Desc) : Nat := if d.blk = 1 then 32 else 16
/-- ESTRIDE of R147. -/
def descEstride (d : Desc) : Int := d.strides.headD 0
/-- S1 of R147. -/
def descS1 (d : Desc) : Int := d.strides.getD 1 0

/-- The spaces that a place lies in (R146). -/
inductive Space where
  | spad | vault | virt | remote
  deriving DecidableEq, Repr

/-- The space and the byte address of BASE (R146). -/
def descSpace (d : Desc) : Space :=
  match d.type with
  | 1 => .spad | 2 => .vault | 3 => .virt | 4 => if bitAt d.base 54 then .vault else .spad | _ => .remote
def descBase (d : Desc) : Nat :=
  match d.type with
  | 1 => bitField d.base 0 20 | 2 => bitField d.base 0 31
  | 4 => if bitAt d.base 54 then bitField d.base 0 31 else bitField d.base 0 20 | _ => d.base

/-- The bits of BASE that R146 requires to be zero (step 3 of R150). -/
def baseClean (d : Desc) : Bool :=
  match d.type with
  | 1 => bitField d.base 20 35 = 0
  | 2 => bitField d.base 31 24 = 0 && bitField d.base 22 9 < 384
  | 4 => if bitAt d.base 54 then bitField d.base 31 23 = 0 && bitField d.base 22 9 < 384 else bitField d.base 20 34 = 0
  | _ => true

/-- The formats that a scale may stand beside (step 2 of R150). -/
def scalable (f : Fmt) : Bool :=
  match f with | .e4m3 | .e5m2 | .e2m1 | .i8 | .i4s | .ts8 => true | _ => false

/-- Step 4 of R150: a RING descriptor refused. -/
def ringDescBad (d : Desc) : Bool :=
  bitField d.raw 192 16 ≠ 0 || d.sfmt ≠ 0 || d.amv || bitField d.raw 252 4 ≠ 0 || d.slots = 0 || d.slotb = 0 || d.slotb % 64 ≠ 0 ||
  d.claim > d.slots ||
  (match descSpace d with
   | .spad => descBase d % 64 ≠ 0 || descBase d + d.slots * d.slotb > spadSize
   | _ => descBase d % 4194304 + d.slots * d.slotb > 4194304)

/-- Step 5 of R150: the auxiliary layout refused. -/
def auxBad (d : Desc) : Bool :=
  bitField d.raw 192 16 = 0 && d.type ≠ 4 &&
  ((d.sfmt = 0 && bitField d.raw 208 48 ≠ 0) || (d.amv && d.type = 5) || (d.amv && d.amap * 256 ≥ spadSize) ||
   (!d.amv && d.amap ≠ 0 && d.type ≠ 5))

/-- Step 7 of R150: alignment. -/
def descMisaligned (d : Desc) : Bool :=
  let b : Int := elemBytes (descFmt d)
  let z : Int := match descScale d with | none => 1 | some sf => scaleBytes sf
  (!fmtPacked (descFmt d) && ((descBase d : Int) % b ≠ 0 || d.strides.any fun s => s % b ≠ 0)) ||
  (d.sfmt ≠ 0 && (d.sbase % z ≠ 0 || d.sstride % z ≠ 0))

/-- The checks of R150 for an operand that accepts some types and formats. -/
def checkDesc (d : Desc) (types : List Nat) (accepts : Fmt → Bool) : Option Cause :=
  if !types.contains d.type then some .descInvalid
  else match fmtOfCode d.fmt with
  | none => some .formatUnsupported
  | some f =>
    if !accepts f || (d.sfmt ≠ 0 && !scalable f) then some .formatUnsupported
    else if !baseClean d then some .descInvalid
    else if d.type = 4 ∧ ringDescBad d then some .descInvalid
    else if auxBad d then some .descInvalid
    else if fmtPacked f ∧ descEstride d ≠ 0 then some .descInvalid
    else if descMisaligned d then some .vecAlign
    else if descN d ≥ 2 ^ 48 then some .vecCount
    else none

/-- `checkDesc` as a step that may fault with the operand's code (R357). -/
def needDesc (d : Desc) (types : List Nat) (accepts : Fmt → Bool) (operand : Nat) : Res Unit :=
  match checkDesc d types accepts with
  | none => .ok ()
  | some c => faultOp c operand

/-! ### Places (R147 to R149, R159) -/

/-- The coordinates of an element (R147). -/
def coords : List Nat → Nat → List Nat
  | [], _ => []
  | x :: xs, i => i % x :: coords xs (i / x)

/-- The byte offset of a row: the outer coordinates over their strides (R147). -/
def rowOff (d : Desc) (i : Nat) : Int :=
  (((coords d.exts i).drop 1).zip (d.strides.drop 1)).foldl (fun a p => a + p.1 * p.2) 0

/-- Place of R147: a byte offset from BASE and a bit within the byte. -/
def place (d : Desc) (i : Nat) : Int × Nat :=
  let c0 := i % descCount d
  if fmtPacked (descFmt d) then let b := c0 * descWidth d; (rowOff d i + (b / 8 : Nat), b % 8)
  else (rowOff d i + c0 * descEstride d, 0)

/-- An operand of an engine instruction: its descriptor, the first slot of its ring claim, its number in ESW (R151, R158, R357). -/
structure Operand where
  d : Desc
  slot : Nat
  code : Nat
  deriving DecidableEq, Repr, Inhabited

/-- The byte address of a place of an operand, through the claimed slots of a ring (R147, R159). -/
def spotOf (o : Operand) (p : Int) : Int :=
  if o.d.type = 4 then descBase o.d + (o.slot * o.d.slotb + p) % (o.d.slots * o.d.slotb : Nat) else descBase o.d + p

/-- The byte address and bit of an element (R147, R159). -/
def elemSpot (o : Operand) (i : Nat) : Int × Nat := let p := place o.d i; (spotOf o p.1, p.2)

/-- The byte address of the scale of an element (R149). -/
def scaleSpot (o : Operand) (i : Nat) : Int :=
  let c := coords o.d.exts i
  let z : Nat := match descScale o.d with | none => 0 | some sf => scaleBytes sf
  spotOf o (o.d.sbase + (c.headD 0 / blockSize o.d * z : Nat) + c.getD 1 0 * o.d.sstride)

/-- The first element of a block and the number of elements in it (R149). -/
def blockOf (d : Desc) (i : Nat) : Nat × Nat :=
  let c0 := i % descCount d
  let b0 := c0 / blockSize d * blockSize d
  (i - c0 + b0, min (blockSize d) (descCount d - b0))

/-- The least and the greatest of the corners that strides reach from 0. -/
def spanOf (exts : List Nat) (strides : List Int) : Int × Int :=
  (exts.zip strides).foldl (fun b p => let far := ((p.1 : Int) - 1) * p.2; if far < 0 then (b.1 + far, b.2) else (b.1, b.2 + far)) (0, 0)

/-- The bounding interval of an operand's element places, as offsets from BASE (R159, R168). -/
def elemSpan (d : Desc) : Int × Int :=
  if fmtPacked (descFmt d) then
    let b := spanOf (d.exts.drop 1) (d.strides.drop 1)
    (b.1, b.2 + ((descCount d * descWidth d + 7) / 8 : Nat))
  else let b := spanOf d.exts d.strides; (b.1, b.2 + elemBytes (descFmt d))

/-- The bounding interval of an operand in its space (R168, R181): the whole storage for a ring, the scales included. An operand without elements has
the empty interval at BASE, which meets an interval that holds BASE strictly inside (log 84). -/
def interval (d : Desc) : Int × Int :=
  let base : Int := descBase d
  if d.type = 4 then (base, base + (d.slots * d.slotb : Nat))
  else if descN d = 0 then (base, base)
  else
    let e := elemSpan d
    let b := match descScale d with
      | none => e
      | some sf =>
        let z := scaleBytes sf
        let rows := spanOf [d.exts.getD 1 1] [d.sstride]
        (min e.1 (d.sbase + rows.1), max e.2 (d.sbase + rows.2 + (ceilDiv (descCount d) (blockSize d) * z : Nat)))
    (base + b.1, base + b.2)

/-- Two operands lie in one space: REMOTE descriptors of different peers do not (R168). -/
def sameSpace (a b : Desc) : Bool := descSpace a = descSpace b && (descSpace a ≠ .remote || a.amap = b.amap)

/-- The intervals of two operands intersect (R168). -/
def intersects (a b : Desc) : Bool :=
  let i := interval a; let j := interval b
  sameSpace a b && i.1 < j.2 && j.1 < i.2

/-- The exception of R168: equal element size, BASE and geometry, and equal scale fields. The types are equal too, since a ring's elements stand in
its claimed slots and not at BASE (log 85). -/
def inPlace (a b : Desc) : Bool :=
  a.type = b.type && descWidth a = descWidth b && a.base = b.base && a.exts = b.exts && a.strides = b.strides && a.sfmt = b.sfmt &&
  (a.sfmt = 0 || (a.blk = b.blk && a.sbase = b.sbase && a.sstride = b.sstride))

/-- The overlap rule of R168 for a source and a destination. -/
def overlaps (a b : Desc) : Bool := intersects a b && !inPlace a b

/-! ### Bytes of a space -/

/-- The vault of an operand's BASE holds `n` bytes at an address (R147). -/
def inVault (o : Operand) (a : Int) (n : Nat) : Bool :=
  let v := descBase o.d / 4194304
  (v * 4194304 : Nat) ≤ a && a + n ≤ ((v + 1) * 4194304 : Nat)

/-- `n` bytes of an operand; `none` on a SOFT-ABSENT page (R147, R167). -/
def opLoad (s : State) (o : Operand) (a : Int) (n : Nat) : Res (State × Option (List Byte)) :=
  withOperand o.code <|
  match descSpace o.d with
  | .spad => if a < 0 then fault .spadRange else (spadLoad s a.toNat n).map fun b => (s, some b)
  | .vault => if inVault o a n then (vaultLoad s a.toNat n).map fun b => (s, some b) else fault .vaultRange
  | _ => if a < 0 ∨ a + n > 2 ^ 55 then fault .noMapping else elemLoad s (engineAccessor s) a.toNat n

/-- Bytes stored to an operand (R147, R176). -/
def opStore (s : State) (o : Operand) (a : Int) (bs : List Byte) : Res State :=
  withOperand o.code <|
  match descSpace o.d with
  | .spad => if a < 0 then fault .spadRange else spadStore s a.toNat bs
  | .vault => if inVault o a bs.length then vaultStore s a.toNat bs else fault .vaultRange
  | _ => if a < 0 ∨ a + bs.length > 2 ^ 55 then fault .noMapping else elemStore s (engineAccessor s) a.toNat bs

/-- The byte that a packed write changes, as it stands: only the bits of the element change (R148). -/
def opOldByte (s : State) (o : Operand) (a : Int) : Nat :=
  match descSpace o.d with
  | .spad => (tabGet 0 s.core.spad a.toNat).toNat
  | .vault => (tabGet 0 s.vaults a.toNat).toNat
  | _ => match translate s (engineAccessor s) .write a.toNat with
    | .ok (.here _ pa) => (tabGet 0 s.mem pa).toNat
    | _ => 0

/-! ### Elements -/

/-- The raw bits of an element; `none` on a SOFT-ABSENT page. -/
def elemBits (s : State) (o : Operand) (i : Nat) : Res (State × Option Nat) :=
  let p := elemSpot o i
  (opLoad s o p.1 (elemBytes (descFmt o.d))).map fun r => (r.1, r.2.map fun bs => leNat bs / 2 ^ p.2 % 2 ^ descWidth o.d)

/-- The raw bits of an element written. -/
def putElem (s : State) (o : Operand) (i bits : Nat) : Res State :=
  let p := elemSpot o i
  if fmtPacked (descFmt o.d) then opStore s o p.1 [BitVec.ofNat 8 (setField (opOldByte s o p.1) p.2 (descWidth o.d) bits)]
  else opStore s o p.1 (natLe (elemBytes (descFmt o.d)) bits)

/-- The value of the scale of an element, 1 without a scale (R30, R149). -/
def elemScale (s : State) (o : Operand) (i : Nat) : Res (State × Option XR) :=
  match descScale o.d with
  | none => .ok (s, some xOne)
  | some sf => (opLoad s o (scaleSpot o i) (scaleBytes sf)).map fun r => (r.1, r.2.map fun bs => decodeScale sf (leNat bs))

/-- Val of R179, with the flag of a reserved I4S code (R26). An absent element, or one whose scale is absent, reads as all-zero bits, `true` says so
(R167, log 113). -/
def elemVal (s : State) (o : Operand) (i : Nat) : Res (State × FV × Bool) :=
  match elemBits s o i with
  | .error e => .error e
  | .ok (s, b) =>
    match elemScale s o i with
    | .error e => .error e
    | .ok (s, sc) =>
      let bits := if sc.isNone then 0 else b.getD 0
      let x := decodeFmt (descFmt o.d) bits
      let fl : Flags := if i4Reserved (descFmt o.d) bits then flagReserved o.code else 0
      let v := match descScale o.d with | none => x | some _ => scaledValue x (sc.getD xZero)
      .ok (s, (v, fl), b.isNone || sc.isNone)

/-- SrcIndex of R179; `none` is the VEC_COUNT of its last line. -/
def srcIndex (src dd : Desc) (i : Nat) : Option Nat :=
  if descN src = descN dd then some i
  else if descN src = 1 then some 0
  else if descN src = descCount dd then some (i % descCount dd)
  else none

/-- A source is broadcast (R179). -/
def broadcasts (src dd : Desc) : Bool := descN src ≠ descN dd

/-! ### Scalar addresses (R111) -/

/-- The space and the address within it of an effective address. -/
inductive Place where
  | virt (va : Nat)
  | spad (off : Nat)
  | vault (addr : Nat) (clean : Bool)
  | nowhere
  deriving DecidableEq, Repr

/-- The space that an effective address names (R111). -/
def placeOf (ea : Word) : Place :=
  let a := ea.toNat
  match bitField a 55 9 with
  | 0 => .virt a
  | 0x100 => .spad (bitField a 0 55)
  | 0x101 => .vault (bitField a 0 31) (bitField a 31 24 = 0 && bitField a 22 9 < 384)
  | _ => .nowhere

/-- The effective address of format M: G(ga) + imm (R111). -/
def effAddr (s : State) (ga : Nat) (imm : Imm) : Word := readReg s ga + BitVec.ofInt 64 imm.val

/-- A scalar load of `n` bytes at an effective address (R111, R114, R116). -/
def scalarLoad (s : State) (ea : Word) (n : Nat) : Res (State × List Byte) :=
  match placeOf ea with
  | .nowhere => faultVa .noMapping ea.toNat
  | p =>
    if ea.toNat % n ≠ 0 then faultVa .ldAlign ea.toNat
    else match p with
    | .spad off => (spadLoad s off n).map fun b => (s, b)
    | .vault a ok => if ok then (vaultLoad s a n).map fun b => (s, b) else fault .vaultRange
    | .virt va => memLoad s (curAccessor s) va n
    | .nowhere => faultVa .noMapping ea.toNat

/-- A scalar store at an effective address (R111, R114, R116). -/
def scalarStore (s : State) (ea : Word) (bs : List Byte) : Res State :=
  match placeOf ea with
  | .nowhere => faultVa .noMapping ea.toNat
  | p =>
    if ea.toNat % bs.length ≠ 0 then faultVa .stAlign ea.toNat
    else match p with
    | .spad off => spadStore s off bs
    | .vault a ok => if ok then vaultStore s a bs else fault .vaultRange
    | .virt va => memStore s (curAccessor s) va bs
    | .nowhere => faultVa .noMapping ea.toNat

/-- The operand of an entry by its place in the sampled descriptors. -/
def operandAt (e : QEntry) (k code : Nat) : Operand :=
  ⟨descOf (e.descs.getD k 0), ((e.claims.find? fun c => c.operand = code).map (·.slot)).getD 0, code⟩

/-- The value of an element for an instruction without a residency mask: an absent page faults NO_MAPPING (R176). -/
def presentVal (s : State) (o : Operand) (i : Nat) : Res (State × FV) :=
  match elemVal s o i with
  | .error e => .error e
  | .ok (s, x, absent) => if absent then .error (.trap { cause := .noMapping, esw := o.code * 2 ^ 16, va := (elemSpot o i).1.toNat }) else .ok (s, x)

/-- The integer value of an index element; a reserved I4S code reads as 0 (R26, R172). -/
def indexVal (x : FV) : Int := match x.1 with | .fin sgn n d => xNum sgn (n / d) | _ => 0

end Sys2Proof.Machine
end

