-- ==== Sys2Proof/Machine/Flags.lean ====
section
/-! DEFINITION. VCTL, VSTAT and the flags that instructions raise (R42 to R46, R55, R103). -/

namespace Sys2Proof.Machine

/-- The rounding mode of a code (R32); 6 and 7 are never held by VCTL.RM (R44). -/
def modeOfCode : Nat → RoundMode
  | 0 => .rne | 1 => .rtz | 2 => .rup | 3 => .rdn | 4 => .rna | _ => .sr

/-- The rounding mode of an instruction under a sampled VCTL (R55). -/
def modeOf (vctl : Word) (rm : Rm) : RoundMode := rm.getD (modeOfCode (bitField vctl.toNat 0 3))

/-- The controls of a rounding to a destination with a tag, under a sampled VCTL (R38, R41, R46). -/
def roundingOf (vctl seed : Word) (rm : Rm) (tag idx : Nat) : Rounding :=
  ⟨modeOf vctl rm, vctl.getLsbD 3, seed, tag, idx⟩

/-- The exception of a set of flags whose trap is enabled: its bit number in VSTAT (R45). Of several, the lowest bit (log 21). -/
def enabledTrap (vctl : Word) (fl : Flags) : Option Nat :=
  if fl.getLsbD 0 && vctl.getLsbD 5 then some 0
  else if fl.getLsbD 1 && vctl.getLsbD 6 then some 1
  else if fl.getLsbD 2 && vctl.getLsbD 7 then some 2
  else none

/-- The eight flags of VSTAT among some flags. -/
def stickyBits (fl : Flags) : Word := (fl &&& 0xFF).setWidth 64

/-- Flags merged into VSTAT (R42, R46). -/
def mergeFlags (s : State) (fl : Flags) : State := { s with core := { s.core with vstat := s.core.vstat ||| stickyBits fl } }

/-- The operand that held a reserved I4S code; of several the one with the least code (R357; log 21). -/
def reservedOperand (fl : Flags) : Nat := ((upFrom 1 5).find? fun c => fl.getLsbD (8 + c)).getD 0

/-- The flags of an element or of a scalar instruction: an enabled exception faults and sets nothing, otherwise they stick (R26, R45, R103). The
reserved code comes before the exceptions (R236; log 21). -/
def raiseFlags (s : State) (vctl : Word) (fl : Flags) : Res State :=
  if fl.getLsbD 7 && vctl.getLsbD 4 then faultOp .int4ReservedTrap (reservedOperand fl)
  else match enabledTrap vctl fl with
  | some b => .error (.trap { cause := .fpTrap, esw := b })
  | none => .ok (mergeFlags s fl)

end Sys2Proof.Machine
end

