-- ==== Sys2Proof/Machine/Causes.lean ====
section
/-! DEFINITION. The cause codes and their classes (R358). -/

namespace Sys2Proof.Machine

/-- The code of a cause (R358): the causes stand in the order of their codes. -/
def causeCode (c : Cause) : Nat := c.ctorIdx

/-- The five classes of a cause (R358). -/
inductive CauseClass where
  | debug | timer | killing | status | stream
  deriving DecidableEq, Repr

/-- The class of a cause code (R358). -/
def causeClass (c : Nat) : CauseClass :=
  if c = 0x09 ∨ c = 0x0A then .debug
  else if c = 0x55 then .timer
  else if 0x49 ≤ c ∧ c ≤ 0x4E then .killing
  else if c = 0 ∨ (0x50 ≤ c ∧ c ≤ 0x54) ∨ (0x5B ≤ c ∧ c ≤ 0x5D) ∨ c = 0x5F then .status
  else .stream

end Sys2Proof.Machine
end

