-- ==== Sys2Proof/Machine/TileOps.lean ====
section
/-! DEFINITION. Tile handles, boxes, tenures and their moves, as operations on a context (R263 to R273, R277, R278). -/

namespace Sys2Proof.Machine

/-! ### Handles (R263 to R265) -/

def handleIndex (h : Nat) : Nat := h % 4096
def handleGen (h : Nat) : Nat := h / 4096 % 2 ^ 20
/-- The handle of an entry under its current generation. -/
def handleOf (c : Context) (i : Nat) : Nat := i + tabGet 0 c.gens i * 4096

def tileAt (c : Context) (i : Nat) : Option Tile := tabGet none c.tiles i
def setTile (c : Context) (i : Nat) (t : Option Tile) : Context := { c with tiles := tabSet none c.tiles i t }

/-- The check of a handle operand (R265). -/
def checkHandle (c : Context) (h : Nat) : Except Cause (Nat × Tile) :=
  if handleGen h = 0 then .error .tileHandleInvalid
  else match tileAt c (handleIndex h) with
  | none => .error .tileHandleStale
  | some t => if tabGet 0 c.gens (handleIndex h) = handleGen h then .ok (handleIndex h, t) else .error .tileHandleStale

/-- An entry that may be allocated: FREE and not retired (R264). -/
def entryFree (c : Context) (i : Nat) : Bool := (tileAt c i).isNone && tabGet 0 c.gens i ≠ 0xFFFFF

/-- The lowest-numbered FREE entry (R264). -/
def lowestFree (c : Context) : Option Nat := (upFrom 0 4096).find? (entryFree c)

/-- The number of FREE entries, counted up to a bound. -/
def freeEntries (c : Context) : Nat → List Nat → Nat
  | 0, _ => 0
  | _, [] => 0
  | n + 1, i :: is => if entryFree c i then freeEntries c n is + 1 else freeEntries c (n + 1) is

/-- An entry allocated for a tile; the handle carries the raised generation (R264). -/
def allocTile (c : Context) (t : Tile) : Option (Context × Nat) :=
  (lowestFree c).map fun i =>
    let c := { setTile c i (some t) with gens := tabSet 0 c.gens i (tabGet 0 c.gens i + 1) }
    (c, handleOf c i)

/-- An entry returned to FREE; its waiting requests end (R264, R281, R285). -/
def freeTile (c : Context) (i : Nat) : Context :=
  { setTile c i none with requests := c.requests.filter fun r => handleIndex r.handle ≠ i }

/-! ### Boxes (R266, R267) -/

def tileBounds (t : Tile) : Int × Int := boxBounds t.base t.elem t.exts t.strides

/-- Each dimension of a tile whose extent exceeds 1 nests in the next (R267). -/
def tileNests (t : Tile) : Bool :=
  let x (k : Nat) : Int := t.exts.getD k 1
  let s (k : Nat) : Int := t.strides.getD k 0
  (x 1 ≤ 1 || s 1 ≥ x 0 * t.elem) && (x 2 ≤ 1 || s 2 ≥ x 1 * s 1) && (x 3 ≤ 1 || s 3 ≥ x 2 * s 2)

/-- A canonical pair (R267). -/
def canonicalPair (a b : Tile) : Bool :=
  a.elem = b.elem && a.strides.headD 0 = a.elem && b.strides.headD 0 = b.elem &&
  ([1, 2, 3].all fun k => (a.exts.getD k 1 = 1 && b.exts.getD k 1 = 1) ||
    (a.strides.getD k 0 = b.strides.getD k 0 && a.strides.getD k 0 > 0)) && tileNests a && tileNests b

/-- The starts of the dense rows of a box, over the outer dimensions. -/
def rowStarts (base : Int) : List (Nat × Int) → List Int
  | [] => [base]
  | (n, s) :: t => (upFrom 0 n).flatMap fun (c : Nat) => rowStarts (base + c * s) t

/-- Two dense boxes share a byte. -/
def shareByte (a b : Tile) : Bool :=
  let len : Int := a.exts.headD 0 * a.elem
  (rowStarts a.base ((a.exts.zip a.strides).drop 1)).any fun r => boxMeets b.base b.elem r (r + len) (b.exts.zip b.strides).reverse

/-- Two tiles of one context overlap (R267). -/
def tilesOverlap (a b : Tile) : Bool :=
  let i := tileBounds a; let j := tileBounds b
  if i.1 < j.2 ∧ j.1 < i.2 then if canonicalPair a b then shareByte a b else true else false

/-! ### Tenure (R268 to R273) -/

/-- COUNT of a tile (R268, R282). -/
def tileCount (t : Tile) : Nat := if t.state = .write then 1 else t.readers.length

/-- The tenures of a core in its context (R270). -/
def tenuresHeld (c : Context) (h : Holder) : Nat :=
  (c.tiles.filter fun p => match p.2 with | none => false | some t => holdsTile t h).length

/-- A request conflicts with the tenure or seal on a tile (R269). -/
def tenureConflicts (h : Holder) (write : Bool) (t : Tile) : Bool :=
  match t.state with
  | .none => false
  | .read => write && t.readers.any (· ≠ h)
  | .write => t.writer ≠ some h
  | .sealed => write && !t.readers.isEmpty

/-- A request for a tile by an entry meets no tenure or seal in force and no earlier request (R272). `earlier` are the requests before it. -/
def grantable (c : Context) (i : Nat) (t : Tile) (h : Holder) (write : Bool) (earlier : List TenureReq) : Bool :=
  (c.tiles.all fun p => match p.2 with
    | none => true
    | some u => !((p.1 = i || tilesOverlap t u) && tenureConflicts h write u)) &&
  (earlier.all fun r => match tileAt c (handleIndex r.handle) with
    | none => true
    | some u => !(r.holder ≠ h && (r.write || write) && (handleIndex r.handle = i || tilesOverlap t u)))

/-- A tenure granted: the tile moves, and a write grant ends the seals it overlaps (R273). -/
def grantTenure (c : Context) (i : Nat) (t : Tile) (h : Holder) (write : Bool) : Context :=
  if write then
    let c := { c with tiles := c.tiles.map fun p => (p.1, p.2.map fun u =>
      if p.1 ≠ i && u.state = .sealed && u.readers.isEmpty && tilesOverlap t u then { u with state := .none } else u) }
    setTile c i (some { t with state := .write, readers := [], writer := some h })
  else setTile c i (some { t with state := if t.state = .sealed then .sealed else .read, readers := t.readers ++ [h] })

/-- A tenure of a holder dropped from a tile, as by TREL (R273). -/
def dropTenure (t : Tile) (h : Holder → Bool) : Tile :=
  match t.state with
  | .write => if t.writer.any h then { t with state := .none, writer := none } else t
  | .read => let r := t.readers.filter fun x => !h x; { t with readers := r, state := if r.isEmpty then .none else .read }
  | .sealed => { t with readers := t.readers.filter fun x => !h x }
  | .none => t

/-- A tile sealed by its holder (R273, R278). -/
def sealTile (t : Tile) : Tile := { t with state := .sealed, writer := none, readers := [] }

/-- Every tenure of some holders in a context released, and their requests withdrawn (R135, R286). -/
def releaseTenures (c : Context) (h : Holder → Bool) : Context :=
  { c with tiles := c.tiles.map (fun p => (p.1, p.2.map fun t => dropTenure t h)),
           requests := c.requests.filter fun r => !h r.holder }

/-- The handle table after a function-level reset: every entry FREE, the generations kept (R264, R286). -/
def freeHandles (c : Context) : Context := { c with tiles := [], requests := [] }

/-! ### Pages of a tile (R276, R277) -/

/-- The leaf of a page met by TACQ: an entry that has changed meanwhile is walked again, since a PRIVATE page is to be reclassified (R277, R406). -/
def acquireLeaf (s : State) (a : Accessor) (va : Nat) : Res Leaf :=
  match leafFor s a.ctx va with
  | .error e => .error e
  | .ok l => if pteClass l.entry = 0 && !pteClk l.entry then swapLeaf s a.ctx va l else .ok l

/-- The translation and the class rule of R277 for one page met by TACQ. -/
def acquirePage (s : State) (a : Accessor) (write : Bool) (va : Nat) : Res State :=
  match acquireLeaf s a va with
  | .error e => .error e
  | .ok l =>
    match leafAccess s a (if write then .write else .read) va l with
    | .error e => .error e
    | .ok _ =>
      match pteClass l.entry with
      | 3 => faultVa .classLocked va
      | 0 => reclassify s a.ctx va l
      | _ => .ok s

/-- The pages of a bounding interval, in ascending address; a page already reclassified stays so when a later one faults (R277). -/
def acquirePages (s : State) (a : Accessor) (write : Bool) (done : List HwEffect) : List Nat → Res State
  | [] => .ok s
  | va :: rest =>
    match acquirePage s a write va with
    | .error (.trap t) => .error (.trap { t with hw := done ++ t.hw })
    | .error e => .error e
    | .ok s' =>
      let did := match acquireLeaf s a va with | .ok l => if pteClass l.entry = 0 then [HwEffect.reclass l va] else [] | _ => []
      acquirePages s' a write (done ++ did) rest

/-- The 64 KiB pages that meet a bounding interval (R276). -/
def pagesOf (lo hi : Nat) : List Nat := (upFrom (lo / 65536) ((hi + 65535) / 65536 - lo / 65536)).map (· * 65536)

end Sys2Proof.Machine
end

