-- ==== Sys2Proof/Machine/UnitOps.lean ====
section
/-! DEFINITION. Purses, page requests, adapters, the lease, group memberships and flows, as operations on the state (R227 to R229, R247 to
R254, R322 to R331, R389 to R391, R410, R434, R435). -/

namespace Sys2Proof.Machine

/-! ### Frame pools (R410, R411) -/

/-- The frame pool of a tier: 0 HBM, 1 CXL (R410). -/
def poolOf (d : VDev) (tier : Nat) : List Nat := if tier = 0 then d.hbmPool else d.cxlPool
def setPool (d : VDev) (tier : Nat) (l : List Nat) : VDev := if tier = 0 then { d with hbmPool := l } else { d with cxlPool := l }

/-- A frame returned to the pool of its tier, FREE and holding zeros; the zeros are written under new counters (R411, R417). One that is quarantined
stays so (R420). -/
def giveFrame (s : State) (vd tier frame : Nat) : State :=
  let s := stepLines (movePot s frame ⟨0, 0⟩) (linesOf (frame * 65536) 65536)
  let s := { s with mem := tabClear s.mem (frame * 65536) 65536, lineErr := tabClear s.lineErr (frame * 512) 512, touched := tabSet none s.touched frame none }
  let d := vdAt s vd
  setVd s vd (setPool d tier (poolOf d tier ++ [frame]))

/-- The first frame of a pool taken that is FREE: not one that has been quarantined since (R407, R420). -/
def takeFrame (s : State) (vd tier : Nat) : Option (State × Nat) :=
  let d := vdAt s vd
  ((poolOf d tier).find? fun f => (potAt s f).state = 0).map fun f => (setVd s vd (setPool d tier ((poolOf d tier).erase f)), f)

/-- A frame for a page request: of the pool asked for, or of HBM and then CXL; with its tier (R410). -/
def requestFrame (s : State) (vd : Nat) (tier : Option Nat) : Option (State × Nat × Nat) :=
  let from_ (t : Nat) := (takeFrame s vd t).map fun r => (r.1, r.2, t)
  match tier with
  | some t => from_ t
  | none => (from_ 0).orElse fun _ => from_ 1

/-! ### Page requests (R410) -/

/-- POLICY.CONF of a context (R373). -/
def ctxConf (c : Context) : Bool := c.policy.getLsbD 2

/-- A page request of a context posted for the page of an address: the service takes a frame, of the pool that PMIG asks for or of HBM and then CXL,
and asks the host driver; without a frame it asks no one, and the request fails. A second request joins the first (R410). -/
def postPageRequest (s : State) (ctx va : Nat) (l : Leaf) (tier : Option Nat) : State :=
  let page := va / 65536
  let c := ctxAt s ctx
  if s.pageReqs.any fun r => r.ctx = ctx && r.page = page then s
  else match requestFrame s c.vd tier with
  | none => { s with pageReqs := s.pageReqs ++ [⟨ctx, page, l.entry, none, c.vd, ctxConf c⟩] }
  | some (t, f) => { t with pageReqs := s.pageReqs ++ [⟨ctx, page, l.entry, some f, c.vd, ctxConf c⟩],
                            outbox := s.outbox ++ [.pageRequest c.vd (pteFrame l.entry)] }

/-- The page of an address is requested when its leaf is SOFT-ABSENT. -/
def requestIfAbsent (s : State) (ctx va : Nat) : State :=
  match walk s ctx va with
  | .ok l => if pteAbs l.entry then postPageRequest s ctx va l none else s
  | r => absorb s r

/-- A page request of a context is being served. -/
def pageRequested (s : State) (ctx va : Nat) : Bool := s.pageReqs.any fun r => r.ctx = ctx && r.page = va / 65536

/-! ### Adapters (R247 to R254) -/

def attAt (s : State) (i : Nat) : Nat := tabGet 0 s.att i
def setAtt (s : State) (i e : Nat) : State := { s with att := tabSet 0 s.att i e }
def attWorld (e : Nat) : Nat := bitField e 0 8
def attClass (e : Nat) : Nat := bitField e 8 4
def attRank (e : Nat) : Nat := 8 * 2 ^ bitField e 12 2
def attFmt (e : Nat) : Fmt := (fmtOfCode (bitField e 14 6)).getD .f16
def attState (e : Nat) : Nat := bitField e 20 3
def attHome (e : Nat) : Nat := bitField e 23 1
def attLayers (e : Nat) : Nat := bitField e 24 16
def attKf (e : Nat) : Nat := bitField e 40 16
def attNf (e : Nat) : Nat := bitField e 56 16
def attVersion (e : Nat) : Nat := bitField e 72 24
def attCrefs (e : Nat) : Nat := bitField e 96 24
def attOversion (e : Nat) : Nat := bitField e 120 24
def attOrefs (e : Nat) : Nat := bitField e 144 24
def attCptr (e : Nat) : Nat := bitField e 168 52
def attOptr (e : Nat) : Nat := bitField e 220 52
def attTag (e : Nat) : Nat := bitField e 272 44
/-- STATE of an entry whose pages stand at home: CXL 1 or HBM 2 (R249). -/
def attHomeState (e : Nat) : Nat := if attHome e = 1 then 1 else 2

/-- The test of a handle (R256, R258, R259): the entry, unless it is absent, or of another tag or world. -/
def attResolve (s : State) (h world : Nat) : Option (Nat × Nat) :=
  let i := h / 2 ^ 44
  let e := attAt s i
  if attState e = 0 ∨ attTag e ≠ h % 2 ^ 44 ∨ attWorld e ≠ world then none else some (i, e)

/-- The previous version reclaimed: its vault copies are dropped (R252). -/
def reclaimOld (s : State) (i : Nat) : State :=
  let e := attAt s i
  let v := attOversion e
  setAtt { s with cached := s.cached.filter fun p => !(p.adapter = i && p.version = v) } i (setField (setField e 120 24 0) 220 52 0)

/-- The vault copies of an adapter's pages in the adapter caches dropped; a cache holds pages of bound slots only (R249, R254). -/
def dropCopies (s : State) (i : Nat) : State := { s with cached := s.cached.filter fun p => p.adapter ≠ i }

/-- The last unbind of an entry (R249). -/
def lastUnbind (s : State) (i : Nat) : State :=
  let e := attAt s i
  let s := dropCopies s i
  match attState e with
  | 3 => setAtt s i (setField e 20 3 (attHomeState e))
  | 5 =>
    let e := setField (setField (setField e 20 3 0) 272 44 0) 120 24 0
    setAtt s i (setField e 220 52 0)
  | _ => s

/-- A reference to a version dropped (R250, R252). -/
def adapterUnref (s : State) (i version : Nat) : State :=
  let e := attAt s i
  let s := if version = attVersion e then setAtt s i (setField e 96 24 (attCrefs e - 1))
    else
      let s := setAtt s i (setField e 144 24 (attOrefs e - 1))
      if attOrefs e = 1 then reclaimOld s i else s
  let e := attAt s i
  if attCrefs e = 0 ∧ attOrefs e = 0 then lastUnbind s i else s

/-- SLOT of an entry of the latched map (R240): `none` when nothing is latched, 0xFFFF for NONE. -/
def mapEntry (a : ArrayState) (g : Nat) : Option Nat :=
  let v := tabGet 0 a.map g
  if v = 0 then none else some (v - 1)
def mapSlot (a : ArrayState) (g : Nat) : Nat := match mapEntry a g with | none => 0xFFFF | some e => bitField e 0 16
def mapAlpha (a : ArrayState) (g : Nat) : Nat := match mapEntry a g with | none => 0 | some e => bitField e 32 32
/-- A map has been latched since the lease was granted fresh (R241). -/
def mapLatched (a : ArrayState) : Bool := !a.map.isEmpty
/-- A slot is named by the latched map (R250). -/
def mapNames (a : ArrayState) (slot : Nat) : Bool := (upFrom 0 16).any fun g => mapSlot a g = slot && mapLatched a

/-- The slots that neither a binding nor a latched map holds are freed (R250). -/
def sweepSlots (s : State) : State :=
  s.core.slots.foldl (fun s p => match p.2 with
    | some (i, v, 0) =>
      if mapNames s.core.arr p.1 then s
      else adapterUnref { s with core := { s.core with slots := tabSet none s.core.slots p.1 none } } i v
    | _ => s) s

/-- Every slot of the executing core released (R135). -/
def dropSlots (s : State) : State :=
  s.core.slots.foldl (fun s p => match p.2 with
    | some (i, v, _) => adapterUnref { s with core := { s.core with slots := tabSet none s.core.slots p.1 none } } i v
    | none => s) s

/-- The bytes of a row of a factor, of its scales, and the place of factor B in a layer (R248). -/
def factorRow (e ext : Nat) : Nat := ceilDiv (ceilDiv (ext * fmtWidth (attFmt e)) 8) 64 * 64
def factorScaled (e : Nat) : Bool := match attFmt e with | .bf16 | .f16 => false | _ => true
def factorScales (e ext : Nat) : Nat := if factorScaled e then attRank e * ceilDiv ext 32 else 0
def factorB (e : Nat) : Nat := ceilDiv (attRank e * factorRow e (attKf e) + factorScales e (attKf e)) 64 * 64
/-- The pages of a layer: P of R248. -/
def layerPages (e : Nat) : Nat := ceilDiv (factorB e + attRank e * factorRow e (attNf e) + factorScales e (attNf e)) 65536

/-- The bytes from the start of a layer at which element (t, k) of a factor stands, its bit, and the place of its scale (R248): the scales begin behind
the last row as padded (log 116). -/
def factorSpot (e : Nat) (second : Bool) (t k : Nat) : Nat × Nat × Option Nat :=
  let ext := if second then attNf e else attKf e
  let base := if second then factorB e else 0
  let row := base + t * factorRow e ext
  let bit := k * fmtWidth (attFmt e)
  (row + bit / 8, bit % 8,
   if factorScaled e then some (base + attRank e * factorRow e ext + t * ceilDiv ext 32 + k / 32) else none)

/-- The vaults of the adapter cache of a virtual device on a die (R254, R385); a fenced one serves no one (R396). -/
def cacheVaults (s : State) (vd die : Nat) : List Nat :=
  (upFrom 0 96).filterMap fun v =>
    if bitAt (vdField s vd (1536 + 96 * die) 96) v && !s.fenced.contains (1024 + die * 96 + v) then some (die * 96 + v) else none

/-- The vault address at which a page of an adapter's version stands for a core (R250, R254). -/
def factorPlace (s : State) (ctx die i version page : Nat) : Option Nat :=
  let pin := if attState (attAt s i) = 4 then s.pinned.find? fun p => p.die = die && p.adapter = i && p.version = version && p.page = page else none
  match pin with
  | some p => some p.place
  | none => (s.cached.find? fun p => p.ctx = ctx && p.die = die && p.adapter = i && p.version = version && p.page = page).map (·.place)

/-- The first place of the cache that no page holds. -/
def freePlace (s : State) (vaults : List Nat) : Option Nat :=
  vaults.findSome? fun v => (upFrom 0 64).findSome? fun k =>
    let a := v * 4194304 + k * 65536
    if s.cached.any (fun p => p.place = a) then none else some a

/-- Bytes of a factor page table or page may be fetched for an adapter's world: the page ownership check, the key, the line tags and the errors of the
data (R248, R261, R415). -/
def factorRead (s : State) (world pa n : Nat) : Res Unit :=
  inTurn (checkPot s pa world true false 0) <|
    if !keyPresent s pa then fault .worldKeyAbsent
    else inTurn (checkTag s pa n world 0 true) (readErrors s pa n 0)

/-- A page of an adapter's version is brought into the context's adapter cache, the least recently used page that is not kept giving way
(R248, R254). The checks of the table's entry and of the page apply. -/
def fetchFactorPage (s : State) (keep : List Nat) (i version page : Nat) : Res State :=
  let ctx := s.core.ctx
  let die := dieOf s.focus
  match factorPlace s ctx die i version page with
  | some p => .ok { s with cached := (s.cached.filter fun q => q.place ≠ p) ++ (s.cached.filter fun q => q.place = p) }
  | none =>
    let e := attAt s i
    let ptr := (if version = attVersion e then attCptr e else attOptr e) + 8 * page
    match factorRead s (attWorld e) ptr 8 with
    | .error x => .error x
    | .ok () =>
      let pa := bitField (leNat (physBytes s ptr 8)) 0 52
      match factorRead s (attWorld e) pa 65536 with
      | .error x => .error x
      | .ok () =>
        let vaults := cacheVaults s (ctxAt s ctx).vd die
        let s := match freePlace s vaults with
          | some _ => s
          | none =>
            match s.cached.find? fun q => vaults.contains (q.place / 4194304) && !keep.contains q.place with
            | some q => { s with cached := s.cached.filter fun r => r.place ≠ q.place }
            | none => s
        match freePlace s vaults with
        | none => .error .busy
        | some a => .ok { s with vaults := tabPaste s.vaults a 65536 (tabSlice s.mem pa 65536 a),
                                 cached := s.cached ++ [⟨ctx, die, i, version, page, a⟩] }

/-- Pages of one slot fetched in order. -/
def fetchPages (s : State) (i version : Nat) (keep : List Nat) : List Nat → Res State
  | [] => .ok s
  | p :: ps =>
    match fetchFactorPage s keep i version p with
    | .error x => .error x
    | .ok s => fetchPages s i version (((factorPlace s s.core.ctx (dieOf s.focus) i version p).toList) ++ keep) ps

/-! ### The lease (R227, R229) -/

def arrayAt (s : State) (c : Nat) : ClusterArray := tabGet ⟨none, 7⟩ s.arrays c
def setArray (s : State) (c : Nat) (a : ClusterArray) : State := { s with arrays := tabSet ⟨none, 7⟩ s.arrays c a }

/-- The array that a core holds is released; its last grantee stays. The cycles of this step, in which its state moves out, are charged to its virtual
device (R229). -/
def releaseArray (s : State) (core : Nat) : State :=
  let a := arrayAt s (clusterOf core)
  if a.holder = some core then
    setArray (chargePurse s 1 (clusterOf core) (ctxAt s (coreAt s core).ctx).vd (Config.elapsed s.tick)) (clusterOf core) { a with holder := none }
  else s

/-- The right of the executing core returns to NONE: array released, state discarded, map bindings dropped (R227, R240). -/
def dropLease (s : State) : State :=
  let s' := if s.core.lease = .held then releaseArray s s.focus else s
  sweepSlots { s' with core := { s'.core with lease := .none, arr := ArrayState.fresh } }

/-! ### Groups (R322 to R331) -/

def groupAt (c : Core) (k : Nat) : GroupSlot := tabGet GroupSlot.free c.groups k
def setGroup (c : Core) (k : Nat) (g : GroupSlot) : Core := { c with groups := tabSet GroupSlot.free c.groups k g }

/-- An abort notice at one slot: a JOINED slot is ABORTED with the reason; a JOINING one becomes FREE and its GJOIN faults at the
step's end, the reason standing until then (R326). The notice of a refusal reaches JOINING members only (R325). -/
def abortSlot (key reason : Nat) (g : GroupSlot) : GroupSlot :=
  if g.key ≠ key then g
  else if g.state = 2 ∧ reason ≠ 7 then { g with state := 3, reason := reason }
  else if g.state = 1 then { GroupSlot.free with reason := reason }
  else g

/-- An abort notice at every slot of a core. -/
def abortCore (key reason : Nat) (c : Core) : Core :=
  { c with groups := c.groups.filterMap fun p => let g := abortSlot key reason p.2; if g = GroupSlot.free then none else some (p.1, g) }

/-- An abort notice sent to every member of a group on this package, resident or saved, and, by message, elsewhere (R326, R327). -/
def abortGroup (s : State) (key reason : Nat) (away : List Nat) : State :=
  { s with core := abortCore key reason s.core, others := s.others.map fun p => (p.1, abortCore key reason p.2),
           jobs := s.jobs.map fun p => (p.1, p.2.map fun j => { j with image := j.image.map (abortCore key reason) }),
           joins := s.joins.filter fun j => j.key ≠ key,
           outbox := s.outbox ++ (away.filter fun p => p ≠ s.package).eraseDups.map fun p => .group p key 0 1 reason }

/-- A slot of some core, resident or saved, holds a membership under a key. -/
def keyHeld (s : State) (key : Nat) : Bool :=
  let h (c : Core) := c.groups.any fun p => p.2.state ≠ 0 && p.2.key = key
  h s.core || s.others.any (fun p => h p.2) || s.jobs.any fun p => p.2.any fun j => j.image.any h

/-- What is kept for a key is dropped once no slot of the package holds it. -/
def sweepKey (s : State) (key : Nat) : State :=
  if keyHeld s key then s
  else { s with contribs := s.contribs.filter fun c => c.key ≠ key, joins := s.joins.filter fun j => j.key ≠ key }

/-! ### Ports and routes (R388, R433) -/

/-- The ports by which a package is reached: all 32 until the firmware writes its route (R433; log 101). -/
def routeOf (s : State) (pkg : Nat) : Nat := 2 ^ 32 - 1 - tabGet 0 s.routes pkg % 2 ^ 32

/-- One of the ports of a package's route is up. -/
def routeUp (s : State) (pkg : Nat) : Bool := (upFrom 0 32).any fun p => bitAt (routeOf s pkg) p && !s.portsDown.contains p

/-- A route reaches a package (R433). -/
def reachable (s : State) (pkg : Nat) : Bool := !s.peersDown.contains pkg && routeUp s pkg

/-- The routing table's entry of a package written (R433): a peer that the new route reaches is up again. -/
def writeRoute (s : State) (pkg ports : Nat) : State :=
  let s := { s with routes := tabSet 0 s.routes pkg (2 ^ 32 - 1 - ports % 2 ^ 32) }
  if routeUp s pkg then { s with peersDown := s.peersDown.filter (· ≠ pkg) } else s

/-- The port that sends a part to a package: one of those that reach it (R433; log 95). -/
def sendingPort (s : State) (pkg : Nat) : Nat :=
  let ps := (upFrom 0 32).filter fun p => bitAt (routeOf s pkg) p && !s.portsDown.contains p
  ps.getD (Config.sendPort s.tick pkg % ps.length) 0

/-- Flits sent to a package are charged to a virtual device at the port that sends them (R388). -/
def chargeSend (s : State) (vd pkg flits : Nat) : State := chargePurse s 5 (sendingPort s pkg) vd flits

/-- The flits of some payload, 224 bytes to a flit, and at least one (R433). -/
def flitsOf (bytes : Nat) : Nat := max 1 (ceilDiv bytes 224)

/-- A message of a flow of the executing core to its peer, a flit of control (R388, R433, R435). -/
def sendControl (s : State) (pkg : Nat) (m : Message) : State := { chargeSend s (curCtx s).vd pkg 1 with outbox := s.outbox ++ [m] }

/-! ### Announcements (R326, R329, R330) -/

/-- Two contributions are of one member to one operation. -/
def sameEntry (a b : Contribution) : Bool := a.key = b.key && a.seq = b.seq && a.rank = b.rank

/-- The other packages of a group's members, each once. -/
def otherPackages (s : State) (g : GroupSlot) : List Nat := (g.members.filter (· ≠ s.package)).eraseDups

/-- A member's entry, or its contribution after its entry, announced to the members (R329, R330); what goes to other packages is charged at its ports, 8
bytes for each element (R388, log 95). -/
def announce (s : State) (g : GroupSlot) (c : Contribution) : State :=
  let s := (otherPackages s g).foldl (fun s p => chargeSend s (curCtx s).vd p (flitsOf (8 * max c.bits.length c.vals.length))) s
  { s with contribs := (s.contribs.filter fun x => !sameEntry x c) ++ [c],
           outbox := if g.members.all (· = s.package) then s.outbox else s.outbox ++ [.contribute c] }

/-- The join of a JOINING slot withdrawn, here and at the other members' packages (R326). -/
def withdrawJoin (s : State) (g : GroupSlot) : State :=
  { s with joins := s.joins.filter fun j => !(j.key = g.key && j.rank = g.rank),
           outbox := s.outbox ++ (otherPackages s g).map fun p => .group p g.key g.rank 2 0 }

/-- GLEAVE of a JOINED slot of the executing core, or its end-of-job form (R328). -/
def leaveGroup (s : State) (k : Nat) : State :=
  let g := groupAt s.core k
  let s' := { s with core := setGroup s.core k GroupSlot.free }
  let s' := if g.state = 2 then announce s' g ⟨g.key, g.seq, g.rank, 4, 0, 0, 0, 0, false, [], [], true⟩ else s'
  let s' := if g.state = 1 then withdrawJoin s' g else s'
  sweepKey s' g.key

/-- The end of a slot of the executing core by a kill or a reset: an abort notice goes to every member (R326). -/
def killGroup (s : State) (k reason : Nat) : State :=
  let g := groupAt s.core k
  let s' := { s with core := setGroup s.core k GroupSlot.free }
  if g.state = 0 then s' else sweepKey (if g.state = 3 then s' else abortGroup s' g.key reason g.members) g.key

/-! ### Flows (R434, R435) -/

def flowAt (c : Core) (k : Nat) : Flow := tabGet Flow.idle c.flows k
def setFlow (c : Core) (k : Nat) (f : Flow) : Core := { c with flows := tabSet Flow.idle c.flows k f }
def flowState (f : Flow) : Nat := bitField f.fsts.toNat 0 2
def flowPeer (f : Flow) : Nat := bitField f.fcfg.toNat 0 12
def flowOrd (f : Flow) : Bool := f.fcfg.getLsbD 12
def flowKind (f : Flow) : Nat := bitField f.fcfg.toNat 13 2
def flowPbk (f : Flow) : Nat := bitField f.fcfg.toNat 15 3
def flowPbe (f : Flow) : Bool := f.fcfg.getLsbD 18
/-- FSTS as it reads, with SEQ (R434). -/
def flowSts (f : Flow) : Nat := setField f.fsts.toNat 16 24 f.seq

/-- The place of a peer's flow: its package, its context slot, the rank of its core, since each core has flows of its own, and the flow's number (R302,
R433, R434; log 28). -/
def rxKey (pkg ctx rank flow : Nat) : Nat := ((pkg * 512 + ctx) * 2048 + rank % 2048) * 16 + flow % 16
def keyPkg (key : Nat) : Nat := key / 32768 / 512
def keyCtx (key : Nat) : Nat := key / 32768 % 512
def keyRank (key : Nat) : Nat := key / 16 % 2048
def keyFlow (key : Nat) : Nat := key % 16

/-- The peer context that the firmware has paired with a context (R434). -/
def pairedContext (s : State) (ctx pkg : Nat) : Option Nat := (s.pairings.find? fun p => p.1 = ctx && p.2.1 = pkg).map (·.2.2)

/-- A flow in ERROR with a cause (R435). -/
def failFlow (c : Core) (k cause : Nat) : Core :=
  let f := flowAt c k
  if flowState f = 1 then setFlow c k { f with fsts := BitVec.ofNat 64 (setField (setField f.fsts.toNat 0 2 2) 8 8 cause) } else c

end Sys2Proof.Machine
end

