-- ==== Sys2Proof/Machine/LinkOps.lean ====
section
/-! DEFINITION. The parts of a link instruction: how many, their elements and bytes, and their states (R310, R438, R441, R445). -/

namespace Sys2Proof.Machine

/-- The flow that a link instruction names. -/
def linkFlow : Instr → Option Nat
  | .dput f .. | .dget f .. | .dfadd f .. | .dfcas f .. | .dfencef f .. => some f
  | _ => none

/-! ### Parts (R441, R442, R445) -/

/-- A DPUT of rows: its flow's kind at issue sampled a slot descriptor. -/
def sendsRows (e : QEntry) : Bool := match e.instr with | .dput .. => decide (e.descs.length = 3) | _ => false

/-- The local operand whose elements the parts carry or receive: da of DPUT, dd of the others. -/
def localOperand (e : QEntry) : Operand := match e.instr with | .dput .. => operandAt e 1 2 | _ => operandAt e 0 1
/-- The remote operand. -/
def remoteOperand (e : QEntry) : Operand :=
  match e.instr with | .dput .. => operandAt e 0 1 | .dfencef .. => operandAt e 0 2 | _ => operandAt e 1 2

/-- A part that returns bytes for a local result. -/
def returnsBytes (e : QEntry) : Bool := match e.instr with | .dget .. | .dfadd .. | .dfcas .. => true | _ => false

/-- The bytes of an element of a link instruction. -/
def linkElem (e : QEntry) : Nat := elemBytes (descFmt (localOperand e).d)
/-- The bytes of a row (R438). -/
def rowBytes (d : Desc) : Nat := descCount d * elemBytes (descFmt d)
/-- The parts of one row (R441). -/
def rowParts (d : Desc) : Nat := ceilDiv (rowBytes d) 224

/-- The elements of a part under PLAIN (R441). -/
def plainElems (e : QEntry) : Nat := match e.instr with | .dfadd .. | .dfcas .. => 1 | _ => 224 / linkElem e

/-- The parts of a link instruction below its valid count. -/
def partCount (e : QEntry) : Nat :=
  match e.instr with
  | .dfencef .. => 1
  | _ => if sendsRows e then e.count * rowParts (localOperand e).d else ceilDiv e.count (plainElems e)

/-- The first local element of a part, and how many it has. -/
def partElems (e : QEntry) (p : Nat) : Nat × Nat :=
  if sendsRows e then
    let d := (localOperand e).d
    let m := rowParts d
    let per := 224 / linkElem e
    (p / m * descCount d + p % m * per, min per (descCount d - p % m * per))
  else let q := plainElems e; (p * q, min q (e.count - p * q))

/-- The bytes that a part moves, as the counters charge it (R310, R444). -/
def partSize (e : QEntry) (p : Nat) : Nat := match e.instr with | .dfencef .. => 8 | _ => (partElems e p).2 * linkElem e

/-- The progress index at a part: an element, or a row (R445). -/
def partIndex (e : QEntry) (p : Nat) : Nat :=
  match e.instr with | .dfencef .. => 0 | _ => if sendsRows e then p / rowParts (localOperand e).d else (partElems e p).1

def partAt (t : Tab Part) (p : Nat) : Part := tabGet Part.fresh t p
def setPart (t : Tab Part) (p : Nat) (x : Part) : Tab Part := tabSet Part.fresh t p x
/-- The parts of an entry. -/
def partsOf (e : QEntry) : Tab Part := match e.part with | .parts t => t | _ => []

/-- A DPUT whose every part has left the engine for its port, and some not yet performed: the data engine works on later instructions beside it
(R166). -/
def outstanding (e : QEntry) : Bool :=
  !e.stopped &&
  match e.instr, e.part with
  | .dput .., .parts t => (upFrom 0 (partCount e)).all (fun p => (tabGet Part.fresh t p).state ≠ .unsent) &&
      (upFrom 0 (partCount e)).any fun p => (tabGet Part.fresh t p).state ≠ .performed
  | _, _ => false

/-- Only a landing at the peer is left to wait for: that of a DPUT, of the flag of a DFENCEF, or of the writes that a DFENCEF waits for. A fence does not
wait for it (R298; log 100). -/
def onlyLanding (e : QEntry) : Bool :=
  outstanding e || match e.instr with
    | .dfencef .. => !e.stopped && (e.stall.isSome || decide ((partAt (partsOf e) 0).state ≠ .unsent))
    | _ => false

/-! ### The window of a port (R436, R445) -/

/-- A part stands with its port, unperformed and with a sequence number: it has been sent or refused, or it waits to be sent (R436). -/
def partStands (x : Part) : Bool := match x.state with | .sent .. | .refused .. => true | _ => false

/-- A part that its port holds and has never sent. -/
def partHeld (x : Part) : Bool := match x.state with | .refused _ r => decide (r = 0) | _ => false

/-- The first part of an entry that is not performed at its peer. -/
def lowPart (e : QEntry) : Nat :=
  ((upFrom 0 (partCount e)).find? fun p => let x := partAt (partsOf e) p; decide (x.state ≠ .performed) && x.back.isNone).getD (partCount e)

/-- No more than 256 parts of an instruction beyond its progress are sent and not performed (R445). -/
def inWindow (e : QEntry) (p : Nat) : Bool := decide (p < lowPart e + 256)

/-- The parts of a flow that stand with its port, in a core's queue. -/
def flowParts (c : Core) (flow : Nat) : List Part :=
  c.qdata.flatMap fun e => if linkFlow e.instr = some flow then ((partsOf e).map (·.2)).filter partStands else []

/-- A part of an ORDERED flow with a lower sequence number is held and has never been sent, so none behind it is sent: it needs the credits first (R436). -/
def heldBefore (c : Core) (flow seq : Nat) : Bool :=
  flowOrd (flowAt c flow) && (flowParts c flow).any fun x => partHeld x && decide (0 < (seq + 2 ^ 24 - x.seq) % 2 ^ 24) &&
    decide ((seq + 2 ^ 24 - x.seq) % 2 ^ 24 < 2 ^ 23)

/-! ### The end of a flow (R435, R438) -/

/-- The slot of a row as it is sent (R441). -/
def slotOfRow (s : State) (e : QEntry) (row : Nat) : Res (State × Nat) :=
  (presentVal s (operandAt e 2 3) row).map fun r => (r.1, truncBits (indexVal r.2) 32)

/-- The parts of an entry that are not performed. -/
def partsLeft (e : QEntry) : List Nat := (upFrom 0 (partCount e)).filter fun p => (partAt (partsOf e) p).state ≠ .performed

/-- An entry has been abandoned. -/
def isAbandoned (e : QEntry) : Bool := match e.part with | .abandoned _ => true | _ => false

/-- The notices of the rows of an entry that are abandoned with some part not performed; the slot is that of a part's copy, or is read now (R438). A slot
that cannot be read gives none. -/
def missingNotices (s : State) (flow : Nat) (f : Flow) (e : QEntry) : List Message :=
  if !sendsRows e || isAbandoned e then []
  else
    let m := rowParts (localOperand e).d
    ((partsLeft e).map fun p => p / m).eraseDups.filterMap fun r =>
      let slot := match (upFrom (r * m) m).find? fun p => !(partAt (partsOf e) p).copy.isEmpty with
        | some p => some (leNat ((partAt (partsOf e) p).copy.take 4))
        | none => match slotOfRow { s with cur := e.stream } e r with | .ok x => some x.2 | .error _ => none
      slot.map fun k => Message.flow (flowPeer f) s.core.ctx s.core.jobRank flow 3 (descBase (remoteOperand e).d * 2 ^ 32 + k)

/-- The notices of every row of a flow of the executing core that is abandoned (R438). -/
def flowNotices (s : State) (flow : Nat) : List Message :=
  s.core.qdata.flatMap fun e => if linkFlow e.instr = some flow then missingNotices s flow (flowAt s.core flow) e else []

/-- Every flow of the executing core ended, its peer told, with the rows that a kill abandons (R135, R435, R438). -/
def endFlows (s : State) (killed : Bool) : State :=
  let told (p : Nat × Flow) : List Message :=
    if flowState p.2 = 0 then []
    else (if killed then flowNotices s p.1 else []) ++
      [.flow (flowPeer p.2) s.core.ctx s.core.jobRank p.1 (if killed || flowState p.2 = 2 then 2 else 1) 0]
  let t := s.core.flows.foldl (fun t p => (told p).foldl (fun t m => sendControl t (flowPeer p.2) m) t) s
  { t with core := { t.core with flows := [] } }

/-! ### Responses (R433, R437) -/

/-- The status of a final refusal, and of a part whose end-to-end CRC failed. -/
def finalStatus : Nat := 65536

/-- The rank of the core that sends a part (log 28). -/
def argRank (arg : Nat) : Nat := arg / 2 ^ 32 % 2 ^ 32

/-- The response to a part. -/
def respond (s : State) (key seq type status : Nat) (bs : List Byte) : State :=
  { s with outbox := s.outbox ++ [.response (keyPkg key) (keyCtx key) (keyRank key) (keyFlow key) seq type status bs] }

end Sys2Proof.Machine
end

