-- ==== Sys2Proof/Machine/Job.lean ====
section
/-! DEFINITION. The save region, the end of a job and its completion (R132 to R136, R342, R347, R353, R356, R393). -/

namespace Sys2Proof.Machine

/-! ### The save region (R353, R356) -/

/-- The virtual address of the frame of a rank (R353). -/
def frameVa (c : Context) (rank : Nat) : Nat := bitField c.savebase.toNat 0 55 + rank * 2 ^ 20

/-- The physical address of bytes of one page of the save region, as the UX9 reaches them: without a permission test. They stop the access when the page
fails translation or the ownership check, and a migration holds it (R353, R359, R412). -/
def framePa (s : State) (k va n : Nat) (stores : Bool) : Res Nat :=
  match walk s k va with
  | .error e => .error e
  | .ok l =>
    match leafWorld s k va l with
    | .error e => .error e
    | .ok () =>
      if pteAbs l.entry then faultVa .absentStore va
      else if pteMig l.entry then .error .busy
      else
        let pa := leafPa l va
        match checkPot s pa (ctxAt s k).world false (pteClass l.entry = 1) va with
        | .error e => .error e
        | .ok () =>
          if !keyPresent s pa then faultVa .worldKeyAbsent va
          else (if stores then storeErrors s pa n va else readErrors s pa n va).map fun _ => pa

/-- Bytes of a page overwritten with those of an image. -/
def pasteSpan (s : State) (k pa n : Nat) (img : Memory) (off : Nat) : State :=
  let mem := tabPaste s.mem pa n (tabSlice img off n pa)
  { dirtyLines s pa n (ownerTag s k pa) with mem := mem, touched := stillPrivate s.touched mem pa n }

/-- What the UX9 writes to the save region: the state with it done, or held until a migration ends; or, where a page cannot be reached, the state as it
is left (R359, R412). -/
abbrev Written := Except State State

/-- `n` bytes of the save region overwritten with those of an image. A failure after a migration kills the job of `kill`, with its cause. -/
def pasteRegion (s : State) (k : Nat) (kill : Option (Nat × Nat)) (img : Memory) : Nat → Nat → Nat → Nat → Written
  | 0, _, _, n => if n = 0 then .ok s else .error s
  | fuel + 1, va, off, n =>
    if n = 0 then .ok s
    else
      let here := min n (65536 - va % 65536)
      match framePa s k va here true with
      | .ok pa => pasteRegion (pasteSpan s k pa here img off) k kill img fuel (va + here) (off + here) (n - here)
      | .error .busy =>
        let held : HeldStep := .frame kill va here (tabSlice img off here 0)
        pasteRegion { s with holding := s.holding ++ [(k, held)] } k kill img fuel (va + here) (off + here) (n - here)
      | r => .error (absorb s r)

/-- `n` bytes of the save region as an image that starts at an offset. -/
def readRegion (s : State) (k : Nat) : Nat → Nat → Nat → Nat → Res Memory
  | 0, va, _, n => if n = 0 then .ok [] else faultVa .noMapping va
  | fuel + 1, va, off, n =>
    if n = 0 then .ok []
    else
      let here := min n (65536 - va % 65536)
      match framePa s k va here false with
      | .error e => .error e
      | .ok pa => (readRegion s k fuel (va + here) (off + here) (n - here)).map fun m => tabSlice s.mem pa here off ++ m

/-- The 4-byte words of an image from an offset, by number; a word of zeros is not listed. -/
def wordsFrom (off : Nat) : Memory → Tab Nat
  | [] => []
  | (a, b) :: t =>
    let k := (a - off) / 4
    let v := b.toNat * 256 ^ ((a - off) % 4)
    match wordsFrom off t with
    | (j, w) :: r => if j = k then (k, v + w) :: r else (k, v) :: (j, w) :: r
    | [] => [(k, v)]

/-! ### The array save area (R226, R364) -/

/-- The bytes of the accumulators that a move copies, at their offsets in the frame. -/
def accBytes (a : ArrayState) : List (Nat × List Byte) :=
  (if a.alive then a.acc.map fun p => (0xC000 + 4 * p.1, natLe 4 p.2) else []) ++
  (if a.sideLive then a.side.map fun p => (0x2C000 + 4 * p.1, natLe 4 p.2) else [])

/-- An image that holds some pieces. -/
def imageOf (ps : List (Nat × List Byte)) : Memory := ps.foldl (fun m p => tabSetRange 0 m p.1 p.2) []

/-- The state of a write, whether or not it could be made. -/
def Written.state : Written → State
  | .ok s => s
  | .error s => s

/-- The array state of a core moved to its context's save area: Acc when Alive, Side when SideLive (R226; log 97). -/
def saveArray (s : State) (core : Nat) : State :=
  let c := coreAt s core
  let va := frameVa (ctxAt s c.ctx) c.jobRank
  let put (live : Bool) (off n : Nat) (s : State) : State :=
    if live then Written.state (pasteRegion s c.ctx none (imageOf (accBytes c.arr)) 4 (va + off) off n) else s
  put c.arr.sideLive 0x2C000 0x8000 (put c.arr.alive 0xC000 0x20000 s)

/-- The array state of a core as its save area holds it: a set that was not copied is +0 (R226; log 97). -/
def restoredArray (s : State) (core : Nat) : Res ArrayState :=
  let c := coreAt s core
  let va := frameVa (ctxAt s c.ctx) c.jobRank
  let get (live : Bool) (off n : Nat) : Res (Tab Nat) := if live then (readRegion s c.ctx 4 (va + off) off n).map (wordsFrom off) else .ok []
  match get c.arr.alive 0xC000 0x20000 with
  | .error e => .error e
  | .ok acc => (get c.arr.sideLive 0x2C000 0x8000).map fun side => { c.arr with acc := acc, side := side }

/-- Words of 8 bytes, little-endian. -/
def wordsLe (ws : List Word) : List Byte := ws.flatMap fun w => natLe 8 w.toNat

/-- A list padded with zero bytes or cut to a length. -/
def padTo (n : Nat) (bs : List Byte) : List Byte := bs.take n ++ List.replicate (n - bs.length) 0

/-- LSTACK of a trap record and of a frame (R356, R364). -/
def lstackBytes (l : List LoopEntry) : List Byte := padTo 192 (l.flatMap fun e => wordsLe [e.start, e.stop, e.left])
/-- RSTACK (R356). -/
def rstackBytes (r : List Word) : List Byte := padTo 64 (wordsLe r)

/-- INFO of a trap record (R356). -/
def recordInfo (st : StreamName) (r : TrapRecord) : Nat :=
  r.cause + streamNum st * 2 ^ 8 + r.engine * 2 ^ 10 + b2n r.async * 2 ^ 13 + b2n r.level * 2 ^ 14 + b2n r.valid * 2 ^ 15 + b2n r.mett * 2 ^ 16

/-- The 512 bytes of a trap record (R356). -/
def recordBytes (st : StreamName) (r : TrapRecord) : List Byte :=
  natLe 8 (recordInfo st r) ++ wordsLe [r.pc, r.words, r.esw] ++ natLe 8 r.progress ++ wordsLe [r.va] ++ List.replicate 16 0 ++
  lstackBytes r.loops ++ rstackBytes r.rets ++ natLe 8 (r.loops.length + r.rets.length * 16) ++ List.replicate 184 0

/-- A stream's trap record written to its core's frame (R356). A failure after a migration kills the job with the cause of the trap (R359). -/
def writeRecord (s : State) (core : Nat) (st : StreamName) (r : TrapRecord) (cause : Option Nat) : Written :=
  let c := coreAt s core
  pasteRegion s c.ctx (c.job.bind fun n => cause.map fun x => (n, x)) (imageOf [(0, recordBytes st r)]) 2
    (frameVa (ctxAt s c.ctx) c.jobRank + 512 * streamNum st) 0 512

/-! ### Completion (R135, R342, R346, R347) -/

/-- The lowest-numbered context of a virtual device (R342). -/
def firstContext (s : State) (v : Nat) : Option Nat := (s.ctxs.find? fun p => p.2.state ≠ .free && p.2.vd = v).map (·.1)

/-- QCB and QCTX (R337). -/
def queueBound (q : Queue) : Bool := q.qctl.getLsbD 41
def queueCtxField (q : Queue) : Nat := bitField q.qctl.toNat 32 9

/-- The context through which a queue's ring and its records' objects are reached (R342). -/
def queueContext (s : State) (v q : Nat) : Option Nat :=
  if queueBound (queueAt s v q) then
    let k := queueCtxField (queueAt s v q)
    if (ctxAt s k).state ≠ .free ∧ (ctxAt s k).vd = v then some k else none
  else firstContext s v

/-- An event that is to be written, in the order in which events arise (R347). -/
def postEvent (s : State) (v : Nat) (e : HeldEvent) : State :=
  let d := vdAt s v
  if e.rgen = d.rgen then setVd s v { d with held := d.held ++ [e] } else s

/-- The completion of a job posted to its queue: DONE is raised with the event (R135, R347). A job read before a reset raises the DONE of before
the reset, which is gone (R348). -/
def postCompletion (s : State) (j : Job) (status cause : Nat) : State :=
  let q := queueAt s j.vd j.queue
  let s := if j.rgen = (vdAt s j.vd).rgen then setQueue s j.vd j.queue { q with done := (q.done + 1) % 2 ^ 32 } else s
  postEvent s j.vd ⟨j.rcd.user, j.index, j.queue, status, cause, j.rgen⟩

/-- The status in the event of a job that has ended (R346). -/
def statusOf (st : JobState) : Nat := match st with | .retired => 0 | .refused => 2 | _ => 1

/-- The end of a job in a final state, its cores given back: the completion is posted at once when the record names no completion word, and
otherwise waits for the increment (R135). -/
def finishAs (s : State) (n : Nat) (j : Job) (st : JobState) (cause : Nat) : State :=
  let j := { j with state := st, cores := [], image := [] }
  if j.rcd.csem = 0 then postCompletion (setJob s n { j with ending := none }) j (statusOf st) cause
  else setJob s n { j with ending := some cause }

/-- The end of a job that has run or been killed. -/
def finishJob (s : State) (n : Nat) (j : Job) (retired : Bool) (cause : Nat) : State := finishAs s n j (if retired then .retired else .killed) cause

/-! ### End actions (R135) -/

/-- A stream of a job that has ended: IDLE, its stacks discarded, its registers and draws as the job left them (R80, R82, R304). -/
def idleStream (t : Stream) : Stream := { Stream.reset with pc := t.pc, regs := t.regs, draws := t.draws }

/-- A core whose job has ended: scrubbed, its queues empty and its ranking unit IDLE, and the registers as the job left them (R135, R304). -/
def idleCore (c : Core) : Core :=
  { Core.reset with
    c := idleStream c.c, d := idleStream c.d, v := idleStream c.v, x := idleStream c.x, descs := c.descs, sems := c.sems, pbs := c.pbs,
    rings := c.rings, vstat := c.vstat, vctlLo := c.vctlLo, vctlSeed := c.vctlSeed, cycle := c.cycle, tcmp := c.tcmp, tepc := c.tepc,
    tstat := c.tstat, tscr0 := c.tscr0, tscr1 := c.tscr1 }

/-- The actions of R135 on the executing core, after which it holds no job; a kill removes what is not performed from its pending-byte counters
(R310). -/
def endCore (s : State) (killed : Bool) (reason : Nat) : State :=
  let s := dropSlots (dropLease s)
  let s := s.core.groups.foldl (fun s p => if killed then killGroup s p.1 reason else leaveGroup s p.1) s
  let s := endFlows s killed
  { s with core := let c := idleCore s.core; if killed then { c with pbs := [] } else c }

/-- A partition record without a fenced unit: a cluster, a vault or an L2 way of its die (R396). -/
def dropUnit (kind i r : Nat) : Nat :=
  match kind with
  | 0 => setField (setField r i 1 0) (48 + i) 1 0
  | 1 => setField r (96 + i) 1 0
  | _ => setField (setField r (192 + i) 1 0) (208 + i) 1 0

/-- What kind of unit a number names: 0 a cluster, 1 a vault, 2 an L2 way, 3 a fabric port, 4 a CXL port. -/
def unitKind (unit : Nat) : Nat := if unit < 1024 then 0 else if unit < 2048 then 1 else if unit < 3072 then 2 else if unit < 3584 then 3 else 4

/-- What the fence of a unit takes out of use besides: a port acts as its link down, and the lines of a way are written back (R432, R451). -/
def closeUnit (s : State) (unit : Nat) : State :=
  match unitKind unit with
  | 2 => flushWay s unit
  | 3 => { s with portsDown := setAdd (unit - 3072) s.portsDown }
  | 4 => { s with cxlDown := setAdd (unit - 3584) s.cxlDown, outbox := s.outbox ++ [.error (causeCode .poisonCxl) 0 0 (unit - 3584)] }
  | _ => s

/-- A unit is lent (R393). -/
def isLent (s : State) (u : Nat) : Bool := match tabGet .home s.margins u with | .lent .. => true | _ => false

/-- A unit fenced: it leaves every partition record of its die, and SCRUB_FAIL is reported to the host driver (R396, R451). A lent one is scrubbed first,
once its borrowing jobs have ended (R393, R394). -/
def fenceUnit (s : State) (unit : Nat) : State :=
  if s.fenced.contains unit then s
  else
    let kind := unitKind unit
    let per := match kind with | 0 => 48 | 1 => 96 | _ => 16
    let i := unit % 1024
    let mine (p : Nat) : Bool := decide (kind < 3) && p / 16 = i / per
    let drop (r : Nat) : Nat := dropUnit kind (i % per) r
    let parts := (upFrom 0 64).foldl (fun t p => if mine p then tabSet 0 t p (drop (tabGet 0 t p)) else t) s.parts
    closeUnit
      { s with fenced := setAdd unit s.fenced, parts := parts,
               partsNew := s.partsNew.map (fun q => (q.1, if mine q.1 then q.2.map drop else q.2)),
               margins := if (kind = 0 ∨ kind = 2) ∧ !isLent s unit then tabSet .home s.margins unit .fenced else s.margins,
               outbox := s.outbox ++ [.error 0x4E 0 0 unit] } unit

/-- An uncorrectable error of a unit: three within 24 hours, 151.2 × 10^12 cycles, fence it (R451). -/
def noteError (s : State) (unit : Nat) : State :=
  let l := ((tabGet [] s.errTimes unit).filter fun t => decide (s.now < t + 151200000000000)) ++ [s.now]
  let s := { s with errTimes := tabSet [] s.errTimes unit l }
  if l.length ≥ 3 then fenceUnit s unit else s

/-- A unit whose scrub has been made is FENCED when the scrub fails (R396, R451; log 26). -/
def scrubbed (s : State) (u : Nat) : State := if Config.scrubPasses s.tick u then s else fenceUnit s u

/-- Vaults set to zero (R394, R397). -/
def zeroVaults (s : State) (vs : List Nat) : State :=
  vs.foldl (fun s v => scrubbed { s with vaults := tabClear s.vaults (v * 4194304) 4194304, vaultErr := tabClear s.vaultErr (v * 65536) 65536 } (1024 + v)) s

/-- A margin unit whose scrub has been made is HOME again, or FENCED: when the scrub fails, or where the unit was fenced while it was lent (R393,
R396). -/
def homeUnit (s : State) (u : Nat) : State :=
  let s := scrubbed s u
  { s with margins := tabSet .home s.margins u (if s.fenced.contains u then .fenced else .home) }

/-- The scrub of a returned margin cluster: the vaults above it are set to zero (R393, R394). Its cores hold nothing once they hold no job. -/
def scrubUnit (s : State) (u : Nat) : State := homeUnit (zeroVaults s [2 * u, 2 * u + 1]) u

/-- The scrub of a returned margin way: its dirty lines are written back and none is left in it (R394). -/
def scrubWay (s : State) (u : Nat) : State := homeUnit (flushWay s u) u

/-- The partition of whose margin a cluster is. -/
def marginOwner (s : State) (u : Nat) : Option Nat := (upFrom (u / 48 * 16) 16).find? fun p => bitAt (partField s p 48 48) (u % 48)

/-- The margin ways of a partition, by unit number (R383). -/
def marginWays (s : State) (p : Nat) : List Nat := (upFrom (2048 + p / 16 * 16) 16).filter fun w => bitAt (partField s p 208 16) (w % 16)

/-- The margin ways of a partition are lent with its first cluster, to the same partition (R393). -/
def lendWays (s : State) (owner part : Nat) : State :=
  { s with margins := (marginWays s owner).foldl (fun t w => if tabGet .home t w = .home then tabSet .home t w (.lent part owner) else t) s.margins }

/-- Those that a partition has borrowed return, and are scrubbed, with the last cluster that it has borrowed (R393, R394). -/
def returnWays (s : State) (owner part : Nat) : State :=
  let mine (u : Nat) : Bool := tabGet .home s.margins u = .lent part owner
  if (upFrom (owner / 16 * 48) 48).any mine then s else ((upFrom (2048 + owner / 16 * 16) 16).filter mine).foldl scrubWay s

/-- A unit lent to another partition whose borrowing jobs have ended is RETURNING, and is scrubbed (R393). -/
def returnMargin (s : State) (core : Nat) : State :=
  let u := clusterOf core
  match tabGet .home s.margins u with
  | .lent part owner =>
    if (upFrom (u * 8) 8).any fun c => (coreAt s c).job.isSome then s
    else returnWays (scrubUnit { s with margins := tabSet .home s.margins u .returning } u) owner part
  | _ => s

/-- The end actions on each core of a job. -/
def endCores (s : State) (cores : List Nat) (killed : Bool) (reason : Nat) : State :=
  let home := s.focus
  let s := cores.foldl (fun s c => scrubbed (endCore (focusOn s c) killed reason) (clusterOf c)) s
  cores.foldl returnMargin (focusOn s home)

/-- The end actions for a saved core, which stands on no core of the package (R134, R135). -/
def endSaved (reason : Nat) (s : State) (c : Core) : State :=
  let t := endCore { s with core := c, others := tabInsert s.others s.focus s.core } true reason
  { t with core := tabGet Core.reset t.others s.focus, others := tabErase t.others s.focus }

/-- The end actions for the cores of the saved image of a job, which is given up. -/
def endImage (s : State) (n : Nat) (j : Job) (reason : Nat) : State :=
  j.image.foldl (endSaved reason) (setJob s n { j with image := [] })

/-- The context of a job that ends becomes IDLE (R355), its tenures released (R135). -/
def leaveContext (s : State) (n : Nat) (j : Job) : State :=
  let c := releaseTenures (ctxAt s j.ctx) fun h => h.job = n
  setCtx s j.ctx { c with state := if c.state = .free then .free else .idle, job := none, haltPending := false }

/-- The flows that peers hold towards a context whose job is killed, or whose function is reset, are refused from now on (R437). -/
def deadFlows (s : State) (k : Nat) : State :=
  { s with rxFlows := s.rxFlows.map fun p =>
      (p.1, if s.pairings.any fun q => q.1 = k && q.2.1 = keyPkg p.1 && q.2.2 = keyCtx p.1 then { p.2 with dead := true, held := [] } else p.2) }

/-- A write of the UX9 to a save region, which is on its way. -/
def isFrame : HeldStep → Bool
  | .frame .. => true
  | _ => false

/-- What the holding buffers keep for a context is discarded (R80, R348); a part of a peer among it is refused finally, as after a kill or an FLR
(R397, R437). -/
def dropHeld (s : State) (k : Nat) : State :=
  s.holding.foldl (fun t p => match p with
    | (c, .arrive pkg ctx flow q) => if c = k then respond t (rxKey pkg ctx (argRank q.arg) flow) q.seq 5 finalStatus [] else t
    | _ => t) { s with holding := s.holding.filter fun p => decide (p.1 ≠ k) || isFrame p.2 }

/-- A job ends KILLED with a cause (R134, R135, R362); `reason` is that of the abort notices (R326). -/
def killJobFor (s : State) (n cause reason : Nat) : State :=
  match jobAt s n with
  | none => s
  | some j =>
    match j.state with
    | .reading | .queued => finishJob s n j false cause
    | .running => finishJob (deadFlows (endCores (leaveContext (dropHeld s j.ctx) n j) j.cores true reason) j.ctx) n j false cause
    | .saved => finishJob (deadFlows (endImage (leaveContext (dropHeld s j.ctx) n j) n j reason) j.ctx) n j false cause
    | .retired | .killed | .refused => s

/-- A job ends KILLED with a cause; its groups hear that a member was killed (R326). -/
def killJob (s : State) (n cause : Nat) : State := killJobFor s n cause 1

/-- A job ends RETIRED (R134, R135). -/
def retireJob (s : State) (n : Nat) : State :=
  match jobAt s n with
  | none => s
  | some j => finishJob (endCores (leaveContext s n j) j.cores false 0) n j true 0

/-- A stream and its engines have nothing left to do (R134). -/
def coreMet (c : Core) : Bool :=
  [c.c, c.d, c.v, c.x].all (fun t => t.state = .met && t.fault.isNone) &&
  c.qdata.isEmpty && c.qvec.isEmpty && c.qmat.isEmpty && c.qgrp.isEmpty

/-- All met (R134). -/
def allMet (s : State) (j : Job) : Bool := j.cores.all fun c => coreMet (coreAt s c)

/-- A job that is all met and not halted retires (R134, R80 note i). -/
def retireIfMet (s : State) (n : Nat) : State :=
  match jobAt s n with
  | some j => if j.state = .running ∧ (ctxAt s j.ctx).state = .running ∧ allMet s j then retireJob s n else s
  | none => s

/-- `retireIfMet` for the executing core's job. -/
def retireCur (s : State) : State := match s.core.job with | some n => retireIfMet s n | none => s

/-! ### Ranks and coordinates (R130, R131) -/

/-- The spatial levels of a job, with their launch extents, innermost first (R130, R131). -/
def spatialLevels (j : Job) : List (Nat × Nat) :=
  (((upFrom 0 j.kern.levels.length).zip j.kern.levels).filterMap fun p =>
    if p.2.1 = .temporal then none else some (p.1, j.rcd.exts.getD p.1 0)).reverse

/-- The job size P (R130). -/
def jobSize (j : Job) : Nat := (spatialLevels j).foldl (fun n p => n * p.2) 1

/-- The coordinates of a rank, by spatial level (R131). -/
def coordsOf : List (Nat × Nat) → Nat → List (Nat × Nat)
  | [], _ => []
  | (l, e) :: rest, r => (l, r % e) :: coordsOf rest (r / e)

/-- The coordinate of a rank at a level; 0 at a temporal level and beyond the last (R131, R140). -/
def coordAt (j : Job) (q level : Nat) : Nat := ((coordsOf (spatialLevels j) q).find? fun p => p.1 = level).elim 0 (·.2)

/-- The launch extent of a level, 1 beyond the last (R140). -/
def extentAt (j : Job) (level : Nat) : Nat := if level < j.kern.levels.length then j.rcd.exts.getD level 0 else 1

end Sys2Proof.Machine
end

