-- ==== Sys2Proof/Machine/Ops.lean ====
section
/-! DEFINITION. The shared operations of a step: taking an exception and returning from one (R356 to R361, R374, R377, R378), waits (R81,
R317), and the completion of an instruction with its back-edge (R83, R91, R92). -/

namespace Sys2Proof.Machine

/-- The outcome of a step. -/
abbrev Outcome := Host.Outcome State Fault Refusal

/-! ### Fields of TSTAT (R373) -/

def tstatInh (c : Core) : Bool := c.tstat.getLsbD 0
def setInh (c : Core) (b : Bool) : Core := { c with tstat := BitVec.ofNat 64 (setField c.tstat.toNat 0 1 (b2n b)) }
/-- PEND of an engine stream. -/
def tstatPend (c : Core) (st : StreamName) : Bool := st ≠ .c && c.tstat.getLsbD (streamNum st)
def setPend (c : Core) (st : StreamName) (b : Bool) : Core :=
  if st = .c then c else { c with tstat := BitVec.ofNat 64 (setField c.tstat.toNat (streamNum st) 1 (b2n b)) }

/-! ### Interrupt messages (R347, R367) -/

/-- An MSI-X message, or its pending bit while the vector is masked. -/
def sendMsix (s : State) (v vector : Nat) : State :=
  let d := vdAt s v
  let m := if vector = 0 then d.msix0 else d.msix1
  if !d.msixOn then s
  else if m.masked || d.msixMask then
    setVd s v (if vector = 0 then { d with msix0 := { m with pending := true } } else { d with msix1 := { m with pending := true } })
  else { s with outbox := s.outbox ++ [.msix v vector m.addr m.data] }

/-! ### Waits (R81, R317) -/

/-- A stream of a core changed. -/
def updStream (s : State) (core : Nat) (st : StreamName) (f : Stream → Stream) : State :=
  let c := coreAt s core
  putCore s core (setStream c st (f (streamOf c st)))

/-- The queue of an engine. -/
def queueOf (c : Core) : EngineName → List QEntry
  | .data => c.qdata | .vector => c.qvec | .matrix => c.qmat | .group => c.qgrp
def setQueueOf (c : Core) (e : EngineName) (q : List QEntry) : Core :=
  match e with
  | .data => { c with qdata := q }
  | .vector => { c with qvec := q }
  | .matrix => { c with qmat := q }
  | .group => { c with qgrp := q }

/-! ### Draws (R306, R307) -/

def drawAt (t : Stream) (k : Nat) : BitVec 32 := tabGet 0 t.draws k
def addDraw (t : Stream) (k : Nat) : Stream := { t with draws := tabSet 0 t.draws k (drawAt t k + 1) }

/-- The semaphores that a sync word takes, in the order T0, T1, T2 (R56). -/
def takesOf (sy : Sync) : List Nat := sy.take0.toList ++ sy.take1.toList ++ sy.take2.toList

/-- The draws of a sync word (R307). -/
def drawTakes (t : Stream) (ks : List Nat) : Stream := ks.foldl addDraw t

/-- The draws of an instruction that counts as not issued, restored (R81, R165). -/
def undrawTakes (t : Stream) (ks : List Nat) : Stream :=
  ks.foldl (fun t k => { t with draws := tabSet 0 t.draws k (drawAt t k - 1) }) t

/-- The sync word of an engine instruction (R56). -/
def syncOf : Instr → Option Sync
  | .vadd _ _ _ _ y | .vsub _ _ _ _ y | .vmul _ _ _ _ y | .vfma _ _ _ _ y | .vfms _ _ _ _ y | .vdiv _ _ _ _ y | .vmin _ _ _ _ y
  | .vmax _ _ _ _ y | .vabs _ _ _ y | .vneg _ _ _ y | .vand _ _ _ y | .vor _ _ _ y | .vxor _ _ _ y | .vnot _ _ y | .vshl _ _ _ y
  | .vshr _ _ _ y | .vsar _ _ _ y | .vcmp _ _ _ _ y | .vsel _ _ _ _ y | .vcvt _ _ _ y | .vexp2 _ _ _ y | .vlog2 _ _ _ y | .vrcp _ _ _ y
  | .vrsq _ _ _ y | .vsqrt _ _ _ y | .vtanh _ _ _ y | .vsig _ _ _ y | .verf _ _ _ y | .vsin _ _ _ y | .vcos _ _ _ y | .vclamp _ _ _ _ y
  | .vscale _ _ _ _ y | .vbcast _ _ _ _ y | .viota _ _ _ _ _ y | .vperm _ _ _ _ _ y | .vmov _ _ y | .vred _ _ _ _ _ y | .vscan _ _ _ _ _ y
  | .vdot _ _ _ _ _ y | .vdist _ _ _ _ _ _ y | .vthrc _ _ _ _ _ y | .vcomp _ _ _ _ _ _ y | .vexpd _ _ _ _ _ y | .vhist _ _ _ _ _ y
  | .vxform _ _ _ _ y | .vmaxi _ _ _ _ y | .vsort _ _ _ _ _ y | .vranki _ _ _ y | .vrankp _ _ y | .vranko _ _ _ y
  | .xlease y | .xfree _ y | .xcellop _ y | .xzero _ _ y | .xpass _ _ _ y | .xside _ _ y | .xsideb _ y | .xdrain _ _ _ y | .xbias _ _ _ y
  | .ares _ _ _ y | .arel _ y | .aqry _ _ _ y | .apub _ _ _ y
  | .dcopy _ _ _ _ y | .dgather _ _ _ _ _ _ y | .dscatter _ _ _ _ _ _ y | .dscata _ _ _ _ _ _ y | .dfill _ _ y | .dpref _ y | .dpreq _ _ _ y
  | .dflush _ y | .dinv _ y | .dput _ _ _ _ y | .dget _ _ _ y | .dfadd _ _ _ _ y | .dfcas _ _ _ _ y | .dfencef _ _ _ y
  | .dflowOpen _ _ _ y | .dflowClose _ _ _ y | .dflowReset _ _ _ y | .dflowStat _ _ _ y
  | .gsync _ y | .gred _ _ _ _ _ y | .gbcast _ _ _ _ y | .ggath _ _ _ y => some y
  | _ => none

/-- XLEASE, whose wait is no completion wait (R81). -/
def isXlease : Instr → Bool
  | .xlease _ => true
  | _ => false

/-- An engine instruction that has not taken effect removed from its queue, as though it had not issued (R81, R258, R443). -/
def removeHeld (s : State) (core : Nat) (st : StreamName) (seq : Nat) : State :=
  let c := coreAt s core
  let gone := (c.qdata ++ c.qmat).filter fun e => e.seq = seq
  let keep (q : List QEntry) := q.filter fun e => e.seq ≠ seq
  let leases := gone.any fun e => isXlease e.instr
  let c := { c with qdata := keep c.qdata, qmat := keep c.qmat,
                    lease := if leases && decide (c.lease = .waiting) then .none else c.lease }
  let c := gone.foldl (fun c e => match syncOf e.instr with
    | some y => setStream c st (undrawTakes (streamOf c st) (takesOf y))
    | none => c) c
  putCore s core c

/-- A stream's pending wait abandoned (R81, R165, R286, R317, R326): what it had asked for is withdrawn. -/
def abandonWait (s : State) (core : Nat) (st : StreamName) : State :=
  let c := coreAt s core
  let t := streamOf c st
  match t.pending with
  | none => s
  | some p =>
    let s := match p.on with
      | .tenure id => let x := ctxAt s c.ctx; setCtx s c.ctx { x with requests := x.requests.filter fun r => r.id ≠ id }
      | .lease => putCore s core { c with lease := if c.lease = .reclaim then .lapsed else c.lease }
      | .group k =>
        let g := groupAt c k
        if g.state = 1 then
          withdrawJoin (putCore s core (setGroup c k GroupSlot.free)) g
        else s
      | .result seq => removeHeld s core st seq
      | _ => s
    updStream s core st fun t => { t with pending := none, state := if t.state = .wait then .run else t.state }

/-- A handler entry abandons the wait of an engine stream on a fence or another completion, on the result of its AQRY, APUB or DFLOW, and, past the
takes, on its ring claims or the reclaim of the array: the instruction issues again (R81, R165, R258). The request for the array stands. -/
def abandonHeld (s : State) (core : Nat) (st : StreamName) : State :=
  let c := coreAt s core
  match (streamOf c st).pending with
  | none => s
  | some p =>
    match p.on with
    | .result seq =>
      if (c.qdata ++ c.qmat).any fun e => e.seq = seq && isXlease e.instr then s else abandonWait s core st
    | .engines .. | .sealing .. | .page _ | .ring .. => abandonWait s core st
    | .lease => updStream s core st fun t => { t with pending := none, state := .run }
    | _ => s

/-- The words of the executing instruction, joined (R356). -/
def wordsOf (ws : List Word32) : Word :=
  match ws with
  | [] => 0
  | [a] => a.setWidth 64
  | a :: b :: _ => a.setWidth 64 ||| (b.setWidth 64 <<< 32)

/-- The executing stream enters WAIT on a condition, its instruction unissued, with what that has sampled (R80, R165, R317). -/
def waitWith (s : State) (w : Wait) (r : Option Ready) : State :=
  setCur s { curStream s with state := .wait, pending := some ⟨w, s.now, bitField (curCtx s).waitctl.toNat 0 6, wordsOf s.words, r⟩ }

/-- The executing stream enters WAIT on a condition with nothing sampled. -/
def waitOn (s : State) (w : Wait) : State := waitWith s w none

/-- A request made at an arbiter: it clears IDLE, and sets SHORT when it is not eligible (R391). -/
def requestPurse (s : State) (kind inst vd : Nat) : State :=
  if funded s kind inst vd then setPurse s kind inst vd { purseAt s kind inst vd with idle := false } else shortPurse s kind inst vd

/-- The executing core's request at the lease arbiter of its array (R229, R391). -/
def requestLease (s : State) : State := requestPurse s 1 (clusterOf s.focus) (curCtx s).vd

/-- A LAPSED right of the executing core posts its reclaim (R227). -/
def postReclaim (s : State) : State :=
  if s.core.lease = .lapsed then requestLease { s with core := { s.core with lease := .reclaim } } else s

/-- The executing stream enters WAIT past step 4 of R165, for the reclaim of the array, which is posted, or for a ring (R158, R243). -/
def waitReady (s : State) (w : Wait) (r : Ready) : State := waitWith (if w = .lease then postReclaim s else s) w (some r)

/-! ### Taking an exception (R356 to R360) -/

/-- The delegation bit of a cause (R373). -/
def delegated (c : Context) (cause : Nat) : Bool :=
  if cause < 64 then c.tdel0.getLsbD cause else c.tdel1.getLsbD (cause - 64)

/-- Handler entry of the C stream (R360): the position and status move into TEPC and TSTAT, the depths become 0, and the PC is TVEC. What the core's
engine streams hold is abandoned (R81, R165, R258). -/
def enterHandler (s : State) (core : Nat) (resume : Word) : State :=
  let s := [StreamName.d, .v, .x].foldl (fun s st => abandonHeld s core st) s
  let c := coreAt s core
  let c := setInh { c with tepc := resume } true
  putCore s core { c with c := { c.c with loops := [], rets := [], pc := (ctxAt s c.ctx).tvec, state := .run, pending := none } }

/-- A trap of class D that the debugger serves: WAITING and NEW are raised (R359, R367). -/
def debugTrap (s : State) (core : Nat) (st : StreamName) : State :=
  let s := updStream s core st fun t => { t with record := { t.record with debug := true } }
  let v := (ctxAt s (coreAt s core).ctx).vd
  let d := vdAt s v
  let s := setVd s v { d with dbgsts := BitVec.ofNat 64 (setField d.dbgsts.toNat 16 1 1) }
  if d.dbgctl.getLsbD 2 then s else sendMsix s v 1

/-- A trap is of class D and its context's debugger serves it (row 1 of R359, R370). -/
def debugServes (s : State) (core cause : Nat) : Bool :=
  let k := (coreAt s core).ctx
  causeClass cause = .debug && (vdAt s (ctxAt s k).vd).dbgctl.getLsbD 0 && userDebug s k

/-- A trap is the handler's to serve (row 3 of R359). -/
def handlerServes (s : State) (core cause : Nat) : Bool :=
  let c := coreAt s core
  let x := ctxAt s c.ctx
  delegated x cause && decide (x.tvec ≠ 0) && decide (c.c.state ≠ .met)

/-- A trap kills its job: it is of class K, or row 2 or row 4 of R359 serves it. -/
def trapKills (s : State) (core cause : Nat) (level : Bool) : Bool :=
  causeClass cause = .killing || (!debugServes s core cause && (level || !handlerServes s core cause))

/-- The record of the fault that a stream holds for its next boundary (R177, R356). -/
def faultRecord (c : Core) (st : StreamName) : Option TrapRecord :=
  let x := streamOf c st
  if x.state = .trapped then none
  else x.fault.map fun f =>
    { cause := causeCode f.cause, engine := f.num, async := f.async, level := false, valid := true, mett := x.state = .met, pc := f.pc, words := f.words,
      esw := f.esw, progress := f.progress, va := f.va, loops := x.loops, rets := x.rets, debug := false }

/-- The traps that meet one of a stream on its core, by stream in the order C, D, V, X: that one, and the faults that its other streams hold
(R361; log 99). -/
def trapsTogether (c : Core) (st : StreamName) (r : TrapRecord) : List (StreamName × TrapRecord) :=
  [StreamName.c, .d, .v, .x].filterMap fun n => if n = st then some (st, r) else (faultRecord c n).map fun q => (n, q)

/-- A trap of a stream kills the job: the records of the traps that meet it are written too, and the cause is that of the first of them that kills
(R361). -/
def killByTrap (s : State) (core : Nat) (st : StreamName) (r : TrapRecord) : State :=
  let c := coreAt s core
  let ts := trapsTogether c st r
  let cause := ((ts.find? fun p => trapKills s core p.2.cause p.2.level).map (·.2.cause)).getD r.cause
  let s := ts.foldl (fun s p => if p.1 = st then s else Written.state (writeRecord s core p.1 p.2 none)) s
  c.job.elim s fun n => killJob s n cause

/-- The service of a trap whose record stands (R359). -/
def serveTrap (s : State) (core : Nat) (st : StreamName) (r : TrapRecord) (resume : Word) : State :=
  if trapKills s core r.cause r.level then killByTrap s core st r
  else if debugServes s core r.cause then debugTrap s core st
  else if st = .c then enterHandler s core resume
  else putCore s core (setPend (coreAt s core) st true)

/-- What a trap is raised with (R356): where it stands, which engine, whether it is asynchronous, the PC and words of the record, and the PC that
the C stream would execute next. -/
structure TrapAt where
  core : Nat
  st : StreamName
  engine : Nat
  async : Bool
  pc : Word
  words : Word
  resume : Word
  deriving DecidableEq, Repr

/-- The trap record of a trap on a stream as it stands (R356). -/
def trapRecord (s : State) (w : TrapAt) (t : TrapInfo) : TrapRecord :=
  let c := coreAt s w.core
  let x := streamOf c w.st
  { cause := causeCode t.cause, engine := w.engine, async := w.async, level := w.st = .c && tstatInh c, valid := true, mett := x.state = .met,
    pc := w.pc, words := w.words, esw := BitVec.ofNat 64 t.esw, progress := t.progress, va := BitVec.ofNat 64 t.va, loops := x.loops, rets := x.rets,
    debug := false }

/-- A stream with its trap record, in TRAPPED (R80, R356). A single step stands until an instruction has completed, and a STEP_DONE that is due stands
too; displaced words stand where the trap came before them, the timer's or an engine's (R368, log 91). -/
def trappedWith (r : TrapRecord) (t : Stream) : Stream :=
  { t with state := .trapped, record := r, pending := none, displaced := if r.async || r.engine ≠ 0 then t.displaced else none }

/-- A record written and its trap served. A record that cannot be written kills the job with the cause (R359). -/
def recordTrap (s : State) (w : TrapAt) (r : TrapRecord) : State :=
  match writeRecord s w.core w.st r (some r.cause) with
  | .error u => (coreAt u w.core).job.elim u fun n => killJob u n r.cause
  | .ok u => serveTrap (updStream u w.core w.st (trappedWith r)) w.core w.st r w.resume

/-- What the hardware does stands, and the stream's wait is abandoned, before its trap is recorded. -/
def beforeTrap (s : State) (w : TrapAt) (t : TrapInfo) : State := abandonWait (t.hw.foldl (fun s e => applyHw s w.core e) s) w.core w.st

/-- Taking a trap: the record is written, the stream enters TRAPPED, and the trap is served (R356 to R360). -/
def raiseTrap (s : State) (w : TrapAt) (t : TrapInfo) : State := recordTrap (beforeTrap s w t) w (trapRecord (beforeTrap s w t) w t)

/-- The executing stream traps at its instruction (R356). -/
def trapCur (s : State) (t : TrapInfo) : State :=
  let x := curStream s
  raiseTrap s ⟨s.focus, s.cur, 0, false, x.pc, wordsOf s.words, x.pc⟩ t

/-- The VALID bit of a record cleared on the return from its trap, in the frame too (R356). -/
def clearRecord (s : State) (core : Nat) (st : StreamName) : State :=
  let s := updStream s core st fun t => { t with record := { t.record with valid := false, debug := false } }
  Written.state (writeRecord s core st (streamOf (coreAt s core) st).record none)

/-- Return of R80: a TRAPPED stream runs on from where it stands, or is MET again when its record has METT. -/
def returnStream (s : State) (core : Nat) (st : StreamName) : State :=
  let t := streamOf (coreAt s core) st
  if t.state ≠ .trapped then s
  else
    let s := clearRecord s core st
    let c := coreAt s core
    let s := putCore s core { c with qdata := c.qdata.map (fun e => if e.stream = st then { e with stopped := false } else e),
                                     qvec := c.qvec.map (fun e => if e.stream = st then { e with stopped := false } else e),
                                     qmat := c.qmat.map (fun e => if e.stream = st then { e with stopped := false } else e),
                                     qgrp := c.qgrp.map (fun e => if e.stream = st then { e with stopped := false } else e) }
    updStream s core st fun t => { t with state := if t.record.mett then .met else .run }

/-! ### Completion of an instruction -/

/-- The length in bytes of the executing instruction, its extension word included (R60). -/
def instrBytes (s : State) : Nat := 4 * s.words.length

/-- The displaced words that are left when an instruction completes: those of another level have not been executed (R368). -/
def keptWords (s : State) : Option (Bool × Word32 × Word32) := (curStream s).displaced.filter fun d => d.1 ≠ levelP s

/-- STEP_DONE at a PC (R368). -/
def stepDone (s : State) (pc : Word) : State :=
  raiseTrap (setCur s { curStream s with step := .off }) ⟨s.focus, s.cur, 0, false, pc, 0, pc⟩ { cause := .stepDone }

/-- An instruction completes and the stream continues at a PC. A single step ends here with STEP_DONE (R368). -/
def completeAt (s : State) (pc : Word) : State :=
  let t := curStream s
  let s' := setCur s { t with pc := pc, displaced := keptWords s, state := .run, pending := none }
  if t.step = .armed (levelP s) then stepDone s' pc else s'

/-- The back-edge test of R91 on the loop stack, innermost entry last: the next PC and the loops that are left. -/
def backEdge (a len : Nat) (next : Word) : List LoopEntry → Word × List LoopEntry
  | [] => (next, [])
  | e :: outer =>
    if a < e.stop.toNat ∧ e.stop.toNat ≤ a + len then
      if e.left ≠ 1 then (e.start, { e with left := e.left - 1 } :: outer) else backEdge a len next outer
    else (next, e :: outer)

/-- The stack of loops with its innermost entry first. -/
def innermost (l : List LoopEntry) : List LoopEntry := l.reverse

/-- An instruction of `len` bytes completes without a change of flow (R91). -/
def advanceBy (s : State) (len : Nat) : State :=
  let t := curStream s
  let r := backEdge t.pc.toNat len (t.pc + BitVec.ofNat 64 len) (innermost t.loops)
  completeAt (setCur s { t with loops := innermost r.2 }) r.1

/-- The executing instruction completes without a change of flow (R83, R91). -/
def advance (s : State) : State := advanceBy s (instrBytes s)

/-- LoopExit of R92, innermost entry first. -/
def loopExit (t : Word) : List LoopEntry → List LoopEntry
  | [] => []
  | e :: outer => if e.start.toNat ≤ t.toNat ∧ t.toNat < e.stop.toNat then e :: outer else loopExit t outer

/-- A taken branch to an address (R86, R92). -/
def branchTo (s : State) (target : Word) : State :=
  let t := curStream s
  completeAt (setCur s { t with loops := innermost (loopExit target (innermost t.loops)) }) target

/-- What becomes of a computation that may stop (R18, R81, R356): the next state, a trap, a wait, or no change while it is held. An access held on a page
that migrates has not been sent towards memory (R82, R412, log 109). -/
def settle (s : State) : Res State → State
  | .ok t => t
  | .error (.trap t) => trapCur s t
  | .error (.wait w) => waitOn s w
  | .error (.claim w r) => waitReady s w r
  | .error .busy => { s with held := true }
  | .error (.short kind inst vd die) => shortAccess { s with held := true } kind inst vd die

/-- An instruction whose effect may stop; on success it completes and the flow goes on. -/
def run (s : State) (r : Res State) : Outcome := .next (settle s (r.map advance))

/-- An instruction whose effect cannot stop. -/
def finish (s : State) : Outcome := .next (advance s)

/-- An instruction that may only be executed at level P (R354): at level U it traps PRIVILEGED. -/
def atLevelP (s : State) (r : Outcome) : Outcome := if levelP s then r else .next (trapCur s { cause := .privileged })

end Sys2Proof.Machine
end

