-- ==== Sys2Proof/Machine/Engine.lean ====
section
/-! DEFINITION. Engine instructions: their issue (R137, R151, R158, R163, R165, R307), their elements and blocks (R18, R31, R45, R170, R177),
their completion (R165, R308) and their faults (R177). -/

namespace Sys2Proof.Machine

/-! ### Semaphores (R306 to R308) -/

def semAt (c : Core) (k : Nat) : BitVec 32 := tabGet 0 c.sems k
def setSem (c : Core) (k : Nat) (v : BitVec 32) : Core := { c with sems := tabSet 0 c.sems k v }
/-- Every take holds at once: a semaphore named in j fields must be j ahead of the draw count (R307). -/
def takesHold (c : Core) (t : Stream) (ks : List Nat) : Bool :=
  ks.all fun k => wrapGE (semAt c k) (drawAt t k + BitVec.ofNat 32 (ks.filter (· = k)).length)

/-! ### Rings (R157 to R163) -/

def ringAt (c : Core) (n : Nat) : Nat := (tabGet 0 c.rings n).toNat
def setRing (c : Core) (n r : Nat) : Core := { c with rings := tabSet 0 c.rings n (BitVec.ofNat 128 r) }
def ringSlots (r : Nat) : Nat := bitField r 0 16
def ringFree (r : Nat) : Nat := bitField r 16 16
def ringFill (r : Nat) : Nat := bitField r 32 16
def ringWslot (r : Nat) : Nat := bitField r 48 16
def ringRslot (r : Nat) : Nat := bitField r 64 16
def ringWpend (r : Nat) : Nat := bitField r 80 16
def ringRpend (r : Nat) : Nat := bitField r 96 16
def ringErr (r : Nat) : Bool := bitAt r 112

/-- A descriptor operand at issue: its number in ESW, its descriptor, and whether the instruction writes it. -/
structure OpUse where
  code : Nat
  d : Desc
  writes : Bool
  deriving DecidableEq, Repr

/-- RING_BAD of an operand, which sets ERR of its ring (R163). -/
def ringFault {α : Type} (u : OpUse) : Res α :=
  .error (.trap { cause := .ringBad, esw := u.code * 2 ^ 16, hw := [.ringErr u.d.nreg] })

/-- The ring conditions of R163 for one operand, against the register. -/
def ringUseBad (c : Core) (us : List OpUse) (u : OpUse) : Bool :=
  let r := ringAt c u.d.nreg
  let span := elemSpan u.d
  ringSlots r = 0 || ringErr r || u.d.slots ≠ ringSlots r || u.d.claim > ringSlots r ||
  (u.d.peek && (if u.writes then ringWpend r else ringRpend r) < u.d.claim) ||
  (us.filter fun v => v.d.type = 4 && v.d.nreg = u.d.nreg).length > 1 ||
  (descN u.d ≠ 0 && (span.1 < 0 || span.2 > (u.d.claim * u.d.slotb : Nat)))

/-- The ring faults of an instruction's operands, judged before any claim (R163). -/
def ringChecks (c : Core) (us : List OpUse) : Res Unit :=
  match us.find? fun u => u.d.type = 4 && ringUseBad c us u with
  | some u => ringFault u
  | none => .ok ()

/-- The claim of one operand cannot be made yet (R158). -/
def ringShort (c : Core) (u : OpUse) : Bool :=
  let r := ringAt c u.d.nreg
  u.d.type = 4 && !u.d.peek && (if u.writes then ringFree r else ringFill r) < u.d.claim

/-- The claim of one operand (R158): the core and the first slot. -/
def claimRing (c : Core) (u : OpUse) : Core × Nat :=
  let r := ringAt c u.d.nreg
  let w := u.d.claim
  let n := ringSlots r
  if u.d.peek then (c, ((if u.writes then ringWslot r else ringRslot r) + n - w % n) % n)
  else if u.writes then
    (setRing c u.d.nreg (setField (setField (setField r 16 16 (ringFree r - w)) 80 16 (ringWpend r + w)) 48 16 ((ringWslot r + w) % n)), ringWslot r)
  else
    (setRing c u.d.nreg (setField (setField (setField r 32 16 (ringFill r - w)) 96 16 (ringRpend r + w)) 64 16 ((ringRslot r + w) % n)), ringRslot r)

/-- The first ring of some operands that has too few slots (R158). -/
def shortRing (c : Core) (us : List OpUse) : Option Wait := (us.find? (ringShort c)).map fun u => .ring u.d.nreg u.writes u.d.claim

/-- The claims of an instruction, all made together (R158, R165; log 51). -/
def claimRings (c : Core) (us : List OpUse) : Core × List Claim :=
  us.foldl (fun a u => if u.d.type = 4 then let r := claimRing a.1 u; (r.1, a.2 ++ [⟨u.code, u.d.nreg, r.2⟩]) else a) (c, [])

/-! ### Issue (R165) -/

/-- What an engine instruction brings to its issue: its engine, its sync word, the descriptors it samples with their places in ESW and whether it
writes them, the h registers it reads, its count, its partial state and its last
checks. -/
structure IssueSpec where
  engine : EngineName
  sync : Sync
  /-- (ESW code, descriptor register, written). -/
  uses : List (Nat × Nat × Bool)
  hregs : List Nat
  /-- Descriptor registers sampled behind the operands, which are neither checked nor claimed (R333). -/
  beside : List Nat := []
  part : Partial := .none
  /-- The issue rows that stand below the ring rows of the fault table (R224). -/
  late : List Desc → List Word → Res Unit := fun _ _ => .ok ()
  /-- It acts on the array, which a LAPSED right reclaims before the ring claims (R243). -/
  array : Bool := false

/-- The queue of an engine holds at most 16 instructions (R364). -/
def queueFull (c : Core) (e : EngineName) : Bool := (queueOf c e).length ≥ 16

/-- An instruction enters its engine's queue (R165 step 6). -/
def enqueue (s : State) (e : EngineName) (q : QEntry) : State :=
  { s with core := { setQueueOf s.core e (queueOf s.core e ++ [{ q with seq := s.core.issued }]) with issued := s.core.issued + 1 } }

/-- An entry of the executing instruction. -/
def entryOf (s : State) (i : Instr) : QEntry :=
  { instr := i, stream := s.cur, seq := 0, pc := (curStream s).pc, words := wordsOf s.words, progress := 0, count := 0, descs := [], hvals := [],
    claims := [], vctl := s.core.vctlLo, seed := s.core.vctlSeed, part := .none, started := false, stopped := false, stall := none }

/-- The sampled operands (R151). -/
def sampleUses (s : State) (uses : List (Nat × Nat × Bool)) : List OpUse :=
  uses.map fun u => ⟨u.1, descOf (tabGet 0 s.core.descs (u.2.1 % 32)), u.2.2⟩

/-- An XFREE stands in the queue (R243). -/
def freeQueued (c : Core) : Bool := c.qmat.any fun e => match e.instr with | .xfree .. => true | _ => false

/-- An array instruction waits for the reclaim: the right is LAPSED, or a request that a halt has left stands with nothing queued behind it
(R227, R229, R243). -/
def needsReclaim (c : Core) : Bool := c.lease = .lapsed || (c.lease = .reclaim && c.qmat.isEmpty)

/-- The sampled operands of an instruction that waits past step 4. -/
def readyUses (r : Ready) : List OpUse := r.uses.map fun u => ⟨u.1, descOf u.2.1, u.2.2⟩

/-- Steps 5 and 6 of R165: the reclaim of the array that an array instruction needs (R243), the ring claims, the draws of its takes, and the queue. The
takes are drawn here, so an abandoned wait leaves them undrawn. -/
def claimAndQueue (s : State) (r : Ready) : Res State :=
  if r.array && needsReclaim s.core && !freeQueued s.core then .error (.claim .lease r)
  else match shortRing s.core (readyUses r) with
  | some w => .error (.claim w r)
  | none =>
    let c := claimRings s.core (readyUses r)
    .ok (enqueue (setCur { s with core := c.1 } (drawTakes (streamOf c.1 s.cur) r.takes)) r.engine { r.entry with claims := c.2 })

/-- Steps 2 to 6 of R165. `count` is the instruction's count and `checks` are its issue checks, which give the state with what issue adds at step 4. A
fault leaves the takes undrawn. The instruction begins only when its engine's queue has room (R81; log 93), so that its operands are sampled once. -/
def issueWith (s : State) (i : Instr) (sp : IssueSpec) (count : List Desc → Nat) (checks : State → List Desc → List Word → Nat → Res State) : Res State :=
  let t := curStream s
  let ks := takesOf sp.sync
  if queueFull s.core sp.engine then .error .busy
  else if !takesHold s.core t ks then .error (.wait (.takes ks))
  else
    let us := sampleUses s sp.uses
    let ds := us.map (·.d)
    let hv := sp.hregs.map (regOf t)
    let c := count ds
    let n := match sp.sync.rows with | none => c | some r => min (regOf t r).toNat c
    match checks s ds hv n with
    | .error e => .error e
    | .ok s' =>
      match ringChecks s'.core us with
      | .error e => .error e
      | .ok () =>
      match sp.late ds hv with
      | .error e => .error e
      | .ok () =>
        claimAndQueue s'
          { engine := sp.engine, uses := sp.uses.map fun u => (u.1, tabGet 0 s.core.descs (u.2.1 % 32), u.2.2), takes := ks, array := sp.array,
            entry := { entryOf s i with count := n, descs := (sp.uses.map (·.2.1) ++ sp.beside).map (fun k => tabGet 0 s.core.descs (k % 32)), hvals := hv,
                                        part := sp.part } }

/-- `issueWith` for an instruction whose issue changes nothing but the queue. -/
def issue (s : State) (i : Instr) (sp : IssueSpec) (count : List Desc → Nat) (checks : List Desc → List Word → Nat → Res Unit) : Res State :=
  issueWith s i sp count fun s ds hv n => (checks ds hv n).map fun _ => s

/-- The checks of several parts, in order. -/
def inOrder : List (Res Unit) → Res Unit
  | [] => .ok ()
  | .ok () :: rs => inOrder rs
  | .error e :: _ => .error e

/-- The overlap rule of R168 and R181 for each source against a destination; `strict` sources have no exception. The fault names the first source
that overlaps dd, or the second destination (log 75). -/
def noOverlap (dst : Desc) (dcode : Nat) (srcs : List (Nat × Desc × Bool)) : Res Unit :=
  match srcs.find? fun u => if u.2.2 then intersects u.2.1 dst else overlaps u.2.1 dst with
  | some u => faultOp .vecOverlap (if dcode = 1 then u.1 else dcode)
  | none => .ok ()

/-! ### The element rows of the fault tables (R176, R199; log 81) -/

/-- Bytes of an operand that the processing of an element touches, and how. -/
structure Touch where
  o : Operand
  spot : Int
  n : Nat
  kind : Access

/-- The bytes of an element of an operand, and those of its scale (R147, R149). -/
def elemTouches (o : Operand) (i : Nat) (kind : Access) : List Touch :=
  ⟨o, (elemSpot o i).1, elemBytes (descFmt o.d), kind⟩ ::
    match descScale o.d with | none => [] | some sf => [⟨o, scaleSpot o i, scaleBytes sf, kind⟩]

/-- The bytes lie in the operand's space (R147). -/
def touchRange (s : State) (t : Touch) : Res Unit :=
  withOperand t.o.code <|
  match descSpace t.o.d with
  | .spad => require (decide (0 ≤ t.spot) && spadOk s t.spot.toNat t.n) .spadRange
  | .vault => require (inVault t.o t.spot t.n && vaultOk s t.spot.toNat t.n) .vaultRange
  | _ => require (decide (0 ≤ t.spot ∧ t.spot + t.n ≤ 2 ^ 55)) .noMapping

/-- The page of the bytes translates and is not of class DEVICE; the answer says whether it is absent (R176). -/
def touchPage (s : State) (t : Touch) : Res Bool :=
  match descSpace t.o.d with
  | .virt =>
    withOperand t.o.code <|
    match translate s (engineAccessor s) t.kind t.spot.toNat with
    | .error e => .error e
    | .ok (.absent l) => if pteClass l.entry = 3 then faultVa .deviceAccessSize t.spot.toNat else .ok true
    | .ok (.here l _) => if pteClass l.entry = 3 then faultVa .deviceAccessSize t.spot.toNat else .ok false
  | _ => .ok false

/-- The fault of bytes on an absent page: NO_MAPPING for a source that no residency mask covers, ABSENT_STORE for a destination (R176). -/
def touchAbsent (s : State) (masked source : Bool) (t : Touch) : Res Unit :=
  match touchPage s t with
  | .ok true =>
    if source then
      if t.kind = .read && !masked then .error (.trap { cause := .noMapping, esw := t.o.code * 2 ^ 16, va := t.spot.toNat }) else .ok ()
    else if t.kind = .read then .ok () else .error (.trap { cause := .absentStore, esw := t.o.code * 2 ^ 16, va := t.spot.toNat })
  | _ => .ok ()

/-- The rows of the fault table for what one element touches, row by row: the ranges, the pages, the absent sources, the absent destinations
(rows 6 to 9 of R176, row 6 of R199). Within a row the operands come in the order given (log 81). -/
def checkTouches (s : State) (masked : Bool) (ts : List Touch) : Res Unit :=
  inOrder (ts.map (touchRange s) ++ ts.map (fun t => (touchPage s t).map fun _ => ()) ++
    ts.map (touchAbsent s masked true) ++ ts.map (touchAbsent s masked false))

/-! ### Running an entry -/

/-- What a unit of an engine instruction leaves: the state, the entry, and whether the instruction has completed. -/
structure UnitOut where
  s : State
  e : QEntry
  done : Bool

/-- A unit of an engine instruction. -/
abbrev UnitRes := Res UnitOut

/-- The flags of an element or block at a progress index (R45). -/
def entryFlags (s : State) (e : QEntry) (fl : Flags) : Res State := raiseFlags s e.vctl fl

/-- Progress of R17: the entry stands at an index, and is done there. -/
def progressTo (s : State) (e : QEntry) (i total : Nat) : UnitRes := .ok ⟨s, { e with progress := i, stall := none }, decide (i ≥ total)⟩

/-- The first fault of an element's range or translation is judged before its value is written; the flags come first in R45, so an enabled
exception leaves the element unwritten. -/
def writeChecked (s : State) (e : QEntry) (dd : Operand) (i bits : Nat) (fl : Flags) : Res State :=
  match putElem s dd i bits with
  | .error er => .error er
  | .ok s' => match entryFlags s e fl with
    | .error er => .error er
    | .ok _ => .ok (mergeFlags s' fl)

/-- The elements of a block of a block-scaled destination below a limit, with their indices. -/
def blockIndices (d : Desc) (i limit : Nat) : List Nat := let b := blockOf d i; upFrom b.1 (min b.2 (limit - b.1))

/-- A list of values formed one after another over the state. -/
def mapRes {α : Type} (f : State → Nat → Res (State × α)) (s : State) : List Nat → Res (State × List α)
  | [] => .ok (s, [])
  | i :: is =>
    match f s i with
    | .error e => .error e
    | .ok (s, x) => match mapRes f s is with
      | .error e => .error e
      | .ok (s, xs) => .ok (s, x :: xs)

/-- Elements of an operand written in ascending index. -/
def putElems (s : State) (o : Operand) : List (Nat × Nat) → Res State
  | [] => .ok s
  | (i, b) :: r => match putElem s o i b with
    | .error e => .error e
    | .ok s => putElems s o r

/-- A block of a block-scaled destination written under R31: its scale, then its elements; an enabled exception leaves the whole block unwritten
(R186). -/
def writeBlock (s : State) (e : QEntry) (dd : Operand) (rm : Rm) (is : List Nat) (xs : List FV) : Res State :=
  match descScale dd.d with
  | none => .ok s
  | some sf =>
    let r := roundingOf e.vctl e.seed rm dd.d.tag 0
    let b := roundBlock sf (descFmt dd.d) r ((xs.map (·.1)).zip is)
    let fl := xs.foldl (fun a x => a ||| x.2) b.2.2
    match opStore s dd (scaleSpot dd (is.headD 0)) (natLe (scaleBytes sf) b.1) with
    | .error er => .error er
    | .ok s' => match putElems s' dd (is.zip b.2.1) with
      | .error er => .error er
      | .ok s'' => match entryFlags s e fl with
        | .error er => .error er
        | .ok _ => .ok (mergeFlags s'' fl)

/-- A value formed for an element of a destination, whose range is judged with the element's: elements fault in ascending order (R176, R199). -/
def placed {α : Type} (dd : Operand) (f : State → Nat → Res (State × α)) (s : State) (i : Nat) : Res (State × α) :=
  match f s i with
  | .error e => .error e
  | .ok (s, x) => (checkTouches s false (elemTouches dd i .write)).map fun _ => (s, x)

/-- One unit of an instruction that writes `f i` into each element `i` of a destination below a limit: an element, or a block when the
destination is block-scaled (R170, R186). -/
def unitWrite (s : State) (e : QEntry) (dd : Operand) (rm : Rm) (limit : Nat) (f : State → Nat → Res (State × FV)) : UnitRes :=
  if e.progress ≥ limit then .ok ⟨s, e, true⟩
  else if (descScale dd.d).isSome then
    let is := blockIndices dd.d e.progress limit
    match mapRes (placed dd f) s is with
    | .error er => .error er
    | .ok (s', xs) =>
      match writeBlock s' e dd rm is xs with
      | .error er => .error er
      | .ok s'' => progressTo s'' e (is.headD 0 + is.length) limit
  else
    match f s e.progress with
    | .error er => .error er
    | .ok (s', x) =>
      let r := roundTo x.1 (descFmt dd.d) (roundingOf e.vctl e.seed rm dd.d.tag e.progress)
      match writeChecked s' e dd e.progress r.1 (x.2 ||| r.2) with
      | .error er => .error er
      | .ok s'' => progressTo s'' e (e.progress + 1) limit

/-- One unit of an instruction that writes raw bits into each element of a destination below a limit (R174, R190). -/
def unitRaw (s : State) (e : QEntry) (dd : Operand) (limit : Nat) (f : State → Nat → Res (State × Nat)) : UnitRes :=
  if e.progress ≥ limit then .ok ⟨s, e, true⟩
  else match f s e.progress with
  | .error er => .error er
  | .ok (s', b) => match putElem s' dd e.progress b with
    | .error er => .error er
    | .ok s'' => progressTo s'' e (e.progress + 1) limit

/-- The raw bits of an element without a residency mask. -/
def presentBits (s : State) (o : Operand) (i : Nat) : Res (State × Nat) :=
  match elemBits s o i with
  | .error e => .error e
  | .ok (_, none) => .error (.trap { cause := .noMapping, esw := o.code * 2 ^ 16, va := (elemSpot o i).1.toNat })
  | .ok (s, some b) => .ok (s, b)

/-- Raw Move of R170: the formats agree and neither is scaled. -/
def rawMove (src dd : Desc) : Bool := src.fmt = dd.fmt && src.sfmt = 0 && dd.sfmt = 0

/-! ### Completion and faults of an engine (R165, R177, R308) -/

/-- The engine's number in INFO (R356). -/
def engineNum (i : Instr) (e : EngineName) : Nat :=
  match e with
  | .data => match i with
    | .dput .. | .dget .. | .dfadd .. | .dfcas .. | .dfencef .. | .dflowOpen .. | .dflowClose .. | .dflowReset .. | .dflowStat .. => 7
    | _ => 1
  | .vector => match i with | .vranki .. | .vrankp .. | .vranko .. => 3 | _ => 2
  | .matrix => match i with | .ares .. | .arel .. | .aqry .. | .apub .. => 6 | _ => 4
  | .group => 5

/-- The give of a completed instruction (R308). -/
def giveOf (c : Core) (i : Instr) : Core :=
  match (syncOf i).bind (·.give) with
  | some k => setSem c k (semAt c k + 1)
  | none => c

/-- An instruction completes: it leaves its queue and gives (R165 step 8). -/
def completeEntry (s : State) (e : EngineName) (q : QEntry) : State :=
  { s with core := giveOf (setQueueOf s.core e ((queueOf s.core e).filter fun p => p.seq ≠ q.seq)) q.instr }

/-- A stream that has waited for the result of an instruction goes on when that has completed (R81, R228, R258, R443). -/
def resumeHeld (s : State) (e : QEntry) : State :=
  match (curStream s).pending with
  | some p => if p.on = .result e.seq then advanceBy s 8 else s
  | none => s

/-- An entry of a queue replaced. -/
def setEntry (s : State) (e : EngineName) (q : QEntry) : State :=
  { s with core := setQueueOf s.core e ((queueOf s.core e).map fun p => if p.seq = q.seq then q else p) }

/-- The fault of an engine instruction reaches its stream at the next instruction boundary (R177). -/
def raiseEngineFault (s : State) (core : Nat) (st : StreamName) : State :=
  let t := streamOf (coreAt s core) st
  match t.fault with
  | none => s
  | some f =>
    let s := updStream s core st fun t => { t with fault := none }
    raiseTrap s ⟨core, st, f.num, f.async, f.pc, f.words, t.pc⟩
      { cause := (f.cause), esw := f.esw.toNat, progress := f.progress, va := f.va.toNat }

/-- The fault of an engine instruction is raised by a watchdog or by a notice, not by its own checks (R356; log 29). -/
def faultAsync (q : QEntry) (c : Cause) : Bool :=
  match c with
  | .tenureTimeout | .flagLate => true
  | .groupAborted => match q.part with | .group .. => true | _ => false
  | _ => false

/-- An X instruction that is atomic once started (R244). -/
def atomicArray : Instr → Bool
  | .xfree .. | .xcellop .. | .xzero .. | .xside .. | .xsideb .. | .xpass .. => true
  | _ => false

/-- An instruction of an engine faults: it stops there, and its fault is kept for the stream unless the stream already holds one (R177). A MET stream
traps at once, and so does one that waits for the instruction's result (R81). A fault found after its element has been passed gives 1 more than that element's index as its progress (R175). -/
def engineFault (s : State) (eng : EngineName) (q : QEntry) (t : TrapInfo) : State :=
  let q := if t.progress = 0 then q else { q with progress := t.progress - 1 }
  let part := match q.part with | .pages p _ => .pages p [] | x => x
  let s := setEntry (standHw s t.hw) eng
    { q with stopped := true, started := q.started && !atomicArray q.instr, stall := none, part := part }
  let x := streamOf s.core q.stream
  if x.pending.any fun p => p.on = .result q.seq then
    raiseTrap s ⟨s.focus, q.stream, engineNum q.instr eng, false, x.pc, q.words, x.pc⟩ { t with hw := [] }
  else if x.state = .trapped ∨ x.fault.isSome then s
  else
    let f : EngineFault := ⟨eng, engineNum q.instr eng, faultAsync q t.cause, t.cause, BitVec.ofNat 64 t.esw, q.progress, BitVec.ofNat 64 t.va, q.pc, q.words⟩
    let s := updStream s s.focus q.stream fun t => { t with fault := some f }
    if x.state = .met then raiseEngineFault s s.focus q.stream else s

end Sys2Proof.Machine
end

