-- ==== Sys2Proof/Machine/Time.lean ====
section
/-! DEFINITION. The cycles that pass with a step: residence, CYCLE, grants and their charge, the deadlock detector's count (R229, R318, R362,
R369, R373). -/

namespace Sys2Proof.Machine

/-- The context of a core's job runs: it is resident and not halted. -/
def ticking (s : State) (c : Core) : Bool := c.job.isSome && (ctxAt s c.ctx).state = .running

/-- Cycles pass on one core (R229, R373). -/
def tickCore (s : State) (n : Nat) (c : Core) : Core :=
  if ticking s c then
    { c with cycle := c.cycle + BitVec.ofNat 64 n,
             arr := if c.lease = .held then { c.arr with cycles := c.arr.cycles + n } else c.arr }
  else c

/-- The cycles of a grant charged to the holder's array purse (R229). -/
def chargeGrant (s : State) (n : Nat) (core : Nat) (c : Core) : State :=
  if ticking s c ∧ c.lease = .held then chargePurse s 1 (clusterOf core) (ctxAt s c.ctx).vd n else s

/-- Cycles pass for a job while it is resident and not halted (R362). -/
def tickJob (s : State) (n : Nat) (j : Option Job) : Option Job :=
  j.map fun j => if j.state = .running ∧ (ctxAt s j.ctx).state = .running then { j with resident := j.resident + n } else j

/-- `n` cycles pass on the package. -/
def passCycles (s : State) (n : Nat) : State :=
  let t := s.others.foldl (fun t p => chargeGrant t n p.1 p.2) (chargeGrant s n s.focus s.core)
  { t with now := s.now + n, core := tickCore s n s.core, others := s.others.map (fun p => (p.1, tickCore s n p.2)),
           jobs := s.jobs.map fun p => (p.1, tickJob s n p.2) }

/-- The end of a step: the count advances, the next turn is drawn, and some cycles pass (R3, R83; logs 1 and 2). -/
def passTime (s : State) : State :=
  let t := passCycles s (Config.elapsed s.tick)
  { t with tick := s.tick + 1, turn := Config.schedule s.tick }

end Sys2Proof.Machine
end

