-- ==== Sys2Proof/Machine/Seq.lean ====
section
/-! DEFINITION. Sequencing: branches, calls, loops, RNDV and WHERE (R85 to R93, R139, R140). -/

namespace Sys2Proof.Machine

/-- The PC of the executing instruction. -/
def curPc (s : State) : Word := (curStream s).pc

/-- The target of a branch with an offset in words (R86). -/
def branchTarget (s : State) (off : Imm) : Word := curPc s + BitVec.ofInt 64 (4 * off.val)

/-- A branch under a condition: taken as B does, else the flow goes on (R87). -/
def branchIf (s : State) (cond : Bool) (off : Imm) : Outcome :=
  if cond then .next (branchTo s (branchTarget s off)) else finish s

/-- NOP (R85). -/
def execNop (s : State) : Outcome := finish s

/-- B (R86). -/
def execB (off : Imm) (s : State) : Outcome := .next (branchTo s (branchTarget s off))

/-- CALL (R88): the loop stack is untouched. -/
def execCall (off : Imm) (s : State) : Outcome :=
  let t := curStream s
  if t.rets.length = 8 then .next (trapCur s { cause := .callDepth })
  else .next (completeAt (setCur s { t with rets := t.rets ++ [t.pc + BitVec.ofNat 64 (instrBytes s)] }) (branchTarget s off))

/-- RET (R88). -/
def execRet (s : State) : Outcome :=
  let t := curStream s
  match t.rets.getLast? with
  | none => .next (trapCur s { cause := .callDepth })
  | some pc => .next (completeAt (setCur s { t with rets := t.rets.dropLast }) pc)

/-- BCC.EQ (R87). -/
def execBccEq (ga gb : Nat) (off : Imm) (s : State) : Outcome := branchIf s (readReg s ga == readReg s gb) off
/-- BCC.NE (R87). -/
def execBccNe (ga gb : Nat) (off : Imm) (s : State) : Outcome := branchIf s (readReg s ga != readReg s gb) off
/-- BCC.LT (R87). -/
def execBccLt (ga gb : Nat) (off : Imm) (s : State) : Outcome := branchIf s ((readReg s ga).slt (readReg s gb)) off
/-- BCC.GE (R87). -/
def execBccGe (ga gb : Nat) (off : Imm) (s : State) : Outcome := branchIf s (!(readReg s ga).slt (readReg s gb)) off
/-- BCC.LTN (R87). -/
def execBccLtn (ga gb : Nat) (off : Imm) (s : State) : Outcome := branchIf s ((readReg s ga).ult (readReg s gb)) off
/-- BCC.GEN (R87). -/
def execBccGen (ga gb : Nat) (off : Imm) (s : State) : Outcome := branchIf s (!(readReg s ga).ult (readReg s gb)) off

/-- LOOP (R90): a count of 0 skips the body, which counts as an instruction that ends at its end. -/
def execLoop (ga words : Nat) (s : State) : Outcome :=
  let t := curStream s
  let start := t.pc + 4
  let stop := start + BitVec.ofNat 64 (4 * words)
  let n := readReg s ga
  if words = 0 then .next (trapCur s { cause := .reservedField })
  else if t.loops.length = 8 then .next (trapCur s { cause := .loopNest })
  else if t.loops.getLast?.any (fun e => e.stop.toNat < stop.toNat) then .next (trapCur s { cause := .loopNest })
  else if n = 0 then .next (advanceBy s (4 + 4 * words))
  else .next (completeAt (setCur s { t with loops := t.loops ++ [⟨start, stop, n⟩] }) start)

/-- RNDV (R139). -/
def execRndv (s : State) : Outcome :=
  let t := curStream s
  if !t.loops.isEmpty || (s.cur = .c && !t.rets.isEmpty) then .next (trapCur s { cause := .rndvMismatch })
  else .next (retireCur (setCur s { t with state := .met, pending := none, displaced := keptWords s }))

/-- The value of a selector of WHERE (R140). -/
def whereValue (s : State) (sel : Nat) : Nat :=
  let low := sel % 256
  let ofJob (f : Job → Nat) (d : Nat) : Nat := ((curJob s).map f).getD d
  match sel / 256 with
  | 0 => ofJob (fun j => coordAt j s.core.jobRank low) 0
  | 1 => ofJob (fun j => extentAt j low) 1
  | _ =>
    match low with
    | 0 => s.core.jobRank
    | 1 => ofJob jobSize 1
    | 2 => ofJob (fun j => j.kern.levels.length) 0
    | 3 => streamNum s.cur
    | 4 => s.focus
    | 5 => dieOf s.focus
    | 6 => clusterOf s.focus % 48 + laneOf s.focus * 256
    | 7 => (curCtx s).vd
    | _ => s.core.ctx

/-- WHERE (R140). -/
def execWhereQ (gd sel : Nat) (s : State) : Outcome := finish (writeNat s gd (whereValue s sel))

end Sys2Proof.Machine
end

