-- ==== Sys2Proof/Machine/Barrier.lean ====
section
/-! DEFINITION. Fences, semaphores and pending-byte counters (R296 to R300, R306 to R316). -/

namespace Sys2Proof.Machine

/-! ### Work in the queues -/

/-- Every entry of the four queues of a core. -/
def allQueued (c : Core) : List QEntry := c.qdata ++ c.qvec ++ c.qmat ++ c.qgrp

/-- No engine instruction issued before a bound, of one stream or of all, is yet to complete, but for writes that have only to land at their peers
(R298, R299). A deferred update is none. -/
def enginesDone (c : Core) (of_ : Option StreamName) (bound : Nat) : Bool :=
  (allQueued c).all fun e => (syncOf e.instr).isNone || e.seq ≥ bound || (match of_ with | some st => e.stream ≠ st | none => false) || onlyLanding e

/-- FENCE (R296 to R299). Every access of the model is performed at its step, so ACQ, REL and FULL complete at once in the C stream (log 7); a
fence of kind ENG, and every fence of an engine stream, waits for engine instructions. -/
def execFence (kind : FenceKind) (scope : Scope) (s : State) : Outcome :=
  if s.cur = .c ∧ kind ≠ .eng then finish s
  else if enginesDone s.core (if scope = .stream then some s.cur else none) s.core.issued then finish s
  else .next (waitOn s (.engines (scope ≠ .stream) s.core.issued))

/-! ### Semaphores (R306, R313 to R315) -/

/-- The engine whose queue holds the deferred updates of an engine stream (R313). -/
def mainEngine : StreamName → EngineName
  | .v => .vector
  | .x => .matrix
  | _ => .data

/-- An update of an engine stream is queued behind its engine instructions; it takes effect when they have completed (R313, R161, R278). -/
def deferUpdate (s : State) (i : Instr) (value : Word) : State :=
  enqueue s (mainEngine s.cur) { entryOf s i with hvals := [value] }

/-- An update made at once in the C stream, queued in an engine stream (R313). A full queue leaves the stream in RUN (R81). -/
def updateOrDefer (s : State) (i : Instr) (value : Word) (now : State) : Outcome :=
  if s.cur = .c then finish now
  else if queueFull s.core (mainEngine s.cur) then .next { s with held := true }
  else finish (deferUpdate s i value)

/-- The amount of SEMADD and SEMSET (R313). -/
def semAmount (s : State) (ga : Nat) (imm : Int) : Word := (readReg s ga + BitVec.ofInt 64 imm) &&& 0xFFFFFFFF

/-- SEMADD performed on a core (R313). -/
def semAdd (c : Core) (k : Nat) (v : Word) : Core := setSem c k (semAt c k + v.setWidth 32)

/-- SEMADD (R313). -/
def execSemadd (k ga : Nat) (imm : Int) (s : State) : Outcome :=
  let v := semAmount s ga imm
  updateOrDefer s (.semadd k ga imm) v { s with core := semAdd s.core k v }

/-- SEMSET (R313). -/
def execSemset (k ga : Nat) (imm : Int) (s : State) : Outcome :=
  let v := semAmount s ga imm
  updateOrDefer s (.semset k ga imm) v { s with core := setSem s.core k (v.setWidth 32) }

/-- The target of an ABS test (R314). -/
def semTarget (s : State) (src : Nat) (imm : Int) : BitVec 32 := (readReg s src + BitVec.ofInt 64 imm).setWidth 32

/-- The executing stream draws once from a semaphore (R314). -/
def drawCur (s : State) (k : Nat) : State := setCur s (addDraw (curStream s) k)

/-- The take of a semaphore holds (R314). -/
def takeHolds (s : State) (k : Nat) : Bool := wrapGE (semAt s.core k) (drawAt (curStream s) k + 1)

/-- SEMWAIT under ABS (R314). -/
def execSemwait (k ga : Nat) (imm : Int) (s : State) : Outcome :=
  let t := semTarget s ga imm
  if wrapGE (semAt s.core k) t then finish s else .next (waitOn s (.sem k t))

/-- SEMWAIT.TAKE (R314). -/
def execSemwaitTake (k : Nat) (s : State) : Outcome :=
  if takeHolds s k then finish (drawCur s k) else .next (waitOn s (.takes [k]))

/-- SEMTRY under ABS (R314): gd holds the target and receives the status. -/
def execSemtry (gd k : Nat) (imm : Int) (s : State) : Outcome :=
  finish (writeNat s gd (b2n !(wrapGE (semAt s.core k) (semTarget s gd imm))))

/-- SEMTRY.TAKE (R314). -/
def execSemtryTake (gd k : Nat) (s : State) : Outcome :=
  if takeHolds s k then finish (writeNat (drawCur s k) gd 0) else finish (writeNat s gd 1)

/-- SEMRD (R315). -/
def execSemrd (gd k : Nat) (s : State) : Outcome := finish (writeNat s gd (semAt s.core k).toNat)
/-- SEMRD.DRAW (R315). -/
def execSemrdDraw (gd k : Nat) (s : State) : Outcome := finish (writeNat s gd (drawAt (curStream s) k).toNat)

/-- A pending-byte counter (R310). -/
def pbAt (c : Core) (k : Nat) : Nat := (tabGet 0 c.pbs k).toNat
/-- A pending-byte counter replaced. -/
def setPb (c : Core) (k v : Nat) : Core := { c with pbs := tabSet 0 c.pbs k (BitVec.ofNat 40 v) }

/-- SEMRD.PB (R315). -/
def execSemrdPb (gd k : Nat) (s : State) : Outcome := finish (writeNat s gd (pbAt s.core k))

/-- PBWAIT (R316): the threshold is an exact sum. -/
def execPbwait (k ga imm : Nat) (s : State) : Outcome :=
  let t := (readReg s ga).toNat + imm
  if pbAt s.core k ≤ t then finish s else .next (waitOn s (.pb k t))

end Sys2Proof.Machine
end

