-- ==== Sys2Proof/Machine/Region.lean ====
section
/-! DEFINITION. The descriptor-register and ring instructions (R152 to R163). -/

namespace Sys2Proof.Machine

/-- The bits that a field code names: the lowest, the width, and whether it is signed (R145, R152). -/
def fieldBits (code : Nat) : Nat × Nat × Bool :=
  match code with
  | 0x00 => (61, 3, false) | 0x01 => (55, 6, false) | 0x02 => (0, 55, false) | 0x03 => (64, 16, false) | 0x04 => (80, 32, true)
  | 0x05 => (112, 16, false) | 0x06 => (128, 32, true) | 0x07 => (192, 16, false) | 0x08 => (160, 32, true) | 0x09 => (208, 16, false)
  | 0x0A => (224, 32, true) | 0x0B => (160, 16, false) | 0x0C => (176, 2, false) | 0x0D => (178, 1, false) | 0x0E => (179, 1, false)
  | 0x0F => (180, 12, false) | 0x10 => (208, 32, true) | 0x11 => (240, 16, true) | 0x12 => (208, 16, false) | 0x13 => (224, 20, false)
  | 0x14 => (244, 3, false) | 0x15 => (247, 4, false) | 0x16 => (251, 1, false)
  | 0x18 => (0, 64, false) | 0x19 => (64, 64, false) | 0x1A => (128, 64, false) | _ => (192, 64, false)

def descReg (s : State) (k : Nat) : Nat := (tabGet 0 s.core.descs k).toNat
def setDescReg (s : State) (k v : Nat) : State := { s with core := { s.core with descs := tabSet 0 s.core.descs k (BitVec.ofNat 256 v) } }

/-- DSET (R152). -/
def execDset (field k ga : Nat) (s : State) : Outcome :=
  let f := fieldBits field
  finish (setDescReg s k (setField (descReg s k) f.1 f.2.1 (readReg s ga).toNat))

/-- DGETF (R152). -/
def execDgetf (field gd k : Nat) (s : State) : Outcome :=
  let f := fieldBits field
  let v := bitField (descReg s k) f.1 f.2.1
  finish (writeNat s gd (if f.2.2 then truncBits (signExt v f.2.1) 64 else v))

/-- DLD (R153). -/
def execDld (k ga : Nat) (imm : Imm) (s : State) : Outcome :=
  run s ((scalarLoad s (effAddr s ga imm) 32).map fun r => setDescReg r.1 k (leNat r.2))

/-- DST (R153). -/
def execDst (k ga : Nat) (imm : Imm) (s : State) : Outcome := run s (scalarStore s (effAddr s ga imm) (natLe 32 (descReg s k)))

/-- DCPY (R154). -/
def execDcpy (dd da : Nat) (s : State) : Outcome := finish (setDescReg s dd (descReg s da))

/-- DADV (R155). -/
def execDadv (rows : Bool) (k ga : Nat) (s : State) : Outcome :=
  let d := descReg s k
  let delta := (readReg s ga).toInt * (if rows then signExt (bitField d 128 32) 32 else 1)
  finish (setDescReg s k (setField d 0 55 (truncBits ((bitField d 0 55 : Nat) + delta) 55)))

/-! ### Rings (R157 to R163) -/

/-- RINIT (R160). -/
def execRinit (n k : Nat) (s : State) : Outcome :=
  let d := descOf (tabGet 0 s.core.descs k)
  let r := ringAt s.core n
  run s <|
    match needDesc d [4] (fun _ => true) 0 with
    | .error e => .error e
    | .ok () =>
      if d.nreg ≠ n ∨ ringWpend r + ringRpend r ≠ 0 then fault .ringBad
      else .ok { s with core := setRing s.core n (d.slots + d.slots * 2 ^ 16) }

/-- RCOMMIT or RRELEASE of `k` slots performed on a core; a count beyond the pending slots faults and sets ERR (R161, R163). -/
def passSlots (c : Core) (n k : Nat) (commit : Bool) : Res Core :=
  let r := ringAt c n
  let pend := if commit then ringWpend r else ringRpend r
  if k = 0 then .ok c
  else if k > pend then .error (.trap { cause := .ringBad, hw := [.ringErr n] })
  else if commit then .ok (setRing c n (setField (setField r 80 16 (pend - k)) 32 16 (ringFill r + k)))
  else .ok (setRing c n (setField (setField r 96 16 (pend - k)) 16 16 (ringFree r + k)))

/-- The count of RCOMMIT and RRELEASE: an exact sum (R161). A count of 2^64 or more exceeds every ring, as does the greatest word. -/
def slotCount (s : State) (ga imm : Nat) : Nat := min ((readReg s ga).toNat + imm) (2 ^ 64 - 1)

/-- RCOMMIT or RRELEASE: at once in the C stream, queued in the others (R161). -/
def passOrDefer (s : State) (i : Instr) (n ga imm : Nat) (commit : Bool) : Outcome :=
  let k := slotCount s ga imm
  if s.cur = .c then run s ((passSlots s.core n k commit).map fun c => { s with core := c })
  else updateOrDefer s i (BitVec.ofNat 64 k) s

/-- RCOMMIT (R161). -/
def execRcommit (n ga imm : Nat) (s : State) : Outcome := passOrDefer s (.rcommit n ga imm) n ga imm true
/-- RRELEASE (R161). -/
def execRrelease (n ga imm : Nat) (s : State) : Outcome := passOrDefer s (.rrelease n ga imm) n ga imm false

/-- The field of a selector of RSTAT (R162). -/
def ringField (r sel : Nat) : Nat :=
  match sel with
  | 0 => ringSlots r | 1 => ringFree r | 2 => ringFill r | 3 => ringWslot r | 4 => ringRslot r | 5 => ringWpend r | 6 => ringRpend r
  | _ => b2n (ringErr r)

/-- RSTAT (R162). -/
def execRstat (gd n sel : Nat) (s : State) : Outcome := finish (writeNat s gd (ringField (ringAt s.core n) sel))

end Sys2Proof.Machine
end

