-- ==== Sys2Proof/Machine/DataEngine.lean ====
section
/-! DEFINITION. The data-engine instructions: their issue and their elements (R164 to R177). -/

namespace Sys2Proof.Machine

/-- The types that a data-engine operand may have: REGION, VREGION, TENSOR, and RING where the entry has it (R169). -/
def plainTypes : List Nat := [1, 2, 3]
def ringTypes : List Nat := [1, 2, 3, 4]
def anyFmt (_ : Fmt) : Bool := true
def indexFmt (f : Fmt) : Bool := f = .i32 || f = .n32 || f = .i64
def bitFmt (f : Fmt) : Bool := f = .b1
/-- The destinations of DSCATA (R173). -/
def scataFmt (f : Fmt) : Bool := [Fmt.f32, .f16, .bf16, .i8, .i16, .i32, .i64].contains f

/-- The use of the mask descriptor d((dd + 1) mod 32) (R167). -/
def maskUse (mask : MaskKind) (dd : Nat) : List (Nat × Nat × Bool) := if mask = .none then [] else [(4, (dd + 1) % 32, true)]

/-- The mask is a REGION of format B1 without scale (R167, row 1 of R176). -/
def maskDesc (mask : MaskKind) (m : Desc) : Res Unit := if mask = .none then .ok () else needDesc m [1] bitFmt 4

/-- The mask has a bit for every row, or element (R167, row 3 of R176). -/
def maskLong (mask : MaskKind) (m : Desc) (rows elems : Nat) : Res Unit :=
  match mask with
  | .none => .ok ()
  | .rows => if descN m < rows then faultOp .vecCount 4 else .ok ()
  | .elems => if descN m < elems then faultOp .vecCount 4 else .ok ()

/-- A destination of format B1 takes only the unchanged path (R170). -/
def bitMove (da dd : Desc) : Res Unit := if descFmt dd = .b1 && !rawMove da dd then faultOp .formatUnsupported 1 else .ok ()

/-- The issue of a data-engine instruction. -/
def issueData (s : State) (i : Instr) (sy : Sync) (uses : List (Nat × Nat × Bool)) (hregs : List Nat) (count : List Desc → Nat)
    (checks : List Desc → Res Unit) : Outcome :=
  run s (issue s i { engine := .data, sync := sy, uses := uses, hregs := hregs } count fun ds _ _ => checks ds)

/-- DCOPY (R171, R176). -/
def execDcopy (mask : MaskKind) (dd da : Nat) (rm : Rm) (sy : Sync) (s : State) : Outcome :=
  issueData s (.dcopy mask dd da rm sy) sy ([(1, dd, true), (2, da, false)] ++ maskUse mask dd) [] (fun ds => descN (ds.getD 1 default)) fun ds =>
    let d := ds.getD 0 default; let a := ds.getD 1 default; let m := ds.getD 2 default
    inOrder [needDesc d ringTypes anyFmt 1, needDesc a ringTypes anyFmt 2, maskDesc mask m, bitMove a d,
      require (descN d = descN a) .vecCount, maskLong mask m (descRows a) (descN a), noOverlap d 1 [(2, a, false)]]

/-- DGATHER (R172, R176). -/
def execDgather (mask : MaskKind) (oob : Bool) (dd da db : Nat) (rm : Rm) (sy : Sync) (s : State) : Outcome :=
  issueData s (.dgather mask oob dd da db rm sy) sy ([(1, dd, true), (2, da, false), (3, db, false)] ++ maskUse mask dd) []
    (fun ds => descN (ds.getD 2 default)) fun ds =>
    let d := ds.getD 0 default; let a := ds.getD 1 default; let b := ds.getD 2 default; let m := ds.getD 3 default
    inOrder [needDesc d ringTypes anyFmt 1, needDesc a plainTypes anyFmt 2, needDesc b plainTypes indexFmt 3, maskDesc mask m, bitMove a d,
      require (descCount d = descCount a && descRows d = descN b) .vecCount, maskLong mask m (descRows d) (descN d),
      noOverlap d 1 [(2, a, false), (3, b, false)]]

/-- The issue of DSCATTER and DSCATA (R173, R176). -/
def issueScatter (s : State) (i : Instr) (mask : MaskKind) (accepts : Fmt → Bool) (accumulate : Bool) (dd da db : Nat) (sy : Sync) : Outcome :=
  issueData s i sy ([(1, dd, true), (2, da, false), (3, db, false)] ++ maskUse mask dd) [] (fun ds => descRows (ds.getD 1 default)) fun ds =>
    let d := ds.getD 0 default; let a := ds.getD 1 default; let b := ds.getD 2 default; let m := ds.getD 3 default
    inOrder [needDesc d plainTypes accepts 1, needDesc a ringTypes anyFmt 2, needDesc b plainTypes indexFmt 3, maskDesc mask m,
      if accumulate && d.sfmt ≠ 0 then faultOp .descInvalid 1 else .ok (), bitMove a d,
      require (descCount d = descCount a && descRows a = descN b) .vecCount, maskLong mask m (descRows a) (descN a),
      noOverlap d 1 [(2, a, false), (3, b, false)]]

/-- DSCATTER (R173). -/
def execDscatter (mask : MaskKind) (oob : Bool) (dd da db : Nat) (rm : Rm) (sy : Sync) (s : State) : Outcome :=
  issueScatter s (.dscatter mask oob dd da db rm sy) mask anyFmt false dd da db sy
/-- DSCATA (R173). -/
def execDscata (mask : MaskKind) (oob : Bool) (dd da db : Nat) (rm : Rm) (sy : Sync) (s : State) : Outcome :=
  issueScatter s (.dscata mask oob dd da db rm sy) mask scataFmt true dd da db sy

/-- DFILL (R174). -/
def execDfill (dd ha : Nat) (sy : Sync) (s : State) : Outcome :=
  issueData s (.dfill dd ha sy) sy [(1, dd, true)] [ha] (fun ds => descN (ds.getD 0 default)) fun ds => needDesc (ds.getD 0 default) ringTypes anyFmt 1

/-- The issue of DPREF, DFLUSH and DINV (R175). -/
def issueWalk (s : State) (i : Instr) (da : Nat) (sy : Sync) : Outcome :=
  issueData s i sy [(2, da, false)] [] (fun ds => descN (ds.getD 0 default)) fun ds => needDesc (ds.getD 0 default) [3] anyFmt 2

/-- DPREF (R175). -/
def execDpref (da : Nat) (sy : Sync) (s : State) : Outcome := issueWalk s (.dpref da sy) da sy
/-- DFLUSH (R175). -/
def execDflush (da : Nat) (sy : Sync) (s : State) : Outcome := issueWalk s (.dflush da sy) da sy
/-- DINV (R175). -/
def execDinv (da : Nat) (sy : Sync) (s : State) : Outcome := issueWalk s (.dinv da sy) da sy

/-- DPREQ (R175): its mask is db. -/
def execDpreq (mask : MaskKind) (da db : Nat) (sy : Sync) (s : State) : Outcome :=
  issueData s (.dpreq mask da db sy) sy ([(2, da, false)] ++ if mask = .none then [] else [(4, db, false)]) []
    (fun ds => descN (ds.getD 0 default)) fun ds =>
    let a := ds.getD 0 default; let m := ds.getD 1 default
    inOrder [needDesc a [3] anyFmt 2, maskDesc mask m, maskLong mask m (descRows a) (descN a)]

/-! ### Elements -/

/-- The value of a source element; an absent one reads as zero under a mask and faults without one (R167, R176). -/
def sourceVal (s : State) (o : Operand) (masked : Bool) (k : Nat) : Res (State × FV × Bool) :=
  if masked then elemVal s o k else (presentVal s o k).map fun r => (r.1, r.2, false)

/-- The raw bits of a source element, under the same rule. -/
def sourceBits (s : State) (o : Operand) (masked : Bool) (k : Nat) : Res (State × Nat × Bool) :=
  if masked then (elemBits s o k).map fun r => (r.1, r.2.getD 0, r.2.isNone) else (presentBits s o k).map fun r => (r.1, r.2, false)

/-- Element `t` of the destination from element `k` of the source, or from no element: the value 0 (R170, R172). `fl` holds what its index has
raised (R196). The Boolean says that the source page was absent. -/
def moveElem (s : State) (e : QEntry) (dd da : Operand) (rm : Rm) (masked : Bool) (fl : Flags) (t : Nat) : Option Nat → Res (State × Bool)
  | none => (writeChecked s e dd t (roundTo xZero (descFmt dd.d) interior).1 fl).map fun s => (s, false)
  | some k =>
    if rawMove da.d dd.d then
      match sourceBits s da masked k with
      | .error x => .error x
      | .ok (s, b, absent) => (writeChecked s e dd t b fl).map fun s => (s, absent)
    else
      match sourceVal s da masked k with
      | .error x => .error x
      | .ok (s, x, absent) =>
        let r := roundTo x.1 (descFmt dd.d) (roundingOf e.vctl e.seed rm dd.d.tag t)
        (writeChecked s e dd t r.1 (fl ||| x.2 ||| r.2)).map fun s => (s, absent)

/-- The old value of an element of DSCATA, read as part of one indivisible update: its page is checked as for an atomic (R121, R173). -/
def oldElem (s : State) (o : Operand) (t : Nat) : Res (State × XR) :=
  let a := (elemSpot o t).1
  let n := elemBytes (descFmt o.d)
  match descSpace o.d with
  | .virt =>
    if a < 0 ∨ a + n > 2 ^ 55 then faultOp .noMapping o.code
    else (withOperand o.code (memAtomic s (engineAccessor s) a.toNat n)).map fun r => (r.1, decodeFmt (descFmt o.d) r.2.2)
  | _ => (presentVal s o t).map fun r => (r.1, r.2.1)

/-- Element `t` of DSCATA (R173). -/
def addElem (s : State) (e : QEntry) (dd da : Operand) (rm : Rm) (masked : Bool) (t k : Nat) : Res (State × Bool) :=
  match oldElem s dd t with
  | .error x => .error x
  | .ok (s, old) =>
    match sourceVal s da masked k with
    | .error x => .error x
    | .ok (s, x, absent) =>
      let v := xAdd (modeOf e.vctl rm = .rdn) old x.1
      let r := roundTo v.1 (descFmt dd.d) (roundingOf e.vctl e.seed rm dd.d.tag t)
      (writeChecked s e dd t r.1 (x.2 ||| v.2 ||| r.2)).map fun s => (s, absent)

/-- A block of a block-scaled destination from elements of the source (R31, R170): the flags of absence. `fl` holds what the indices have raised. -/
def moveBlock (s : State) (e : QEntry) (dd da : Operand) (rm : Rm) (masked : Bool) (fl : Flags) (t : Nat) (ks : List (Option Nat)) :
    Res (State × List Bool) :=
  let get (s : State) (j : Nat) : Res (State × (FV × Bool)) :=
    match ks.getD j none with
    | none => .ok (s, ((xZero, fl), false))
    | some k => (sourceVal s da masked k).map fun r => (r.1, ((r.2.1.1, fl ||| r.2.1.2), r.2.2))
  match mapRes get s (upFrom 0 ks.length) with
  | .error x => .error x
  | .ok (s, vs) => (writeBlock s e dd rm (upFrom t ks.length) (vs.map (·.1))).map fun s => (s, vs.map (·.2))

/-- The row flag that an entry carries (R167). -/
def rowFlag (e : QEntry) : Bool := match e.part with | .maskFlag _ f => f | _ => false

/-- The mask bits of the elements processed from `i` on, by whether each met an absent page, and the flag of the row that is left (R167). A row's bit
is written when the last of its elements below the valid count completes. -/
def markMask (s : State) (mask : MaskKind) (m : Operand) (limit rowLen : Nat) : Nat → Bool → List Bool → Res (State × Bool)
  | _, flag, [] => .ok (s, flag)
  | i, flag, h :: hs =>
    match mask with
    | .none => .ok (s, false)
    | .elems => (putElem s m i (b2n h)).bind fun s => markMask s mask m limit rowLen (i + 1) false hs
    | .rows =>
      let f := flag || h
      if (i + 1) % rowLen = 0 ∨ i + 1 = limit then (putElem s m (i / rowLen) (b2n f)).bind fun s => markMask s mask m limit rowLen (i + 1) false hs
      else markMask s mask m limit rowLen (i + 1) f hs

/-- What one processed element of a copying instruction does: the destination element (`none` for a skipped one), the source element (`none` for the
value 0), whether its index stood on an absent page, and what it touches. -/
structure Pick where
  dst : Option Nat
  src : Option Nat
  absent : Bool
  touches : List Touch

/-- The byte of the residency mask that the i-th element processed writes: its own bit, or its row's behind the row's last element (R167). -/
def maskTouches (mask : MaskKind) (m : Operand) (limit rowLen i : Nat) : List Touch :=
  match mask with
  | .none => []
  | .elems => elemTouches m i .write
  | .rows => if (i + 1) % rowLen = 0 ∨ i + 1 = limit then elemTouches m (i / rowLen) .write else []

/-- An element as picked, with the element faults of all that it touches, the mask's byte among them, judged (R176). -/
def pickJudged (mask : MaskKind) (m : Operand) (limit rowLen : Nat) (pick : State → Nat → Res (State × Pick)) (s : State) (i : Nat) :
    Res (State × Pick) :=
  match pick s i with
  | .error x => .error x
  | .ok (s, p) => (checkTouches s (decide (mask ≠ .none)) (p.touches ++ maskTouches mask m limit rowLen i)).map fun _ => (s, p)

/-- One unit of a copying instruction: an element, or a block of a block-scaled destination (R170 to R173). `pick i` says what the i-th element
processed does. -/
def moveUnit (s : State) (e : QEntry) (mask : MaskKind) (dd da m : Operand) (rm : Rm) (add : Bool) (limit rowLen : Nat)
    (pick : State → Nat → Res (State × Pick)) : UnitRes :=
  let i := e.progress
  if i ≥ limit then .ok ⟨s, e, true⟩
  else
    let masked := decide (mask ≠ .none)
    let pick := pickJudged mask m limit rowLen pick
    match pick s i with
    | .error x => .error x
    | .ok (s, p) =>
      let scaled := (descScale dd.d).isSome
      let n := match p.dst with
        | none => 1
        | some t => if scaled then let b := blockOf dd.d t; min (b.1 + b.2 - t) (limit - i) else 1
      match mapRes pick s (upFrom i n) with
      | .error x => .error x
      | .ok (s, ps) =>
        let moved : Res (State × List Bool) :=
          match p.dst with
          | none => .ok (s, [false])
          | some t =>
            if scaled then moveBlock s e dd da rm masked 0 t (ps.map (·.src))
            else if add then (addElem s e dd da rm masked t (p.src.getD 0)).map fun r => (r.1, [r.2])
            else (moveElem s e dd da rm masked 0 t p.src).map fun r => (r.1, [r.2])
        match moved with
        | .error x => .error x
        | .ok (s, hits) =>
          (markMask s mask m limit rowLen i (rowFlag e) ((hits.zip ps).map fun h => h.1 || h.2.absent)).map fun r =>
            ⟨r.1, { e with progress := i + n, part := .maskFlag 0 r.2, stall := none }, decide (i + n ≥ limit)⟩

/-- The index held in an element of an index operand. Under a residency mask an index on an absent page reads as all-zero bits (R167); the Boolean
says so. -/
def indexAt (s : State) (o : Operand) (masked : Bool) (j : Nat) : Res (State × Int × Bool) :=
  (sourceVal s o masked j).map fun r => (r.1, indexVal r.2.1, r.2.2)

/-- An element whose row an index names (R172, R173): the index below `rows`, else the element is skipped or its index faults behind the other rows
that `other` meets. `found` gives the element for an index in range, `away` for one out of it. -/
def pickIndexed (s : State) (db : Operand) (masked oob : Bool) (j rows : Nat) (other : List Touch) (found : Nat → Pick) (away : Pick) :
    Res (State × Pick) :=
  let idx := elemTouches db j .read
  match checkTouches s masked idx with
  | .error _ => (checkTouches s masked (other ++ idx)).map fun _ => (s, away)
  | .ok () =>
    match indexAt s db masked j with
    | .error x => .error x
    | .ok (s, x, absent) =>
      if x < 0 ∨ x ≥ rows then
        match checkTouches s masked (away.touches ++ idx) with
        | .error e => .error e
        | .ok () => if oob then .ok (s, { away with absent := absent }) else fault .vecCount
      else let p := found x.toNat; .ok (s, { p with absent := absent, touches := p.touches ++ idx })

/-- A unit of DCOPY (R171). -/
def unitDcopy (s : State) (e : QEntry) (mask : MaskKind) (rm : Rm) : UnitRes :=
  let dd := operandAt e 0 1; let da := operandAt e 1 2; let m := operandAt e 2 4
  moveUnit s e mask dd da m rm false e.count (descCount da.d) fun s i =>
    .ok (s, ⟨some i, some i, false, elemTouches dd i .write ++ elemTouches da i .read⟩)

/-- A unit of DGATHER (R172). -/
def unitDgather (s : State) (e : QEntry) (mask : MaskKind) (oob : Bool) (rm : Rm) : UnitRes :=
  let dd := operandAt e 0 1; let da := operandAt e 1 2; let db := operandAt e 2 3; let m := operandAt e 3 4
  let c := descCount da.d
  moveUnit s e mask dd da m rm false (e.count * c) c fun s i =>
    let out := elemTouches dd i .write
    pickIndexed s db (decide (mask ≠ .none)) oob (i / c) (descRows da.d) out
      (fun x => let k := x * c + i % c; ⟨some i, some k, false, out ++ elemTouches da k .read⟩) ⟨some i, none, false, out⟩

/-- A unit of DSCATTER or DSCATA (R173). -/
def unitScatter (s : State) (e : QEntry) (mask : MaskKind) (oob add : Bool) (rm : Rm) : UnitRes :=
  let dd := operandAt e 0 1; let da := operandAt e 1 2; let db := operandAt e 2 3; let m := operandAt e 3 4
  let c := descCount da.d
  moveUnit s e mask dd da m rm add (e.count * c) c fun s i =>
    let src := elemTouches da i .read
    pickIndexed s db (decide (mask ≠ .none)) oob (i / c) (descRows dd.d) src
      (fun x => let t := x * c + i % c; ⟨some t, some i, false, elemTouches dd t (if add then .atomic else .write) ++ src⟩)
      ⟨none, none, false, []⟩

/-- A unit of DFILL (R174). -/
def unitDfill (s : State) (e : QEntry) : UnitRes :=
  let v := (e.hvals.getD 0 0).toNat
  unitRaw s e (operandAt e 0 1) e.count fun s _ => .ok (s, v)

/-- The virtual address of an element of a TENSOR (R146, R147). -/
def tensorVa (o : Operand) (i : Nat) : Res Nat :=
  let a := (elemSpot o i).1
  if a < 0 ∨ a + elemBytes (descFmt o.d) > 2 ^ 55 then faultOp .noMapping o.code else .ok a.toNat

/-- A unit of DPREF (R175): it changes nothing that a program reads. A page that does not translate or is absent is skipped; an address beyond the
space and a page of class DEVICE fault as rows 6 and 7 of R176 say (log 92). -/
def unitDpref (s : State) (e : QEntry) : UnitRes :=
  let o := operandAt e 0 2
  if e.progress ≥ e.count then .ok ⟨s, e, true⟩
  else match tensorVa o e.progress with
  | .error x => .error x
  | .ok va =>
    match translate s (engineAccessor s) .read va with
    | .ok (.here l _) =>
      if pteClass l.entry = 3 then .error (.trap { cause := .deviceAccessSize, esw := 2 * 2 ^ 16, va := va }) else progressTo s e (e.progress + 1) e.count
    | .ok (.absent _) => progressTo s e (e.progress + 1) e.count
    | r => progressTo (absorb s r) e (e.progress + 1) e.count

/-- The write-back of the dirty line of an address waits for the purse of the virtual device that wrote it (R391). -/
def writeBackDue (s : State) (pa : Nat) : Option Stop :=
  match tabGet none s.l2 (pa / 128) with
  | none => none
  | some t =>
    let a := lineArbiter (pa / 128)
    let vd := (ctxAt s t.ctx).vd
    if funded s a.1 a.2 vd then none else some (.short a.1 a.2 vd (dieOf s.focus))

/-- A unit of DFLUSH or DINV (R175). -/
def unitFlush (s : State) (e : QEntry) : UnitRes :=
  let o := operandAt e 0 2
  if e.progress ≥ e.count then .ok ⟨s, e, true⟩
  else match tensorVa o e.progress with
  | .error x => .error x
  | .ok va =>
    match withOperand 2 (translate s (engineAccessor s) .read va) with
    | .error x => .error x
    | .ok (.absent _) => .error (.trap { cause := .noMapping, esw := 2 * 2 ^ 16, va := va })
    | .ok (.here l pa) =>
      if pteClass l.entry = 3 then .error (.trap { cause := .deviceAccessSize, esw := 2 * 2 ^ 16, va := va })
      else match writeBackDue s pa with
      | some x => .error x
      | none => progressTo (writeBackRange s pa (elemBytes (descFmt o.d))) e (e.progress + 1) e.count

/-- What DPREQ has requested, and what has failed. -/
def requested (e : QEntry) : List Nat × List Nat := match e.part with | .pages p f => (p, f) | _ => ([], [])

/-- The page of an element of DPREQ, when its translation succeeds: its address, and whether it is absent. -/
def preqPage (s : State) (o : Operand) (i : Nat) : Res (Nat × Option Leaf) :=
  match tensorVa o i with
  | .error x => .error x
  | .ok va =>
    match withOperand 2 (translate s (engineAccessor s) .read va) with
    | .error x => .error x
    | .ok (.absent l) => if pteClass l.entry = 3 then .error (.trap { cause := .deviceAccessSize, esw := 2 * 2 ^ 16, va := va }) else .ok (va, some l)
    | .ok (.here l _) => if pteClass l.entry = 3 then .error (.trap { cause := .deviceAccessSize, esw := 2 * 2 ^ 16, va := va }) else .ok (va, none)

/-- The wait of DPREQ for its pages (R175): a page whose request has failed faults at its first element, one that is absent again is requested
again. The Boolean says that every page is resident. -/
def preqSettled (s : State) (e : QEntry) (o : Operand) : List Nat → Res (State × Bool)
  | [] => .ok (s, true)
  | i :: is =>
    match preqPage s o i with
    | .error (.trap t) => .error (.trap { t with progress := i + 1 })
    | .error x => .error x
    | .ok (_, none) => preqSettled s e o is
    | .ok (va, some l) =>
      if (requested e).2.contains (va / 65536) then
        .error (.trap { cause := .noMapping, esw := 2 * 2 ^ 16, va := va, progress := i + 1 })
      else (preqSettled (postPageRequest s s.core.ctx va l none) e o is).map fun r => (r.1, false)

/-- A unit of DPREQ (R175). -/
def unitDpreq (s : State) (e : QEntry) (mask : MaskKind) : UnitRes :=
  let o := operandAt e 0 2; let m := operandAt e 1 4
  let p := requested e
  let i := e.progress
  if i ≥ e.count then
    match preqSettled s e o p.1 with
    | .error x => .error x
    | .ok (s, done) => .ok ⟨s, e, done⟩
  else
    let bit : Res (State × Nat) :=
      match mask with
      | .none => .ok (s, 1)
      | .rows => presentBits s m (i / descCount o.d)
      | .elems => presentBits s m i
    match bit with
    | .error x => .error x
    | .ok (s, b) =>
      if b = 0 then .ok ⟨s, { e with progress := i + 1, stall := none }, false⟩
      else match preqPage s o i with
      | .error x => .error x
      | .ok (_, none) => .ok ⟨s, { e with progress := i + 1, stall := none }, false⟩
      | .ok (va, some l) =>
        .ok ⟨postPageRequest s s.core.ctx va l none, { e with progress := i + 1, part := .pages (p.1 ++ [i]) p.2, stall := none }, false⟩

end Sys2Proof.Machine
end

