-- ==== Sys2Proof/Machine/Real.lean ====
section
/-! DEFINITION. The exact functions of R104 and R194, given to RoundTo through a stand-in that rounds as they do.

An irrational value y never meets a rounding boundary, and every boundary of every format, scale and stochastic draw is a multiple of
2^-256. So (⌊y·2^256⌋ + ½)·2^-256 rounds exactly as y does. The floor comes from fixed-point arithmetic whose error bound is checked; the
precision is raised until the floor is certain. -/

namespace Sys2Proof.Machine

/-- The bits below the point that fix every rounding. -/
def realBits : Nat := 256

/-- The stand-in for a value whose floor at `realBits` is `f`. -/
def realCell (f : Int) : XR := let v := 2 * f + 1; xFin (v < 0) v.natAbs (2 ^ (realBits + 1))

/-- The floor at `realBits` of a value approximated within 2^40 units at precision `realBits + g`, for the first guard that settles it. -/
def sureFloor (approx : Nat → Int) : List Nat → Option Int
  | [] => none
  | g :: gs =>
    let v := approx (realBits + g)
    let lo := (v - 2 ^ 40) / 2 ^ g
    let hi := (v + 2 ^ 40) / 2 ^ g
    if lo = hi then some lo else sureFloor approx gs

/-- The guards tried in turn. -/
def guardBits : List Nat := [96, 320, 1024]

/-- The stand-in of a value given by approximations; a value that no guard settles is left open (log 12). -/
def realValue (fn : Nat) (x : Int) (den : Nat) (approx : Nat → Int) : XR :=
  match sureFloor approx guardBits with
  | some f => realCell f
  | none => realCell (Config.unresolvedReal fn x den)

/-- Σ tⁿ/n! at precision `p`, from the term `term` of index `n` on. -/
def expSeries (p : Nat) (t : Int) : Nat → Nat → Int → Int → Int
  | 0, _, _, acc => acc
  | f + 1, n, term, acc =>
    if term = 0 then acc else expSeries p t f (n + 1) (term * t / (2 ^ p * (n + 1 : Nat))) (acc + term)

/-- Σ z^(2n+1)/(2n+1) with alternating sign when `alt`, from the power `pw` on; `z2` is z² at precision `p`. -/
def atanSeries (p : Nat) (alt : Bool) (z2 : Int) : Nat → Nat → Int → Int → Int
  | 0, _, _, acc => acc
  | f + 1, n, pw, acc =>
    if pw = 0 then acc else
      let t := pw / (2 * n + 1 : Nat)
      atanSeries p alt z2 f (n + 1) (pw * z2 / 2 ^ p) (if alt ∧ n % 2 = 1 then acc - t else acc + t)

/-- ln 2 = 2·atanh(1/3). -/
def ln2At (p : Nat) : Int :=
  let z : Int := 2 ^ p / 3
  2 * atanSeries p false (z * z / 2 ^ p) p 0 z 0

/-- arctan (1/k). -/
def atanInv (p k : Nat) : Int := let z : Int := 2 ^ p / k; atanSeries p true (z * z / 2 ^ p) p 0 z 0

/-- π = 16·arctan(1/5) − 4·arctan(1/239). -/
def piAt (p : Nat) : Int := 16 * atanInv p 5 - 4 * atanInv p 239

/-- `x / den` at precision `p`. -/
def fixedAt (p : Nat) (x : Int) (den : Nat) : Int := x * 2 ^ p / den

/-- e^(x/den) at precision `p`, for a magnitude below 2^10. -/
def expAt (p : Nat) (x : Int) (den : Nat) : Int :=
  let q := p + 32
  let l := ln2At q
  let t := fixedAt q x den
  let k := t / l
  let r := t - k * l
  let e := expSeries q r q 0 (2 ^ q) 0
  if 0 ≤ k then e * 2 ^ k.toNat / 2 ^ 32 else e / 2 ^ (32 + (-k).toNat)

/-- 2^(x/den) at precision `p`; the magnitude of the exponent is below 2^12. -/
def exp2At (p : Nat) (x : Int) (den : Nat) : Int :=
  let k := x / den
  let q := p + 32 + k.toNat
  let r := fixedAt q (x - k * den) den * ln2At q / 2 ^ q
  let e := expSeries q r q 0 (2 ^ q) 0
  if 0 ≤ k then e / 2 ^ 32 else e / 2 ^ (32 + (-k).toNat)

/-- log2 (num/den) at precision `p`. -/
def log2At (p num den : Nat) : Int :=
  let q := p + 32
  let e := floorLog2 num den
  let n := if 0 ≤ e then num else num * 2 ^ (-e).toNat
  let d := if 0 ≤ e then den * 2 ^ e.toNat else den
  let z := fixedAt q ((n : Int) - d) (n + d)
  let l := 2 * atanSeries q false (z * z / 2 ^ q) q 0 z 0
  (e * 2 ^ q + l * 2 ^ q / ln2At q) / 2 ^ 32

/-- tanh at precision `p`: 1 − 2/(e^2a + 1). -/
def tanhAt (p : Nat) (x : Int) (den : Nat) : Int :=
  let q := p + 32
  let e := expAt q (2 * x) den
  (2 ^ q - 2 ^ (2 * q + 1) / (e + 2 ^ q)) / 2 ^ 32

/-- 1/(1 + e^−a) at precision `p`. -/
def sigAt (p : Nat) (x : Int) (den : Nat) : Int :=
  let q := p + 32
  2 ^ (2 * q) / (2 ^ q + expAt q (-x) den) / 2 ^ 32

/-- Σ 2ⁿ·a^(2n+1)/(2n+1)!!; `m` is 2·a² at precision `p`. -/
def erfSeries (p : Nat) (m : Int) : Nat → Nat → Int → Int → Int
  | 0, _, _, acc => acc
  | f + 1, n, term, acc =>
    if term = 0 then acc else erfSeries p m f (n + 1) (term * m / (2 ^ p * (2 * n + 3 : Nat))) (acc + term)

/-- erf at precision `p`, for a magnitude below 14: (2/√π)·e^(−a²)·Σ. -/
def erfAt (p : Nat) (x : Int) (den : Nat) : Int :=
  let q := p + 352
  let a := fixedAt q x den
  let s := erfSeries q (2 * (a * a / 2 ^ q)) (4 * q) 0 a 0
  let e := expAt q (-(x * x)) (den * den)
  let rootPi : Int := isqrt (piAt q * 2 ^ q).toNat
  (2 * (e * s / 2 ^ q) * 2 ^ q / rootPi) / 2 ^ 352

/-- Σ of the sine (from term r) or cosine (from term 1) series; `r2` is r² at precision `p`. -/
def trigSeries (p : Nat) (r2 : Int) : Nat → Nat → Int → Int → Int
  | 0, _, _, acc => acc
  | f + 1, n, term, acc =>
    if term = 0 then acc else
      trigSeries p r2 f (n + 2) (-(term * r2) / (2 ^ p * ((n + 1) * (n + 2) : Nat))) (acc + term)

/-- sin (cosine when `cos`) at precision `p`, with the reduction by π/2 carried exactly. -/
def sinAt (cos : Bool) (p : Nat) (x : Int) (den : Nat) : Int :=
  let q := p + 64 + x.natAbs.log2
  let a := fixedAt q x den
  let h := piAt q / 2
  let k := a / h
  let r := a - k * h
  let j := ((k + b2n cos) % 4).toNat
  let r2 := r * r / 2 ^ q
  let s := trigSeries q r2 q 1 r 0
  let c := trigSeries q r2 q 0 (2 ^ q) 0
  let v := if j = 0 then s else if j = 1 then c else if j = 2 then -s else -c
  v / 2 ^ (q - p)

/-- √(num/den): exact when it is rational, else its stand-in. -/
def realSqrt (num den : Nat) : XR :=
  let a := isqrt num
  let b := isqrt den
  if a * a = num ∧ b * b = den then .fin false a b
  else realCell (isqrt (num * 2 ^ (2 * realBits) / den))

/-- 2^a. Values past 2^2000 stand as 2^2000, which every format and scale treats alike. -/
def realExp2 (neg : Bool) (num den : Nat) : XR :=
  let x := xNum neg num
  let k := x / den
  if 2000 ≤ k then .fin false (2 ^ 2000) 1
  else if k < -400 then realCell 0
  else if den = 1 then xScaled false 1 x
  else realValue 0 x den (fun p => exp2At p x den)

/-- log2 of a positive value. -/
def realLog2 (num den : Nat) : XR :=
  let e := floorLog2 num den
  if (if 0 ≤ e then num = den * 2 ^ e.toNat else num * 2 ^ (-e).toNat = den) then xInt e
  else realValue 1 num den (fun p => log2At p num den)

/-- The value just inside ±1. -/
def nearOne (neg : Bool) : XR := realCell (if neg then -(2 ^ realBits : Int) else 2 ^ realBits - 1)

/-- tanh of a non-zero value. -/
def realTanh (neg : Bool) (num den : Nat) : XR :=
  if 90 * den ≤ num then nearOne neg else realValue 2 (xNum neg num) den (fun p => tanhAt p (xNum neg num) den)

/-- The logistic function of a non-zero value. -/
def realSig (neg : Bool) (num den : Nat) : XR :=
  if 180 * den ≤ num then (if neg then realCell 0 else nearOne false)
  else realValue 3 (xNum neg num) den (fun p => sigAt p (xNum neg num) den)

/-- erf of a non-zero value. -/
def realErf (neg : Bool) (num den : Nat) : XR :=
  if 14 * den ≤ num then nearOne neg else realValue 4 (xNum neg num) den (fun p => erfAt p (xNum neg num) den)

/-- sin of a non-zero value. -/
def realSin (neg : Bool) (num den : Nat) : XR := realValue 5 (xNum neg num) den (fun p => sinAt false p (xNum neg num) den)
/-- cos of a non-zero value. -/
def realCos (neg : Bool) (num den : Nat) : XR := realValue 6 (xNum neg num) den (fun p => sinAt true p (xNum neg num) den)

/-- The square root of R104 and R194: √(−0) is −0, and a value below −0 is NaN and sets NV. -/
def fSqrt : XR → FV
  | .nan => (.nan, 0)
  | .inf neg => if neg then (.nan, flagNV) else (.inf false, 0)
  | .fin neg n d => if n = 0 then (.fin neg 0 1, 0) else if neg then (.nan, flagNV) else (realSqrt n d, 0)

/-- VEXP2 of R194. -/
def fExp2 : XR → FV
  | .nan => (.nan, 0)
  | .inf neg => (if neg then xZero else .inf false, 0)
  | .fin neg n d => (if n = 0 then xOne else realExp2 neg n d, 0)

/-- VLOG2 of R194. -/
def fLog2 : XR → FV
  | .nan => (.nan, 0)
  | .inf neg => if neg then (.nan, flagNV) else (.inf false, 0)
  | .fin neg n d => if n = 0 then (.inf true, flagDZ) else if neg then (.nan, flagNV) else (realLog2 n d, 0)

/-- VRCP of R194. -/
def fRcp : XR → FV
  | .nan => (.nan, 0)
  | .inf neg => (.fin neg 0 1, 0)
  | .fin neg n d => if n = 0 then (.inf neg, flagDZ) else (.fin neg d n, 0)

/-- VRSQ of R194. -/
def fRsq : XR → FV
  | .nan => (.nan, 0)
  | .inf neg => if neg then (.nan, flagNV) else (xZero, 0)
  | .fin neg n d => if n = 0 then (.inf neg, flagDZ) else if neg then (.nan, flagNV) else (realSqrt d n, 0)

/-- VTANH of R194. -/
def fTanh : XR → FV
  | .nan => (.nan, 0)
  | .inf neg => (.fin neg 1 1, 0)
  | .fin neg n d => (if n = 0 then .fin neg 0 1 else realTanh neg n d, 0)

/-- VSIG of R194. -/
def fSig : XR → FV
  | .nan => (.nan, 0)
  | .inf neg => (if neg then xZero else xOne, 0)
  | .fin neg n d => (if n = 0 then .fin false 1 2 else realSig neg n d, 0)

/-- VERF of R194. -/
def fErf : XR → FV
  | .nan => (.nan, 0)
  | .inf neg => (.fin neg 1 1, 0)
  | .fin neg n d => (if n = 0 then .fin neg 0 1 else realErf neg n d, 0)

/-- VSIN of R194. -/
def fSin : XR → FV
  | .nan => (.nan, 0)
  | .inf _ => (.nan, flagNV)
  | .fin neg n d => (if n = 0 then .fin neg 0 1 else realSin neg n d, 0)

/-- VCOS of R194. -/
def fCos : XR → FV
  | .nan => (.nan, 0)
  | .inf _ => (.nan, flagNV)
  | .fin neg n d => (if n = 0 then xOne else realCos neg n d, 0)

end Sys2Proof.Machine
end

