-- ==== Sys2Proof/Machine/Float.lean ====
section
/-! DEFINITION. The scalar floating-point instructions (R102 to R110). -/

namespace Sys2Proof.Machine

/-- The F32 value of a general register (R102). -/
def f32Of (s : State) (i : Nat) : XR := decodeFmt .f32 (bitField (readReg s i).toNat 0 32)

/-- The rounding of a scalar instruction: tag 0 and idx 0 (R102). -/
def scalarRounding (s : State) (rm : Rm) : Rounding := roundingOf s.core.vctlLo s.core.vctlSeed rm 0 0

/-- The result of an exact value: its encoding and its flags (R102, R104). -/
def scalarRound (s : State) (rm : Rm) (f : Fmt) (x : FV) : Nat × Flags :=
  let r := roundTo x.1 f (scalarRounding s rm)
  (r.1, x.2 ||| r.2)

/-- A value written with its flags, unless an enabled exception faults (R103). -/
def flagged (s : State) (gd v : Nat) (fl : Flags) : Outcome :=
  run s ((raiseFlags s s.core.vctlLo fl).map fun s => writeNat s gd v)

/-- An arithmetic instruction with one rounding to F32 (R104). -/
def fArith (s : State) (gd : Nat) (rm : Rm) (x : FV) : Outcome :=
  let r := scalarRound s rm .f32 x
  flagged s gd r.1 r.2

/-- The rounding mode in force is RDN, which decides the sign of an exact zero sum (R33). -/
def roundsDown (s : State) (rm : Rm) : Bool := modeOf s.core.vctlLo rm = .rdn

/-- FADD (R104). -/
def execFadd (gd ga gb : Nat) (rm : Rm) (s : State) : Outcome := fArith s gd rm (xAdd (roundsDown s rm) (f32Of s ga) (f32Of s gb))
/-- FSUB (R104). -/
def execFsub (gd ga gb : Nat) (rm : Rm) (s : State) : Outcome := fArith s gd rm (xSub (roundsDown s rm) (f32Of s ga) (f32Of s gb))
/-- FMUL (R104). -/
def execFmul (gd ga gb : Nat) (rm : Rm) (s : State) : Outcome := fArith s gd rm (xMul (f32Of s ga) (f32Of s gb))
/-- FFMA (R104): the addend is the prior value of gd. -/
def execFfma (gd ga gb : Nat) (rm : Rm) (s : State) : Outcome :=
  fArith s gd rm (xFma (roundsDown s rm) (f32Of s ga) (f32Of s gb) (f32Of s gd))
/-- FDIV (R104). -/
def execFdiv (gd ga gb : Nat) (rm : Rm) (s : State) : Outcome := fArith s gd rm (xDiv (f32Of s ga) (f32Of s gb))
/-- FSQRT (R104). -/
def execFsqrt (gd ga : Nat) (rm : Rm) (s : State) : Outcome := fArith s gd rm (fSqrt (f32Of s ga))

/-- The bits of the lesser or greater of two F32 encodings, −0 below +0; the canonical NaN when either is NaN (R105). -/
def f32Pick (greater : Bool) (a b : Nat) : Nat :=
  let x := decodeFmt .f32 a
  let y := decodeFmt .f32 b
  if xIsNan x || xIsNan y then 0x7FC00000
  else if (if greater then xLtSigned x y else xLtSigned y x) then b else a

/-- FMIN (R105). -/
def execFmin (gd ga gb : Nat) (s : State) : Outcome :=
  finish (writeNat s gd (f32Pick false (bitField (readReg s ga).toNat 0 32) (bitField (readReg s gb).toNat 0 32)))
/-- FMAX (R105). -/
def execFmax (gd ga gb : Nat) (s : State) : Outcome :=
  finish (writeNat s gd (f32Pick true (bitField (readReg s ga).toNat 0 32) (bitField (readReg s gb).toNat 0 32)))

/-- The relation of FCMP and its flag (R106). -/
def fRelation (cc : FCond) (x y : XR) : Bool × Flags :=
  let un := xIsNan x || xIsNan y
  let o := xCmp x y
  match cc with
  | .eq => (o == some .eq, 0)
  | .lt => (o == some .lt, if un then flagNV else 0)
  | .le => (o == some .lt || o == some .eq, if un then flagNV else 0)
  | .un => (un, 0)

/-- FCMP (R106). -/
def execFcmp (cc : FCond) (gd ga gb : Nat) (s : State) : Outcome :=
  let r := fRelation cc (f32Of s ga) (f32Of s gb)
  flagged s gd (b2n r.1) r.2

/-- The class of an F32 encoding: the bit of R107. -/
def f32Class (b : Nat) : Nat :=
  let neg := bitAt b 31
  let mag := b % 2 ^ 31
  if mag > 0x7F800000 then 8
  else if mag = 0x7F800000 then if neg then 0 else 7
  else if mag = 0 then if neg then 3 else 4
  else if mag < 0x800000 then if neg then 2 else 5
  else if neg then 1 else 6

/-- FCLASS (R107). -/
def execFclass (gd ga : Nat) (s : State) : Outcome := finish (writeNat s gd (2 ^ f32Class (bitField (readReg s ga).toNat 0 32)))

/-- A result of FCVT.TO in a general register: signed integer formats are sign-extended (R108). -/
def cvtWord (f : Fmt) (y : Nat) : Nat :=
  match f with
  | .i4s | .i8 | .i16 | .i32 | .i64 => truncBits (signExt y (fmtWidth f)) 64
  | _ => y

/-- FCVT.TO (R108, R110). -/
def execFcvtTo (gd ga fmt : Nat) (rm : Rm) (s : State) : Outcome :=
  match fmtOfCode fmt with
  | some .b1 | none => .next (trapCur s { cause := .formatUnsupported })
  | some f => let r := scalarRound s rm f (f32Of s ga, 0); flagged s gd (cvtWord f r.1) r.2

/-- FCVT.FROM (R109, R110). -/
def execFcvtFrom (gd ga fmt : Nat) (rm : Rm) (s : State) : Outcome :=
  let f := (fmtOfCode fmt).getD .f32
  let bits := bitField (readReg s ga).toNat 0 (fmtWidth f)
  fArith s gd rm (decodeFmt f bits, if i4Reserved f bits then flagI4 else 0)

end Sys2Proof.Machine
end

