-- ==== Sys2Proof/Machine/VecArith.lean ====
section
/-! DEFINITION. Region arithmetic: the elementwise, conversion and transcendental instructions of the vector engine, their issue and their elements
(R178 to R200). -/

namespace Sys2Proof.Machine

/-- The types that a V-class operand may have (R178). -/
def vecTypes : List Nat := [1, 2, 4]
def notBit (f : Fmt) : Bool := f ≠ .b1
def bitOrInt (f : Fmt) : Bool := f = .b1 || fmtInteger f

/-- The count that the valid count clamps: rows of a destination of several rows, else elements (R179). -/
def vecCount (ds : List Desc) : Nat := let d := ds.headD default; if descRows d > 1 then descRows d else descN d

/-- VLim of R179 for an entry. -/
def vlim (e : QEntry) (dd : Desc) : Nat := if descRows dd > 1 then e.count * descCount dd else e.count

/-- A format refused under R185. -/
def needFmt (ok : Bool) (code : Nat) : Res Unit := if ok then .ok () else faultOp .formatUnsupported code
def unscaled (d : Desc) (code : Nat) : Res Unit := needFmt (d.sfmt = 0) code
/-- SrcIndex succeeds for a source (R179). -/
def paired (src dd : Desc) : Res Unit := require (srcIndex src dd 0).isSome .vecCount
/-- A source for the overlap rule of R181: its exception needs a source that is not broadcast. -/
def vecSource (dd src : Desc) (code : Nat) : Nat × Desc × Bool := (code, src, broadcasts src dd)

/-- The issue of an instruction of the vector engine. -/
def issueVec (s : State) (i : Instr) (sy : Sync) (uses : List (Nat × Nat × Bool)) (hregs : List Nat) (checks : List Desc → Res Unit) : Outcome :=
  run s (issue s i { engine := .vector, sync := sy, uses := uses, hregs := hregs } vecCount fun ds _ _ => checks ds)

/-- The checks of an instruction that rounds the value of some sources (R185, R199): the descriptors come in the order dd, da, db, then the selector or
bound (log 87). -/
def valueChecks (dd : Desc) (srcs : List (Nat × Desc)) : Res Unit :=
  inOrder ([needDesc dd vecTypes notBit 1] ++ srcs.map (fun p => needDesc p.2 vecTypes anyFmt p.1) ++ srcs.map (fun p => paired p.2 dd) ++
    [noOverlap dd 1 (srcs.map fun p => vecSource dd p.2 p.1)])

/-- The issue of a one-source instruction. -/
def issueOne1 (s : State) (i : Instr) (dd da : Nat) (sy : Sync) : Outcome :=
  issueVec s i sy [(1, dd, true), (2, da, false)] [] fun ds => valueChecks (ds.getD 0 default) [(2, ds.getD 1 default)]

/-- The issue of a two-source instruction. -/
def issueTwo (s : State) (i : Instr) (dd da db : Nat) (sy : Sync) : Outcome :=
  issueVec s i sy [(1, dd, true), (2, da, false), (3, db, false)] [] fun ds =>
    valueChecks (ds.getD 0 default) [(2, ds.getD 1 default), (3, ds.getD 2 default)]

/-- The issue of VFMA and VFMS: the destination is a source too, so a ring there is named twice (R188). -/
def issueFused (s : State) (i : Instr) (dd da db : Nat) (sy : Sync) : Outcome :=
  issueVec s i sy [(1, dd, true), (2, da, false), (3, db, false), (1, dd, false)] [] fun ds =>
    valueChecks (ds.getD 0 default) [(2, ds.getD 1 default), (3, ds.getD 2 default)]

/-- The issue of an instruction on raw bits (R185, R190, R195). -/
def issueBits (s : State) (i : Instr) (dd da : Nat) (others : List Nat) (sy : Sync) : Outcome :=
  issueVec s i sy ([(1, dd, true), (2, da, false)] ++ others.map fun b => (3, b, false)) [] fun ds =>
    let d := ds.getD 0 default
    let srcs := (ds.drop 1).zip [2, 3]
    inOrder ([needDesc d vecTypes anyFmt 1] ++ srcs.map (fun p => needDesc p.1 vecTypes anyFmt p.2) ++ [unscaled d 1] ++
      srcs.map (fun p => needFmt (p.1.sfmt = 0 && descWidth p.1 = descWidth d) p.2) ++ srcs.map (fun p => paired p.1 d) ++
      [noOverlap d 1 (srcs.map fun p => vecSource d p.1 p.2)])

/-- The issue of a shift (R185, R191). -/
def issueShift (s : State) (i : Instr) (dd da db : Nat) (sy : Sync) : Outcome :=
  issueVec s i sy [(1, dd, true), (2, da, false), (3, db, false)] [] fun ds =>
    let d := ds.getD 0 default; let a := ds.getD 1 default; let b := ds.getD 2 default
    inOrder [needDesc d vecTypes anyFmt 1, needDesc a vecTypes anyFmt 2, needDesc b vecTypes fmtInteger 3, unscaled d 1,
      needFmt (a.sfmt = 0 && descWidth a = descWidth d) 2, unscaled b 3, paired a d, paired b d,
      noOverlap d 1 [vecSource d a 2, vecSource d b 3]]

/-- VADD (R187): its issue. -/
def execVadd (dd da db : Nat) (rm : Rm) (sy : Sync) (s : State) : Outcome := issueTwo s (.vadd dd da db rm sy) dd da db sy
/-- VSUB (R187): its issue. -/
def execVsub (dd da db : Nat) (rm : Rm) (sy : Sync) (s : State) : Outcome := issueTwo s (.vsub dd da db rm sy) dd da db sy
/-- VMUL (R187): its issue. -/
def execVmul (dd da db : Nat) (rm : Rm) (sy : Sync) (s : State) : Outcome := issueTwo s (.vmul dd da db rm sy) dd da db sy
/-- VFMA (R188): its issue. -/
def execVfma (dd da db : Nat) (rm : Rm) (sy : Sync) (s : State) : Outcome := issueFused s (.vfma dd da db rm sy) dd da db sy
/-- VFMS (R188): its issue. -/
def execVfms (dd da db : Nat) (rm : Rm) (sy : Sync) (s : State) : Outcome := issueFused s (.vfms dd da db rm sy) dd da db sy
/-- VDIV (R187): its issue. -/
def execVdiv (dd da db : Nat) (rm : Rm) (sy : Sync) (s : State) : Outcome := issueTwo s (.vdiv dd da db rm sy) dd da db sy
/-- VMIN (R187): its issue. -/
def execVmin (dd da db : Nat) (rm : Rm) (sy : Sync) (s : State) : Outcome := issueTwo s (.vmin dd da db rm sy) dd da db sy
/-- VMAX (R187): its issue. -/
def execVmax (dd da db : Nat) (rm : Rm) (sy : Sync) (s : State) : Outcome := issueTwo s (.vmax dd da db rm sy) dd da db sy
/-- VABS (R189): its issue. -/
def execVabs (dd da : Nat) (rm : Rm) (sy : Sync) (s : State) : Outcome := issueOne1 s (.vabs dd da rm sy) dd da sy
/-- VNEG (R189): its issue. -/
def execVneg (dd da : Nat) (rm : Rm) (sy : Sync) (s : State) : Outcome := issueOne1 s (.vneg dd da rm sy) dd da sy
/-- VAND (R190): its issue. -/
def execVand (dd da db : Nat) (sy : Sync) (s : State) : Outcome := issueBits s (.vand dd da db sy) dd da [db] sy
/-- VOR (R190): its issue. -/
def execVor (dd da db : Nat) (sy : Sync) (s : State) : Outcome := issueBits s (.vor dd da db sy) dd da [db] sy
/-- VXOR (R190): its issue. -/
def execVxor (dd da db : Nat) (sy : Sync) (s : State) : Outcome := issueBits s (.vxor dd da db sy) dd da [db] sy
/-- VNOT (R190): its issue. -/
def execVnot (dd da : Nat) (sy : Sync) (s : State) : Outcome := issueBits s (.vnot dd da sy) dd da [] sy
/-- VSHL (R191): its issue. -/
def execVshl (dd da db : Nat) (sy : Sync) (s : State) : Outcome := issueShift s (.vshl dd da db sy) dd da db sy
/-- VSHR (R191): its issue. -/
def execVshr (dd da db : Nat) (sy : Sync) (s : State) : Outcome := issueShift s (.vshr dd da db sy) dd da db sy
/-- VSAR (R191): its issue. -/
def execVsar (dd da db : Nat) (sy : Sync) (s : State) : Outcome := issueShift s (.vsar dd da db sy) dd da db sy
/-- VCVT (R189): its issue. -/
def execVcvt (dd da : Nat) (rm : Rm) (sy : Sync) (s : State) : Outcome := issueOne1 s (.vcvt dd da rm sy) dd da sy
/-- VEXP2 (R194): its issue. -/
def execVexp2 (dd da : Nat) (rm : Rm) (sy : Sync) (s : State) : Outcome := issueOne1 s (.vexp2 dd da rm sy) dd da sy
/-- VLOG2 (R194): its issue. -/
def execVlog2 (dd da : Nat) (rm : Rm) (sy : Sync) (s : State) : Outcome := issueOne1 s (.vlog2 dd da rm sy) dd da sy
/-- VRCP (R194): its issue. -/
def execVrcp (dd da : Nat) (rm : Rm) (sy : Sync) (s : State) : Outcome := issueOne1 s (.vrcp dd da rm sy) dd da sy
/-- VRSQ (R194): its issue. -/
def execVrsq (dd da : Nat) (rm : Rm) (sy : Sync) (s : State) : Outcome := issueOne1 s (.vrsq dd da rm sy) dd da sy
/-- VSQRT (R194): its issue. -/
def execVsqrt (dd da : Nat) (rm : Rm) (sy : Sync) (s : State) : Outcome := issueOne1 s (.vsqrt dd da rm sy) dd da sy
/-- VTANH (R194): its issue. -/
def execVtanh (dd da : Nat) (rm : Rm) (sy : Sync) (s : State) : Outcome := issueOne1 s (.vtanh dd da rm sy) dd da sy
/-- VSIG (R194): its issue. -/
def execVsig (dd da : Nat) (rm : Rm) (sy : Sync) (s : State) : Outcome := issueOne1 s (.vsig dd da rm sy) dd da sy
/-- VERF (R194): its issue. -/
def execVerf (dd da : Nat) (rm : Rm) (sy : Sync) (s : State) : Outcome := issueOne1 s (.verf dd da rm sy) dd da sy
/-- VSIN (R194): its issue. -/
def execVsin (dd da : Nat) (rm : Rm) (sy : Sync) (s : State) : Outcome := issueOne1 s (.vsin dd da rm sy) dd da sy
/-- VCOS (R194): its issue. -/
def execVcos (dd da : Nat) (rm : Rm) (sy : Sync) (s : State) : Outcome := issueOne1 s (.vcos dd da rm sy) dd da sy

/-- VCMP (R185, R192): its issue. -/
def execVcmp (cc : VCond) (dd da db : Nat) (sy : Sync) (s : State) : Outcome :=
  issueVec s (.vcmp cc dd da db sy) sy [(1, dd, true), (2, da, false), (3, db, false)] [] fun ds =>
    let d := ds.getD 0 default; let a := ds.getD 1 default; let b := ds.getD 2 default
    inOrder [needDesc d vecTypes bitOrInt 1, needDesc a vecTypes anyFmt 2, needDesc b vecTypes anyFmt 3, unscaled d 1, paired a d, paired b d,
      noOverlap d 1 [vecSource d a 2, vecSource d b 3]]

/-- VSEL (R185, R193): its issue. The selector stands in d((dd + 1) mod 32). -/
def execVsel (dd da db : Nat) (rm : Rm) (sy : Sync) (s : State) : Outcome :=
  issueVec s (.vsel dd da db rm sy) sy [(1, dd, true), (2, da, false), (3, db, false), (4, (dd + 1) % 32, false)] [] fun ds =>
    let d := ds.getD 0 default; let a := ds.getD 1 default; let b := ds.getD 2 default; let m := ds.getD 3 default
    inOrder [needDesc d vecTypes notBit 1, needDesc a vecTypes anyFmt 2, needDesc b vecTypes anyFmt 3, needDesc m vecTypes bitFmt 4,
      paired a d, paired b d, paired m d, noOverlap d 1 [vecSource d a 2, vecSource d b 3, vecSource d m 4]]

/-- VCLAMP (R185, R189): its issue. The upper bound stands in d((db + 1) mod 32). -/
def execVclamp (dd da db : Nat) (rm : Rm) (sy : Sync) (s : State) : Outcome :=
  issueVec s (.vclamp dd da db rm sy) sy [(1, dd, true), (2, da, false), (3, db, false), (4, (db + 1) % 32, false)] [] fun ds =>
    valueChecks (ds.getD 0 default) [(2, ds.getD 1 default), (3, ds.getD 2 default), (4, ds.getD 3 default)]

/-- VSCALE (R185, R189): its issue. -/
def execVscale (dd da db : Nat) (rm : Rm) (sy : Sync) (s : State) : Outcome :=
  issueVec s (.vscale dd da db rm sy) sy [(1, dd, true), (2, da, false), (3, db, false)] [] fun ds =>
    let d := ds.getD 0 default; let a := ds.getD 1 default; let b := ds.getD 2 default
    inOrder [needDesc d vecTypes notBit 1, needDesc a vecTypes anyFmt 2, needDesc b vecTypes fmtInteger 3, unscaled b 3, paired a d, paired b d,
      noOverlap d 1 [vecSource d a 2, vecSource d b 3]]

/-- VBCAST (R197): its issue. -/
def execVbcast (kind : BcastKind) (dd ha : Nat) (rm : Rm) (sy : Sync) (s : State) : Outcome :=
  issueVec s (.vbcast kind dd ha rm sy) sy [(1, dd, true)] [ha] fun ds => needDesc (ds.getD 0 default) vecTypes notBit 1

/-- VIOTA (R198): its issue. -/
def execViota (row : Bool) (dd ha hb : Nat) (rm : Rm) (sy : Sync) (s : State) : Outcome :=
  issueVec s (.viota row dd ha hb rm sy) sy [(1, dd, true)] [ha, hb] fun ds => needDesc (ds.getD 0 default) vecTypes notBit 1

/-- VPERM (R185, R196): its issue. The exception of R168 never applies to its sources. -/
def execVperm (oob : Bool) (dd da db : Nat) (rm : Rm) (sy : Sync) (s : State) : Outcome :=
  issueVec s (.vperm oob dd da db rm sy) sy [(1, dd, true), (2, da, false), (3, db, false)] [] fun ds =>
    let d := ds.getD 0 default; let a := ds.getD 1 default; let b := ds.getD 2 default
    inOrder [needDesc d vecTypes anyFmt 1, needDesc a vecTypes anyFmt 2, needDesc b vecTypes fmtInteger 3, unscaled b 3,
      needFmt (descFmt d ≠ .b1 || descFmt a = .b1) 1, paired b d, require (descRows a = descRows d || descRows a = 1) .vecCount,
      noOverlap d 1 [(2, a, true), (3, b, true)]]

/-- VMOV (R195): its issue. -/
def execVmov (dd da : Nat) (sy : Sync) (s : State) : Outcome := issueBits s (.vmov dd da sy) dd da [] sy

/-! ### Elements -/

/-- The value of the element of a source that pairs with element `i` of the destination (R179). -/
def pairedVal (s : State) (o : Operand) (dd : Desc) (i : Nat) : Res (State × FV) := presentVal s o ((srcIndex o.d dd i).getD i)
/-- The raw bits of that element. -/
def pairedBits (s : State) (o : Operand) (dd : Desc) (i : Nat) : Res (State × Nat) := presentBits s o ((srcIndex o.d dd i).getD i)

/-- A unit that rounds a function of the values of some sources (R186). The function is told whether the mode is RDN (R33). -/
def unitVal (s : State) (e : QEntry) (rm : Rm) (srcs : List Operand) (f : Bool → List XR → FV) : UnitRes :=
  let dd := operandAt e 0 1
  unitWrite s e dd rm (vlim e dd.d) fun s i =>
    (mapRes (fun s k => pairedVal s (srcs.getD k default) dd.d i) s (upFrom 0 srcs.length)).map fun r =>
      let v := f (modeOf e.vctl rm = .rdn) (r.2.map (·.1))
      (r.1, (v.1, r.2.foldl (fun a x => a ||| x.2) v.2))

/-- A unit of a one-source instruction. -/
def unitOf1 (s : State) (e : QEntry) (rm : Rm) (f : XR → FV) : UnitRes :=
  unitVal s e rm [operandAt e 1 2] fun _ xs => f (xs.getD 0 xZero)

/-- A unit of a two-source instruction. -/
def unitOf2 (s : State) (e : QEntry) (rm : Rm) (f : Bool → XR → XR → FV) : UnitRes :=
  unitVal s e rm [operandAt e 1 2, operandAt e 2 3] fun rdn xs => f rdn (xs.getD 0 xZero) (xs.getD 1 xZero)

/-- A unit of VFMA or VFMS (R188): the third value is the destination's old one. -/
def unitFused (s : State) (e : QEntry) (rm : Rm) (minus : Bool) : UnitRes :=
  unitVal s e rm [operandAt e 1 2, operandAt e 2 3, operandAt e 3 1] fun rdn xs =>
    let c := xs.getD 2 xZero
    xFma rdn (xs.getD 0 xZero) (xs.getD 1 xZero) (if minus then xOpp c else c)

/-- The lesser of two values, −0 below +0; NaN when either is (R187). -/
def xMin (x y : XR) : XR := if xIsNan x || xIsNan y then .nan else if xLtSigned y x then y else x
/-- The greater of two values (R187). -/
def xMax (x y : XR) : XR := if xIsNan x || xIsNan y then .nan else if xLtSigned x y then y else x

/-- `a × 2 ^ e` (R189). An exponent beyond 4,096 either way rounds as 4,096 does in every format, so it is cut there. -/
def xShift (x : XR) (e : Int) : XR :=
  let e := if e > 4096 then 4096 else if e < -4096 then -4096 else e
  match x with
  | .fin s n d => if n = 0 then .fin s n d else if 0 ≤ e then xFin s (n * 2 ^ e.toNat) d else xFin s n (d * 2 ^ (-e).toNat)
  | x => x

/-- A unit that writes raw bits with flags into each element (R190 to R192). -/
def unitBits (s : State) (e : QEntry) (f : State → Nat → Res (State × Nat × Flags)) : UnitRes :=
  let dd := operandAt e 0 1
  let limit := vlim e dd.d
  if e.progress ≥ limit then .ok ⟨s, e, true⟩
  else match f s e.progress with
  | .error x => .error x
  | .ok (s, b, fl) => match writeChecked s e dd e.progress b fl with
    | .error x => .error x
    | .ok s => progressTo s e (e.progress + 1) limit

/-- A unit of a bitwise instruction on two sources (R190). -/
def unitBitwise (s : State) (e : QEntry) (f : Nat → Nat → Nat) : UnitRes :=
  let d := (operandAt e 0 1).d
  unitBits s e fun s i =>
    match pairedBits s (operandAt e 1 2) d i with
    | .error x => .error x
    | .ok (s, a) => (pairedBits s (operandAt e 2 3) d i).map fun r => (r.1, f a r.2, 0)

/-- A unit of VNOT or VMOV (R190, R195). -/
def unitBitwise1 (s : State) (e : QEntry) (f : Nat → Nat) : UnitRes :=
  let d := (operandAt e 0 1).d
  unitBits s e fun s i => (pairedBits s (operandAt e 1 2) d i).map fun r => (r.1, f r.2, 0)

/-- Shifts of a pattern of `w` bits (R191). -/
def shiftLeft (w p : Nat) (n : Int) : Nat := if 0 ≤ n ∧ n < w then p * 2 ^ n.toNat % 2 ^ w else 0
def shiftRight (w p : Nat) (n : Int) : Nat := if 0 ≤ n ∧ n < w then p / 2 ^ n.toNat else 0
def shiftArith (w p : Nat) (n : Int) : Nat :=
  let v := signExt p w
  if 0 ≤ n ∧ n < w then truncBits (v / 2 ^ n.toNat) w else truncBits (if v < 0 then -1 else 0) w

/-- A unit of a shift (R191). -/
def unitShift (s : State) (e : QEntry) (f : Nat → Nat → Int → Nat) : UnitRes :=
  let d := (operandAt e 0 1).d
  unitBits s e fun s i =>
    match pairedBits s (operandAt e 1 2) d i with
    | .error x => .error x
    | .ok (s, p) => (pairedVal s (operandAt e 2 3) d i).map fun r => (r.1, f (descWidth d) p (indexVal r.2), r.2.2)

/-- The relation of VCMP and its flag (R192). -/
def vRelation (cc : VCond) (x y : XR) : Bool × Flags :=
  let un := xIsNan x || xIsNan y
  let o := xCmp x y
  let nv : Flags := if un then flagNV else 0
  match cc with
  | .eq => (o == some .eq, 0)
  | .ne => (o != some .eq, 0)
  | .lt => (o == some .lt, nv)
  | .le => (o == some .lt || o == some .eq, nv)
  | .gt => (o == some .gt, nv)
  | .ge => (o == some .gt || o == some .eq, nv)
  | .un => (un, 0)
  | .ord => (!un, 0)

/-- A unit of VCMP (R192). -/
def unitVcmp (s : State) (e : QEntry) (cc : VCond) : UnitRes :=
  let d := (operandAt e 0 1).d
  unitBits s e fun s i =>
    match pairedVal s (operandAt e 1 2) d i with
    | .error x => .error x
    | .ok (s, a) => (pairedVal s (operandAt e 2 3) d i).map fun r =>
      let v := vRelation cc a.1 r.2.1
      (r.1, b2n v.1, v.2 ||| a.2 ||| r.2.2)

/-- A unit of VSEL (R193): both sources are read, one is decoded. -/
def unitVsel (s : State) (e : QEntry) (rm : Rm) : UnitRes :=
  let dd := operandAt e 0 1
  unitWrite s e dd rm (vlim e dd.d) fun s i =>
    match pairedBits s (operandAt e 3 4) dd.d i with
    | .error x => .error x
    | .ok (s, b) =>
      match pairedVal s (operandAt e 1 2) dd.d i with
      | .error x => .error x
      | .ok (s, x) => (pairedVal s (operandAt e 2 3) dd.d i).map fun r => (r.1, if b = 1 then x else r.2)

/-- A unit of VCLAMP (R189). -/
def unitVclamp (s : State) (e : QEntry) (rm : Rm) : UnitRes :=
  unitVal s e rm [operandAt e 1 2, operandAt e 2 3, operandAt e 3 4] fun _ xs =>
    (xMin (xMax (xs.getD 0 xZero) (xs.getD 1 xZero)) (xs.getD 2 xZero), 0)

/-- A unit of VSCALE (R189). -/
def unitVscale (s : State) (e : QEntry) (rm : Rm) : UnitRes :=
  unitOf2 s e rm fun _ a b => (xShift a (indexVal (b, 0)), 0)

/-- The value that VBCAST writes (R197). -/
def bcastVal (kind : BcastKind) (h : Nat) : XR :=
  match kind with
  | .hi64 => xInt (signExt h 64)
  | .hn64 => xInt h
  | .hf32 => decodeFmt .f32 (bitField h 0 32)
  | .hf16 => decodeFmt .f16 (bitField h 0 16)
  | .hbf16 => decodeFmt .bf16 (bitField h 0 16)

/-- A unit of VBCAST (R197). -/
def unitVbcast (s : State) (e : QEntry) (kind : BcastKind) (rm : Rm) : UnitRes :=
  let dd := operandAt e 0 1
  unitWrite s e dd rm (vlim e dd.d) fun s _ => .ok (s, (bcastVal kind (e.hvals.getD 0 0).toNat, 0))

/-- A unit of VIOTA (R198). The value is an integer, so an exact zero is +0 in every rounding mode (log 86). -/
def unitViota (s : State) (e : QEntry) (row : Bool) (rm : Rm) : UnitRes :=
  let dd := operandAt e 0 1
  unitWrite s e dd rm (vlim e dd.d) fun s i =>
    let j := if row then i % descCount dd.d else i
    .ok (s, (xInt ((e.hvals.getD 0 0).toInt + j * (e.hvals.getD 1 0).toInt), 0))

/-- The source element of VPERM for element `i` of the destination, with the flag of its index: `none` when the index is out of range, which faults
behind the ranges of the element's places unless OOB is set (rows 6 and 7 of R199). -/
def permIndex (s : State) (dd da db : Operand) (oob : Bool) (i : Nat) : Res (State × Option Nat × Flags) :=
  let places := elemTouches dd i .write
  let idx := elemTouches db ((srcIndex db.d dd.d i).getD i) .read
  match checkTouches s false idx with
  | .error _ => (checkTouches s false (places ++ idx)).map fun _ => (s, none, 0)
  | .ok () =>
    match pairedVal s db dd.d i with
    | .error x => .error x
    | .ok (s, v) =>
      let x := indexVal v
      let qa := if descRows da.d = 1 then 0 else i / descCount dd.d
      let k := if x < 0 ∨ x ≥ descCount da.d then none else some (qa * descCount da.d + x.toNat)
      match checkTouches s false (places ++ (match k with | none => [] | some k => elemTouches da k .read)) with
      | .error x => .error x
      | .ok () => if k.isNone && !oob then fault .vecCount else .ok (s, k, v.2)

/-- A unit of VPERM (R196). -/
def unitVperm (s : State) (e : QEntry) (oob : Bool) (rm : Rm) : UnitRes :=
  let dd := operandAt e 0 1; let da := operandAt e 1 2; let db := operandAt e 2 3
  let limit := vlim e dd.d
  let i := e.progress
  if i ≥ limit then .ok ⟨s, e, true⟩
  else
    let is := if (descScale dd.d).isSome then blockIndices dd.d i limit else [i]
    match mapRes (fun s i => (permIndex s dd da db oob i).map fun r => (r.1, (r.2.1, r.2.2))) s is with
    | .error x => .error x
    | .ok (s, ks) =>
      let fl := ks.foldl (fun a k => a ||| k.2) 0
      let moved : Res (State × List Bool) :=
        if (descScale dd.d).isSome then moveBlock s e dd da rm false fl (is.headD 0) (ks.map (·.1))
        else (moveElem s e dd da rm false fl i ((ks.map (·.1)).headD none)).map fun r => (r.1, [r.2])
      match moved with
      | .error x => .error x
      | .ok r => progressTo r.1 e (is.headD 0 + is.length) limit

end Sys2Proof.Machine
end

