-- ==== Sys2Proof/Machine/VecSelect.lean ====
section
/-! DEFINITION. Reductions, scans, distances, selection, histograms, sorting and the ranking unit: their issue and their units (R201 to R225). -/

namespace Sys2Proof.Machine

/-! ### Order and combination (R204 to R206) -/

/-- Strictly below in the total order of R205. -/
def xBelow (x y : XR) : Bool := if xIsNan x then !xIsNan y else if xIsNan y then false else xLtSigned x y

/-- The larger or smaller of two values under R205; NaN if either is NaN (R206). -/
def xLarger (x y : XR) : XR := if xIsNan x || xIsNan y then .nan else if xBelow x y then y else x
def xSmaller (x y : XR) : XR := if xIsNan x || xIsNan y then .nan else if xBelow y x then y else x

/-- The interior rounding of R204: none in the integer class, else to F32, setting OF and NV alone. -/
def roundInner (int : Bool) (x : FV) : FV :=
  if int then x else
    let r := roundTo x.1 .f32 interior
    (decodeFmt .f32 r.1, x.2 ||| (r.2 &&& (flagNV ||| flagOF)))

/-- A combination with its interior rounding. -/
def combine (int : Bool) (op : XR → XR → FV) (a b : FV) : FV :=
  let r := roundInner int (op a.1 b.1)
  (r.1, a.2 ||| b.2 ||| r.2)

/-- A source of the integer class (R204). -/
def intClass (d : Desc) : Bool := (fmtInteger (descFmt d) || descFmt d = .b1) && d.sfmt = 0

/-- An operation of VRED: its leaf, combination and identity (R206). -/
def redLeaf (op : RedOp) (a : XR) : FV :=
  match op with
  | .amax => (xAbs a, 0)
  | .sumsq => xMul a a
  | _ => (a, 0)
def redComb (op : RedOp) (a b : XR) : FV :=
  match op with
  | .sum | .sumsq => xAdd false a b
  | .max | .amax => (xLarger a b, 0)
  | .min => (xSmaller a b, 0)
def redIdent : RedOp → XR
  | .max => .inf true
  | .min => .inf false
  | _ => xZero

/-- The value of a tree over leaves, or the identity (R206). -/
def treeOr (int : Bool) (op : XR → XR → FV) (ident : XR) (leaves : List FV) : FV := (tree (combine int op) leaves).getD (ident, 0)

/-! ### Issue (R201 to R203, R224) -/

/-- Integer and unscaled (R202). -/
def intDest (d : Desc) (code : Nat) : Res Unit := needFmt (fmtInteger (descFmt d) && d.sfmt = 0) code
/-- The overlap rule of R224 for one destination and its sources. -/
def apart (dd : Desc) (dcode : Nat) (srcs : List (Nat × Desc)) : Res Unit := noOverlap dd dcode (srcs.map fun p => vecSource dd p.2 p.1)
/-- Two destinations do not meet (R224). -/
def destsApart (a b : Desc) : Res Unit := if intersects a b then faultOp .vecOverlap 5 else .ok ()
def shape (b : Bool) : Res Unit := require b .vecCount

/-- The issue of an instruction of this chapter, with its count. -/
def issueSel (s : State) (i : Instr) (sy : Sync) (uses : List (Nat × Nat × Bool)) (hregs : List Nat) (count : List Desc → Nat)
    (checks : List Desc → Res Unit) : Outcome :=
  run s (issue s i { engine := .vector, sync := sy, uses := uses, hregs := hregs } count fun ds _ _ => checks ds)

/-- Rows of da, or elements of each row under LEN (R203). -/
def rowCount (len : Bool) (k : Nat) (ds : List Desc) : Nat := let a := ds.getD k default; if len then descCount a else descRows a

/-- VRED (R202, R203): its issue. -/
def execVred (op : RedOp) (len : Bool) (dd da : Nat) (rm : Rm) (sy : Sync) (s : State) : Outcome :=
  issueSel s (.vred op len dd da rm sy) sy [(1, dd, true), (2, da, false)] [] (rowCount len 1) fun ds =>
    let d := ds.getD 0 default; let a := ds.getD 1 default
    inOrder [needDesc d vecTypes notBit 1, needDesc a vecTypes anyFmt 2, shape (descN d = descRows a), apart d 1 [(2, a)]]

/-- VSCAN (R202, R203): its issue. -/
def execVscan (op : ScanOp) (excl : Bool) (dd da : Nat) (rm : Rm) (sy : Sync) (s : State) : Outcome :=
  issueSel s (.vscan op excl dd da rm sy) sy [(1, dd, true), (2, da, false)] [] vecCount fun ds =>
    let d := ds.getD 0 default; let a := ds.getD 1 default
    inOrder [needDesc d vecTypes notBit 1, needDesc a vecTypes anyFmt 2, shape (descN d = descN a && descCount d = descCount a), apart d 1 [(2, a)]]

/-- VDOT (R202, R203): its issue. -/
def execVdot (len : Bool) (dd da db : Nat) (rm : Rm) (sy : Sync) (s : State) : Outcome :=
  issueSel s (.vdot len dd da db rm sy) sy [(1, dd, true), (2, da, false), (3, db, false)] [] (rowCount len 1) fun ds =>
    let d := ds.getD 0 default; let a := ds.getD 1 default; let b := ds.getD 2 default
    inOrder [needDesc d vecTypes notBit 1, needDesc a vecTypes anyFmt 2, needDesc b vecTypes anyFmt 3,
      shape (descCount b = descCount a && (descRows b = descRows a || descRows b = 1) && descN d = descRows a), apart d 1 [(2, a), (3, b)]]

/-- VDIST (R202, R203): its issue. -/
def execVdist (metric : Metric) (neg : Bool) (dd da db : Nat) (rm : Rm) (sy : Sync) (s : State) : Outcome :=
  issueSel s (.vdist metric neg dd da db rm sy) sy [(1, dd, true), (2, da, false), (3, db, false)] [] (rowCount false 1) fun ds =>
    let d := ds.getD 0 default; let a := ds.getD 1 default; let b := ds.getD 2 default
    let ok (f : Fmt) : Bool := metric = .ham || f ≠ .b1
    inOrder [needDesc d vecTypes notBit 1, needDesc a vecTypes ok 2, needDesc b vecTypes ok 3,
      if metric = .ham then inOrder [unscaled a 2, unscaled b 3, needFmt (descWidth a = descWidth b) 3]
      else needFmt (a.fmt = b.fmt && a.sfmt = b.sfmt) 3,
      shape (descN b = descCount a && descN d = descRows a), apart d 1 [(2, a), (3, b)]]

/-- VTHRC (R202, R203): its issue. -/
def execVthrc (ge len : Bool) (dd da db : Nat) (sy : Sync) (s : State) : Outcome :=
  issueSel s (.vthrc ge len dd da db sy) sy [(1, dd, true), (2, da, false), (3, db, false)] [] (rowCount len 1) fun ds =>
    let d := ds.getD 0 default; let a := ds.getD 1 default; let b := ds.getD 2 default
    inOrder [needDesc d vecTypes fmtInteger 1, needDesc a vecTypes notBit 2, needDesc b vecTypes notBit 3, intDest d 1,
      shape ((descN b = descRows a || descN b = 1) && descN d = descRows a), apart d 1 [(2, a), (3, b)]]

/-- The destination of VCOMP and VEXPD (R202). -/
def packDest (idx : Bool) (a d : Desc) : Res Unit := if idx then intDest d 1 else needFmt (descFmt d ≠ .b1 || descFmt a = .b1) 1

/-- VCOMP (R202, R203): its issue. -/
def execVcomp (fill idx : Bool) (dd da db : Nat) (rm : Rm) (sy : Sync) (s : State) : Outcome :=
  issueSel s (.vcomp fill idx dd da db rm sy) sy [(1, dd, true), (2, da, false), (3, db, false), (5, (dd + 1) % 32, true)] [] (rowCount false 1) fun ds =>
    let d := ds.getD 0 default; let a := ds.getD 1 default; let b := ds.getD 2 default; let d2 := ds.getD 3 default
    inOrder [needDesc d vecTypes anyFmt 1, needDesc a vecTypes anyFmt 2, needDesc b vecTypes bitFmt 3, needDesc d2 vecTypes fmtInteger 5,
      packDest idx a d, intDest d2 5,
      shape (descRows d = descRows a && descN d2 = descRows a && (srcIndex b a 0).isSome),
      apart d 1 [(2, a), (3, b)], apart d2 5 [(2, a), (3, b)], destsApart d d2]

/-- VEXPD (R202, R203): its issue. -/
def execVexpd (fill : Bool) (dd da db : Nat) (rm : Rm) (sy : Sync) (s : State) : Outcome :=
  issueSel s (.vexpd fill dd da db rm sy) sy [(1, dd, true), (2, da, false), (3, db, false)] [] (rowCount false 0) fun ds =>
    let d := ds.getD 0 default; let a := ds.getD 1 default; let b := ds.getD 2 default
    inOrder [needDesc d vecTypes anyFmt 1, needDesc a vecTypes anyFmt 2, needDesc b vecTypes bitFmt 3, packDest false a d,
      shape ((descRows a = descRows d || descRows a = 1) && (srcIndex b d 0).isSome), apart d 1 [(2, a), (3, b)]]

/-- The control word of VHIST (R214). -/
def histShift (h : Word) : Nat := bitField h.toNat 0 6
def histWid (h : Word) : Nat := bitField h.toNat 8 4

/-- The conditions of R214. -/
def histChecks (one : Bool) (ds : List Desc) (hv : List Word) : Res Unit :=
  let d := ds.getD 0 default; let a := ds.getD 1 default; let h := hv.getD 0 0
  let wid := histWid h
  let b := 2 ^ wid
  require (!(wid = 0 || wid > 11 || histShift h + wid > descWidth a || bitField h.toNat 6 2 ≠ 0 || bitField h.toNat 13 51 ≠ 0 ||
    (one && descN d ≠ b) || (!one && (descCount d ≠ b || descRows d ≠ descRows a)))) .histRange

/-- VHIST (R202, R214): its issue. -/
def execVhist (acc one : Bool) (dd da hb : Nat) (sy : Sync) (s : State) : Outcome :=
  run s (issue s (.vhist acc one dd da hb sy)
    { engine := .vector, sync := sy, uses := [(1, dd, true), (2, da, false)], hregs := [hb, (hb + 1) % 16], part := .bins [], late := histChecks one }
    (rowCount false 1) fun ds _ _ =>
    let d := ds.getD 0 default; let a := ds.getD 1 default
    inOrder [needDesc d vecTypes (fun f => f = .n32) 1, needDesc a vecTypes (fun f => [8, 16, 32, 64].contains (fmtWidth f)) 2, unscaled d 1, unscaled a 2,
      apart d 1 [(2, a)]])

/-- The key format of a value format (R213). -/
def keyFmt : Fmt → Option Fmt
  | .f32 | .i32 | .n32 => some .n32
  | .f16 | .bf16 | .i16 | .n16 => some .n16
  | .e4m3 | .e5m2 | .i8 | .n8 => some .n8
  | .i64 => some .i64
  | _ => none

/-- VXFORM (R203, R213): its issue. -/
def execVxform (desc inv : Bool) (dd da : Nat) (sy : Sync) (s : State) : Outcome :=
  issueSel s (.vxform desc inv dd da sy) sy [(1, dd, true), (2, da, false)] [] vecCount fun ds =>
    let d := ds.getD 0 default; let a := ds.getD 1 default
    let v := if inv then d else a
    let k := if inv then a else d
    inOrder [needDesc d vecTypes anyFmt 1, needDesc a vecTypes anyFmt 2, unscaled d 1, unscaled a 2,
      needFmt (keyFmt (descFmt v)).isSome (if inv then 1 else 2), needFmt (keyFmt (descFmt v) = some (descFmt k)) (if inv then 2 else 1),
      shape (descN d = descN a), apart d 1 [(2, a)]]

/-- VMAXI (R202, R203): its issue. -/
def execVmaxi (len : Bool) (dd da : Nat) (rm : Rm) (sy : Sync) (s : State) : Outcome :=
  issueSel s (.vmaxi len dd da rm sy) sy [(1, dd, true), (2, da, false), (5, (dd + 1) % 32, true)] [] (rowCount len 1) fun ds =>
    let d := ds.getD 0 default; let a := ds.getD 1 default; let d2 := ds.getD 2 default
    inOrder [needDesc d vecTypes fmtInteger 1, needDesc a vecTypes notBit 2, needDesc d2 vecTypes notBit 5, intDest d 1,
      shape (descN d = descRows a && descN d2 = descRows a), apart d 1 [(2, a)], apart d2 5 [(2, a)], destsApart d d2]

/-- VSORT (R202, R203): its issue. -/
def execVsort (desc perm : Bool) (dd da : Nat) (rm : Rm) (sy : Sync) (s : State) : Outcome :=
  issueSel s (.vsort desc perm dd da rm sy) sy
    ([(1, dd, true), (2, da, false)] ++ if perm then [(5, (dd + 1) % 32, true)] else []) [] (rowCount false 1) fun ds =>
    let d := ds.getD 0 default; let a := ds.getD 1 default; let d2 := ds.getD 2 default
    inOrder ([needDesc d vecTypes notBit 1, needDesc a vecTypes notBit 2] ++
      (if perm then [needDesc d2 vecTypes fmtInteger 5, intDest d2 5] else []) ++
      [shape (descN d = descN a && descCount d = descCount a && descCount a ≤ 256 && (!perm || descN d2 = descN d)), apart d 1 [(2, a)]] ++
      if perm then [apart d2 5 [(2, a)], destsApart d d2] else [])

/-- The ranking unit will be OPEN when an instruction issued now reaches it (R222). -/
def rankWillBeOpen (c : Core) : Bool :=
  c.qvec.foldl (fun b e => match e.instr with | .vranki .. => true | .vranko false .. => false | _ => b) c.rank.isOpen

/-- VRANKI (R219): its issue. -/
def execVranki (small int : Bool) (ha : Nat) (sy : Sync) (s : State) : Outcome :=
  run s (issue s (.vranki small int ha sy)
    { engine := .vector, sync := { sy with rows := none }, uses := [], hregs := [ha],
      late := fun _ hv => let k := (hv.getD 0 0).toNat; require (k ≠ 0 && k ≤ 1024) .rankState }
    (fun _ => 0) fun _ _ _ => .ok ())

/-- An id of the ranking unit (R202). -/
def idFmt (f : Fmt) : Bool := f = .i32 || f = .n32 || f = .i64

/-- VRANKP (R202, R203, R220): its issue. -/
def execVrankp (da db : Nat) (sy : Sync) (s : State) : Outcome :=
  run s (issue s (.vrankp da db sy)
    { engine := .vector, sync := sy, uses := [(2, da, false), (3, db, false)], hregs := [],
      late := fun _ _ => require (rankWillBeOpen s.core) .rankState }
    (fun ds => descN (ds.getD 0 default)) fun ds _ _ =>
    let a := ds.getD 0 default; let b := ds.getD 1 default
    inOrder [needDesc a vecTypes notBit 2, needDesc b vecTypes idFmt 3, shape (descN b = descN a)])

/-- VRANKO (R202, R203, R221): its issue. -/
def execVranko (keep : Bool) (dd : Nat) (rm : Rm) (sy : Sync) (s : State) : Outcome :=
  run s (issue s (.vranko keep dd rm sy)
    { engine := .vector, sync := sy, uses := [(1, dd, true), (5, (dd + 1) % 32, true)], hregs := [],
      late := fun _ _ => require (rankWillBeOpen s.core) .rankState }
    (fun ds => descN (ds.getD 0 default)) fun ds _ _ =>
    let d := ds.getD 0 default; let d2 := ds.getD 1 default
    inOrder [needDesc d vecTypes notBit 1, needDesc d2 vecTypes idFmt 5, shape (descN d2 = descN d), destsApart d d2])

/-! ### Reductions and scans (R206 to R208) -/

/-- The rows processed and the length of each, under LEN or not (R206). -/
def rowsOf (e : QEntry) (len : Bool) (a : Desc) : Nat × Nat := if len then (descRows a, e.count) else (e.count, descCount a)

/-- The values of the first `n` elements of a row, by a function of the column. -/
def rowVals (s : State) (n : Nat) (f : State → Nat → Res (State × FV)) : Res (State × List FV) := mapRes f s (upFrom 0 n)

/-- A unit of a reduction (R206). -/
def unitReduce (s : State) (e : QEntry) (rm : Rm) (rows len : Nat) (int : Bool) (comb : XR → XR → FV) (ident : XR) (fin : XR → XR)
    (leaf : State → Nat → Nat → Res (State × FV)) : UnitRes :=
  unitWrite s e (operandAt e 0 1) rm rows fun s r =>
    (rowVals s len fun s c => leaf s r c).map fun q =>
      let v := treeOr int comb ident q.2
      (q.1, (fin v.1, v.2))

/-- A unit of VRED (R206). -/
def unitVred (s : State) (e : QEntry) (op : RedOp) (len : Bool) (rm : Rm) : UnitRes :=
  let a := operandAt e 1 2
  let n := rowsOf e len a.d
  unitReduce s e rm n.1 n.2 (intClass a.d) (redComb op) (redIdent op) id fun s r c =>
    (presentVal s a (r * descCount a.d + c)).map fun q => let l := redLeaf op q.2.1; (q.1, (l.1, q.2.2 ||| l.2))

/-- The leaf of a pair of values for VDOT and VDIST (R206). -/
def pairLeaf (metric : Metric) (a b : XR) : FV :=
  match metric with
  | .l2sq => let d := xSub false a b; let p := xMul d.1 d.1; (p.1, d.2 ||| p.2)
  | .l1 => let d := xSub false a b; (xAbs d.1, d.2)
  | _ => xMul a b

/-- The values of a pair of elements put through a function. -/
def pairVals (s : State) (a b : Operand) (i j : Nat) (f : XR → XR → FV) : Res (State × FV) :=
  match presentVal s a i with
  | .error x => .error x
  | .ok (s, x) => (presentVal s b j).map fun q => let l := f x.1 q.2.1; (q.1, (l.1, x.2 ||| q.2.2 ||| l.2))

/-- A unit of VDOT (R206, R208); the row of db as in `unitVdist` (log 114). -/
def unitVdot (s : State) (e : QEntry) (len : Bool) (rm : Rm) : UnitRes :=
  let a := operandAt e 1 2; let b := operandAt e 2 3
  let n := rowsOf e len a.d
  let c0 := descCount a.d
  unitReduce s e rm n.1 n.2 (intClass a.d && intClass b.d) (xAdd false) xZero id fun s r c =>
    pairVals s a b (r * c0 + c) ((if descRows b.d = 1 then 0 else r) * c0 + c) (pairLeaf .ip)

/-- The count of 1 bits of a number below 2 ^ 64. -/
def bitCount (x : Nat) : Nat := ((upFrom 0 64).filter fun i => bitAt x i).length

/-- A unit of VDIST (R206, R208): each row reads the query anew, also where the destination is in place (log 114). -/
def unitVdist (s : State) (e : QEntry) (metric : Metric) (neg : Bool) (rm : Rm) : UnitRes :=
  let a := operandAt e 1 2; let b := operandAt e 2 3
  let c0 := descCount a.d
  unitReduce s e rm e.count c0 (metric = .ham || (intClass a.d && intClass b.d)) (xAdd false) xZero (fun v => if neg then xOpp v else v) fun s r c =>
    if metric = .ham then
      match presentBits s a (r * c0 + c) with
      | .error x => .error x
      | .ok (s, x) => (presentBits s b c).map fun q => (q.1, (xInt (bitCount (x ^^^ q.2)), 0))
    else pairVals s a b (r * c0 + c) c (pairLeaf metric)

/-- The operation of a scan as one of VRED. -/
def scanRed : ScanOp → RedOp
  | .sum => .sum | .max => .max | .min => .min

/-- The running value of an entry. -/
def accOf (e : QEntry) : XR := match e.part with | .acc x => x | _ => xZero

/-- One element of VSCAN (R207): the value it writes, and the running value it leaves. -/
def scanStep (op : ScanOp) (excl int : Bool) (first : Bool) (acc x : FV) : FV × FV :=
  let before : FV := if first then (redIdent (scanRed op), 0) else acc
  let after := if first then roundInner int x else roundInner int (let r := redComb (scanRed op) acc.1 x.1; (r.1, x.2 ||| r.2))
  (if excl then (before.1, after.2) else after, after)

/-- A unit of VSCAN (R207, R225): whole rows alone are scanned, those below VLim(dd) / C. -/
def unitVscan (s : State) (e : QEntry) (op : ScanOp) (excl : Bool) (rm : Rm) : UnitRes :=
  let dd := operandAt e 0 1; let a := operandAt e 1 2
  let limit := vlim e dd.d / descCount a.d * descCount a.d
  if e.progress ≥ limit then .ok ⟨s, e, true⟩
  else
    let is := if (descScale dd.d).isSome then blockIndices dd.d e.progress limit else [e.progress]
    match mapRes (presentVal · a ·) s is with
    | .error x => .error x
    | .ok (s, xs) =>
      let r := (is.zip xs).foldl (fun (p : List FV × FV) q =>
        let t := scanStep op excl (intClass a.d) (q.1 % descCount a.d = 0) p.2 q.2
        (p.1 ++ [t.1], (t.2.1, 0))) ([], (accOf e, 0))
      let e' := { e with part := .acc r.2.1 }
      if (descScale dd.d).isSome then
        match writeBlock s e dd rm is r.1 with
        | .error x => .error x
        | .ok s => progressTo s e' (e.progress + is.length) limit
      else
        let x := r.1.headD (xZero, 0)
        let w := roundTo x.1 (descFmt dd.d) (roundingOf e.vctl e.seed rm dd.d.tag e.progress)
        match writeChecked s e dd e.progress w.1 (x.2 ||| w.2) with
        | .error x => .error x
        | .ok s => progressTo s e' (e.progress + 1) limit

/-! ### Counting and packing (R209 to R211) -/

/-- An integer written by RoundTo under RNE with tag and index 0 (R209, R210, R215). -/
def intBits (f : Fmt) (n : Nat) : Nat × Flags := roundTo (xInt n) f interior

/-- A unit of VTHRC (R209): its comparison and its write set no flag but SAT; a reserved I4S code that it reads sets I4RSV (R26, R206, log 115). -/
def unitVthrc (s : State) (e : QEntry) (ge len : Bool) : UnitRes :=
  let dd := operandAt e 0 1; let a := operandAt e 1 2; let b := operandAt e 2 3
  let n := rowsOf e len a.d
  let r := e.progress
  if r ≥ n.1 then .ok ⟨s, e, true⟩
  else match presentVal s b (if descN b.d = 1 then 0 else r) with
  | .error x => .error x
  | .ok (s, t) =>
    match rowVals s n.2 fun s c => presentVal s a (r * descCount a.d + c) with
    | .error x => .error x
    | .ok (s, xs) =>
      let pass (x : XR) : Bool := match xCmp x t.1 with | some .gt => true | some .eq => ge | _ => false
      let w := intBits (descFmt dd.d) (xs.filter fun x => pass x.1).length
      match writeChecked s e dd r w.1 (xs.foldl (fun f x => f ||| x.2) t.2 ||| (w.2 &&& flagSAT)) with
      | .error x => .error x
      | .ok s => progressTo s e (r + 1) n.1

/-- What an element of a destination receives: nothing, +0, an integer, or an element of the source. -/
inductive Put where
  | keep
  | zero
  | int (n : Nat)
  | move (k : Nat)
  deriving DecidableEq, Repr

/-- A list of elements of an unscaled destination written in ascending index (R170, R210, R211, R216): the sources are read first. -/
def putPlain (s : State) (e : QEntry) (dd da : Operand) (rm : Rm) (ps : List (Nat × Put)) : Res State :=
  let get (s : State) (j : Nat) : Res (State × (Nat × Flags)) :=
    let p := ps.getD j (0, .keep)
    match p.2 with
    | .keep => .ok (s, (0, 0))
    | .zero => .ok (s, ((roundTo xZero (descFmt dd.d) interior).1, 0))
    | .int n => .ok (s, intBits (descFmt dd.d) n)
    | .move k =>
      if rawMove da.d dd.d then (presentBits s da k).map fun r => (r.1, (r.2, 0))
      else (presentVal s da k).map fun r =>
        let w := roundTo r.2.1 (descFmt dd.d) (roundingOf e.vctl e.seed rm dd.d.tag p.1)
        (r.1, (w.1, r.2.2 ||| w.2))
  match mapRes get s (upFrom 0 ps.length) with
  | .error x => .error x
  | .ok (s, bs) =>
    match putElems s dd ((ps.zip bs).filterMap fun p => if p.1.2 = .keep then none else some (p.1.1, p.2.1)) with
    | .error x => .error x
    | .ok s' => let fl := bs.foldl (fun f b => f ||| b.2) 0
      match entryFlags s e fl with
      | .error x => .error x
      | .ok _ => .ok (mergeFlags s' fl)

/-- The values of the elements of a block (R31); an element that is kept has none. -/
def putVal (s : State) (da : Operand) : Put → Res (State × FV)
  | .keep | .zero => .ok (s, (xZero, 0))
  | .int n => .ok (s, (xInt n, 0))
  | .move k => presentVal s da k

/-- A list of elements of a block-scaled destination with their values, block by block (R31); an element without a value is kept. A block with no
element to write stays as it is; kept elements of a block keep their bits (log 22). -/
def putBlocks (s : State) (e : QEntry) (dd : Operand) (rm : Rm) : Nat → List (Nat × Option FV) → Res State
  | 0, _ => .ok s
  | _ + 1, [] => .ok s
  | fuel + 1, p :: ps =>
    let b := blockOf dd.d p.1
    let n := b.1 + b.2 - p.1
    let here := (p :: ps.take (n - 1)).filterMap fun q => q.2.map fun x => (q.1, x)
    let rest := ps.drop (n - 1)
    if here.isEmpty then putBlocks s e dd rm fuel rest
    else
      match writeBlock s e dd rm (here.map (·.1)) (here.map (·.2)) with
      | .error x => .error x
      | .ok s => putBlocks s e dd rm fuel rest

/-- What an element of a destination and its source touch (R147). -/
def putTouches (dd da : Operand) (p : Nat × Put) : List Touch :=
  (match p.2 with | .move k => elemTouches da k .read | _ => []) ++ elemTouches dd p.1 .write

/-- A list of consecutive elements of a destination written; every source is read first (R168). -/
def putList (s : State) (e : QEntry) (dd da : Operand) (rm : Rm) (ps : List (Nat × Put)) : Res State :=
  if (descScale dd.d).isSome then
    match mapRes (fun s j => putVal s da (ps.getD j (0, .keep)).2) s (upFrom 0 ps.length) with
    | .error x => .error x
    | .ok (s, xs) => putBlocks s e dd rm ps.length ((ps.zip xs).map fun p => (p.1.1, if p.1.2 = .keep then none else some p.2))
  else putPlain s e dd da rm ps

/-- The position in its row that an entry carries. -/
def posOf (e : QEntry) : Nat := match e.part with | .at n => n | _ => 0

/-- The source elements of VCOMP from column `c` on, until the row ends or `room` of them are selected: the columns selected, and the column after
the last one read. -/
def packRun (s : State) (b : Operand) (a : Desc) (r : Nat) : Nat → Nat → Nat → Res (State × List Nat × Nat)
  | 0, _, c => .ok (s, [], c)
  | fuel + 1, room, c =>
    if room = 0 then .ok (s, [], c)
    else
      let i := r * descCount a + c
      match presentBits s b ((srcIndex b.d a i).getD i) with
      | .error x => .error x
      | .ok (s, bit) => (packRun s b a r fuel (if bit = 1 then room - 1 else room) (c + 1)).map fun q =>
        (q.1, if bit = 1 then c :: q.2.1 else q.2.1, q.2.2)

/-- A unit of VCOMP (R210, R225): one source element; for a block-scaled destination, the source elements that fill its next block. -/
def unitVcomp (s : State) (e : QEntry) (fill idx : Bool) (rm : Rm) : UnitRes :=
  let dd := operandAt e 0 1; let a := operandAt e 1 2; let b := operandAt e 2 3; let d2 := operandAt e 3 5
  let c0 := descCount a.d
  let limit := e.count * c0
  let i := e.progress
  if i ≥ limit then .ok ⟨s, e, true⟩
  else
    let r := i / c0
    let c := i % c0
    let w := posOf e
    let dlen := descCount dd.d
    let scaled := (descScale dd.d).isSome
    let span := if scaled && decide (w < dlen) then c0 - c else 1
    let room := if scaled && decide (w < dlen) then (blockOf dd.d (r * dlen + w)).2 else 1
    match packRun s b a.d r span room c with
    | .error x => .error x
    | .ok (s, cols, next) =>
      let w' := w + cols.length
      let put (j k : Nat) : Nat × Put := (r * dlen + j, if idx then .int k else .move (r * c0 + k))
      let sel := ((upFrom w cols.length).zip cols).filterMap fun p => if p.1 < dlen then some (put p.1 p.2) else none
      let tail := if next = c0 && fill then (upFrom (min w' dlen) (dlen - min w' dlen)).map fun j => (r * dlen + j, Put.zero) else []
      match (checkTouches s false ((sel ++ tail).flatMap (putTouches dd a) ++ if next = c0 then elemTouches d2 r .write else [])).bind fun _ =>
        putList s e dd a rm (sel ++ tail) with
      | .error x => .error x
      | .ok s' =>
        let counted : Res State :=
          if next = c0 then let q := intBits (descFmt d2.d) w'; writeChecked s' e d2 r q.1 q.2 else .ok s'
        match counted with
        | .error x => .error x
        | .ok s' => progressTo s' { e with part := .at (if next = c0 then 0 else w') } (r * c0 + next) limit

/-- The elements of VEXPD from a list of destination indices: what each receives, and the pointer left (R211). -/
def expandRun (s : State) (a b : Operand) (dd : Desc) (fill : Bool) : List Nat → Nat → Res (State × List (Nat × Put) × Nat)
  | [], p => .ok (s, [], p)
  | i :: is, p =>
    let p := if i % descCount dd = 0 then 0 else p
    let row := if descRows a.d = 1 then 0 else i / descCount dd
    match presentBits s b ((srcIndex b.d dd i).getD i) with
    | .error x => .error x
    | .ok (s, bit) =>
      let take := bit = 1 && decide (p < descCount a.d)
      (expandRun s a b dd fill is (if take then p + 1 else p)).map fun q =>
        (q.1, (i, if take then .move (row * descCount a.d + p) else if fill then .zero else .keep) :: q.2.1, q.2.2)

/-- A unit of VEXPD (R211, R225): each source element is read at its own turn, also where the destination is in place (log 114). -/
def unitVexpd (s : State) (e : QEntry) (fill : Bool) (rm : Rm) : UnitRes :=
  let dd := operandAt e 0 1; let a := operandAt e 1 2; let b := operandAt e 2 3
  let limit := e.count * descCount dd.d
  if e.progress ≥ limit then .ok ⟨s, e, true⟩
  else
    let is := if (descScale dd.d).isSome then blockIndices dd.d e.progress limit else [e.progress]
    match expandRun s a b dd.d fill is (posOf e) with
    | .error x => .error x
    | .ok (s, ps, p) =>
      match putList s e dd a rm ps with
      | .error x => .error x
      | .ok s' => progressTo s' { e with part := .at p } (e.progress + is.length) limit

/-! ### Histograms and keys (R213, R214) -/

/-- The bins that an entry carries. -/
def binsOf (e : QEntry) : Tab Nat := match e.part with | .bins t => t | _ => []

/-- The bins after the keys of one row (R214). -/
def histRow (h p : Word) (w : Nat) (keys : List Nat) (bins : Tab Nat) : Tab Nat :=
  let sh := histShift h
  let wid := histWid h
  keys.foldl (fun t k =>
    if !h.getLsbD 12 || k / 2 ^ (sh + wid) = p.toNat % 2 ^ w / 2 ^ (sh + wid) then
      let b := k / 2 ^ sh % 2 ^ wid
      tabSet 0 t b (tabGet 0 t b + 1)
    else t) bins

/-- The bins written to the destination from an element on (R214). -/
def writeBins (s : State) (e : QEntry) (dd : Operand) (first : Nat) (acc : Bool) (n : Nat) (bins : Tab Nat) : Res State :=
  let one (s : State) (b : Nat) : Res (State × (Nat × Flags)) :=
    (if acc then presentBits s dd (first + b) else .ok (s, 0)).map fun r =>
      let v := r.2 + tabGet 0 bins b
      (r.1, (min v (2 ^ 32 - 1), if v > 2 ^ 32 - 1 then flagSAT else 0))
  match mapRes one s (upFrom 0 n) with
  | .error x => .error x
  | .ok (s, vs) =>
    match putElems s dd ((upFrom first n).zip (vs.map (·.1))) with
    | .error x => .error x
    | .ok s => entryFlags s e (vs.foldl (fun f v => f ||| v.2) 0)

/-- A unit of VHIST (R214, R225). -/
def unitVhist (s : State) (e : QEntry) (acc one : Bool) : UnitRes :=
  let dd := operandAt e 0 1; let a := operandAt e 1 2
  let h := e.hvals.getD 0 0; let p := e.hvals.getD 1 0
  let r := e.progress
  let c0 := descCount a.d
  let n := 2 ^ histWid h
  if r ≥ e.count then .ok ⟨s, e, true⟩
  else match mapRes (fun s c => presentBits s a (r * c0 + c)) s (upFrom 0 c0) with
  | .error x => .error x
  | .ok (s, keys) =>
    let bins := histRow h p (descWidth a.d) keys (if one then binsOf e else [])
    let written : Res State :=
      if !one then writeBins s e dd (r * n) acc n bins
      else if r + 1 = e.count then writeBins s e dd 0 acc n bins else .ok s
    match written with
    | .error x => .error x
    | .ok s => progressTo s { e with part := .bins (if one then bins else []) } (r + 1) e.count

/-- The key of a pattern of a value format, and the pattern of a key (R213). -/
def keyOf (f : Fmt) (p : Nat) : Nat :=
  let w := fmtWidth f
  let top := 2 ^ (w - 1)
  if fmtFloat f then
    if xIsNan (decodeFmt f p) then 0 else if p < top then p + top else 2 ^ w - 1 - p
  else match f with
  | .i8 | .i16 | .i32 | .i64 => p ^^^ top
  | _ => p
def unkeyOf (f : Fmt) (k : Nat) : Nat :=
  let w := fmtWidth f
  let top := 2 ^ (w - 1)
  if fmtFloat f then
    if k = 0 then ((floatSpec f).bind (·.nanBits)).getD 0 else if k ≥ top then k ^^^ top else 2 ^ w - 1 - k
  else match f with
  | .i8 | .i16 | .i32 | .i64 => k ^^^ top
  | _ => k

/-- A unit of VXFORM (R213). -/
def unitVxform (s : State) (e : QEntry) (desc inv : Bool) : UnitRes :=
  let dd := operandAt e 0 1; let a := operandAt e 1 2
  let all := 2 ^ descWidth dd.d - 1
  let flip (k : Nat) : Nat := if desc then all - k else k
  unitRaw s e dd (vlim e dd.d) fun s i =>
    (presentBits s a i).map fun r => (r.1, if inv then unkeyOf (descFmt dd.d) (flip r.2) else flip (keyOf (descFmt a.d) r.2))

/-! ### Argmax and sort (R215, R216) -/

/-- The index of the largest value, the lowest among equals (R205, R215). -/
def argMax (xs : List XR) : Nat × XR :=
  match (upFrom 0 xs.length).zip xs with
  | [] => (0, xZero)
  | p :: ps => ps.foldl (fun b q => if xBelow b.2 q.2 then q else b) p

/-- A unit of VMAXI (R215): a row, or the rows of a block of the second destination. -/
def unitVmaxi (s : State) (e : QEntry) (len : Bool) (rm : Rm) : UnitRes :=
  let dd := operandAt e 0 1; let a := operandAt e 1 2; let d2 := operandAt e 2 5
  let n := rowsOf e len a.d
  let r := e.progress
  if r ≥ n.1 then .ok ⟨s, e, true⟩
  else
    let rows := if (descScale d2.d).isSome then blockIndices d2.d r n.1 else [r]
    match mapRes (fun s r => rowVals s n.2 fun s c => presentVal s a (r * descCount a.d + c)) s rows with
    | .error x => .error x
    | .ok (s, vals) =>
      let found := vals.map fun xs => argMax (xs.map (·.1))
      let index (m : Nat × XR) : Nat × Flags := if n.2 = 0 then (2 ^ descWidth dd.d - 1, 0) else intBits (descFmt dd.d) m.1
      let fl := vals.foldl (fun f xs => xs.foldl (fun f x => f ||| x.2) f) 0
      match (putElems s dd (rows.zip (found.map fun m => (index m).1))).bind fun s1 =>
        (checkTouches s1 false (rows.flatMap fun r => elemTouches d2 r .write)).map fun _ => s1 with
      | .error x => .error x
      | .ok s1 =>
        match entryFlags s1 e (found.foldl (fun f m => f ||| (index m).2) fl) with
        | .error x => .error x
        | .ok s2 =>
          let wrote : Res State :=
            if (descScale d2.d).isSome then writeBlock s2 e d2 rm rows (found.map fun m => (m.2, 0))
            else
              let w := roundTo ((found.headD (0, xZero)).2) (descFmt d2.d) (roundingOf e.vctl e.seed rm d2.d.tag r)
              writeChecked s2 e d2 r w.1 w.2
          match wrote with
          | .error x => .error x
          | .ok s3 => progressTo s3 e (r + rows.length) n.1

/-- A value inserted into a sorted list after its equals. -/
def sortInsert (before : XR → XR → Bool) (p : Nat × XR) : List (Nat × XR) → List (Nat × XR)
  | [] => [p]
  | q :: qs => if before p.2 q.2 then p :: q :: qs else q :: sortInsert before p qs

/-- A row sorted stably (R216). -/
def sortRow (desc : Bool) (xs : List XR) : List Nat :=
  let before (x y : XR) : Bool := if desc then xBelow y x else xBelow x y
  (((upFrom 0 xs.length).zip xs).foldl (fun l p => sortInsert before p l) []).map (·.1)

/-- A unit of VSORT (R216). -/
def unitVsort (s : State) (e : QEntry) (desc perm : Bool) (rm : Rm) : UnitRes :=
  let dd := operandAt e 0 1; let a := operandAt e 1 2; let d2 := operandAt e 2 5
  let c0 := descCount a.d
  let r := e.progress
  if r ≥ e.count then .ok ⟨s, e, true⟩
  else match rowVals s c0 fun s c => presentVal s a (r * c0 + c) with
  | .error x => .error x
  | .ok (s, xs) =>
    let order := sortRow desc (xs.map (·.1))
    let row := upFrom (r * c0) c0
    match (checkTouches s false (row.flatMap fun i => elemTouches dd i .write ++ if perm then elemTouches d2 i .write else [])).bind fun _ =>
      putList s e dd a rm (row.zip (order.map fun k => Put.move (r * c0 + k))) with
    | .error x => .error x
    | .ok s1 =>
      match entryFlags s1 e (xs.foldl (fun f x => f ||| x.2) 0) with
      | .error x => .error x
      | .ok s2 =>
        let wrote : Res State := if perm then putList s2 e d2 a rm ((upFrom (r * c0) c0).zip (order.map Put.int)) else .ok s2
        match wrote with
        | .error x => .error x
        | .ok s3 => progressTo s3 e (r + 1) e.count

/-! ### The ranking unit (R217 to R222) -/

/-- The score of a pair (R217). -/
def scoreVal (u : RankUnit) : Option Nat → XR
  | none => .nan
  | some b => decodeFmt (if u.int then .i64 else .f32) b

/-- Pair `a` ranks before pair `b` (R217). -/
def ranksBefore (u : RankUnit) (a b : Option Nat × Nat) : Bool :=
  let x := scoreVal u a.1
  let y := scoreVal u b.1
  let lower := signExt a.2 64 < signExt b.2 64
  if xIsNan x then xIsNan y && lower
  else if xIsNan y then true
  else if (if u.small then xBelow x y else xBelow y x) then true
  else if (if u.small then xBelow y x else xBelow x y) then false
  else lower

/-- A pair inserted at its rank. -/
def rankInsert (u : RankUnit) (p : Option Nat × Nat) : List (Option Nat × Nat) → List (Option Nat × Nat)
  | [] => [p]
  | q :: qs => if ranksBefore u p q then p :: q :: qs else q :: rankInsert u p qs

/-- A pair offered (R220). -/
def offerPair (u : RankUnit) (p : Option Nat × Nat) : RankUnit :=
  let l := (rankInsert u p u.pairs).take u.k
  { u with pairs := l, m := l.length }

/-- VRANKI performed (R219). -/
def unitVranki (s : State) (e : QEntry) (small int : Bool) : UnitRes :=
  .ok ⟨{ s with core := { s.core with rank := ⟨true, small, int, (e.hvals.getD 0 0).toNat, 0, []⟩ } }, e, true⟩

/-- A unit of VRANKP (R220). -/
def unitVrankp (s : State) (e : QEntry) : UnitRes :=
  let a := operandAt e 0 2; let b := operandAt e 1 3
  let i := e.progress
  if i ≥ e.count then .ok ⟨s, e, true⟩
  else match presentVal s a i with
  | .error x => .error x
  | .ok (s, x) =>
    match presentBits s b i with
    | .error x => .error x
    | .ok (s, idb) =>
      let u := s.core.rank
      let w := roundTo x.1 (if u.int then .i64 else .f32) interior
      let score : Option Nat × Flags := if xIsNan x.1 then (none, 0) else (some w.1, w.2)
      let id := if descFmt b.d = .n32 then idb else truncBits (signExt idb (descWidth b.d)) 64
      match entryFlags s e (x.2 ||| score.2) with
      | .error x => .error x
      | .ok s => progressTo { s with core := { s.core with rank := offerPair u (score.1, id) } } e (i + 1) e.count

/-- A unit of VRANKO (R221): an element, or a block of the destination. -/
def unitVranko (s : State) (e : QEntry) (keep : Bool) (rm : Rm) : UnitRes :=
  let dd := operandAt e 0 1; let d2 := operandAt e 1 5
  let u := s.core.rank
  let close (s : State) : State := if keep then s else { s with core := { s.core with rank := RankUnit.idle } }
  let j := e.progress
  if j ≥ e.count then .ok ⟨close s, e, true⟩
  else
    let js := if (descScale dd.d).isSome then blockIndices dd.d j e.count else [j]
    let score (j : Nat) : FV := match u.pairs[j]? with | some p => (scoreVal u p.1, 0) | none => (xZero, 0)
    let id (j : Nat) : Nat := match u.pairs[j]? with | some p => p.2 % 2 ^ descWidth d2.d | none => 2 ^ descWidth d2.d - 1
    match putElems s d2 (js.map fun j => (j, id j)) with
    | .error x => .error x
    | .ok s1 =>
      let wrote : Res State :=
        if (descScale dd.d).isSome then writeBlock s1 e dd rm js (js.map score)
        else
          let w := roundTo (score j).1 (descFmt dd.d) (roundingOf e.vctl e.seed rm dd.d.tag j)
          writeChecked s1 e dd j w.1 w.2
      match wrote with
      | .error x => .error x
      | .ok s2 =>
        let last := j + js.length ≥ e.count
        progressTo (if last then close s2 else s2) e (j + js.length) e.count

end Sys2Proof.Machine
end

