-- ==== Sys2Proof/Machine/Array.lean ====
section
/-! DEFINITION. The shared array: the lease and its arbiter, and the instructions of class X that act on the array, at their issue and at the head
of the X engine's queue (R226 to R245). -/

namespace Sys2Proof.Machine

/-! ### The lease arbiter (R229, R244) -/

/-- A core that has a request at its array's arbiter, its context running. -/
def leaseAsked (s : State) (core : Nat) : Bool :=
  let c := coreAt s core
  (c.lease = .waiting || c.lease = .reclaim) && ticking s c

/-- A core of a cluster whose request the arbiter may grant: WAITING or RECLAIM, its context running and its array purse positive. -/
def leaseEligible (s : State) (core : Nat) : Bool := leaseAsked s core && funded s 1 (clusterOf core) (ctxAt s (coreAt s core).ctx).vd

/-- The requests at the arbiter of an array that are not eligible set SHORT (R391). -/
def noteShort (s : State) (array : Nat) : State :=
  ((upFrom (array * 8) 8).filter fun n => leaseAsked s n && !leaseEligible s n).foldl
    (fun s n => shortPurse s 1 array (ctxAt s (coreAt s n).ctx).vd) s

/-- The eligible cores of an array, in lane order from the lane after the last grantee. -/
def leaseOrder (s : State) (array : Nat) : List Nat :=
  ((upFrom 1 8).map fun k => array * 8 + ((arrayAt s array).last + k) % 8).filter (leaseEligible s)

/-- An instruction that acts on the array (R227). -/
def arrayOp : Instr → Bool
  | .xcellop .. | .xzero .. | .xpass .. | .xside .. | .xsideb .. | .xdrain .. | .xbias .. => true
  | _ => false

/-- The core stands at a boundary between array instructions: none is under way on the array; or, halted, at an element's boundary of one that may
stop there (R229, R244). -/
def arrayBoundary (s : State) (core : Nat) : Bool :=
  let c := coreAt s core
  match c.qmat with
  | [] => true
  | e :: _ => !(arrayOp e.instr && e.started && !e.stopped && (ticking s c || atomicArray e.instr))

/-- The grant of a core has come to its end (R229, R244). -/
def grantDue (s : State) (core : Nat) : Bool :=
  let c := coreAt s core
  c.arr.passes ≥ 16 || c.arr.cycles ≥ 8192 || !ticking s c ||
  decide (purseFunds (purseAt s 1 (clusterOf core) (ctxAt s c.ctx).vd) ≤ 0)

/-- The end of a grant at a boundary: a Yield when an eligible core waits, else a Renew (R227, R229). A halted holder is not renewed (R244). -/
def endGrant (s : State) (core : Nat) : State :=
  let c := coreAt s core
  if c.lease ≠ .held || !grantDue s core || !arrayBoundary s core then s
  else if (leaseOrder s (clusterOf core)).isEmpty then
    if ticking s c then putCore s core { c with arr := { c.arr with passes := 0, cycles := 0 } } else s
  else releaseArray (saveArray (putCore s core { c with lease := .lapsed }) core) core

/-! ### Issue (R231, R232, R243) -/

/-- The descriptor of an operand on the array: a REGION, or a RING in the scratchpad (R232). -/
def arrayDesc (d : Desc) (accepts : Fmt → Bool) (code : Nat) : Res Unit :=
  if d.type = 4 ∧ bitAt d.base 54 then faultOp .descInvalid code else needDesc d [1, 4] accepts code

/-- The issue of an instruction on the array: a LAPSED right posts its reclaim and waits for it before the ring claims (R227, R243). -/
def issueArray (s : State) (i : Instr) (sy : Sync) (uses : List (Nat × Nat × Bool)) (hregs : List Nat) (count : List Desc → Nat)
    (checks : List Desc → List Word → Res Unit) (late : List Word → Res Unit) : Outcome :=
  run s (issue s i { engine := .matrix, sync := sy, uses := uses, hregs := hregs, late := fun _ hv => late hv, array := true } count
    fun ds hv _ => checks ds hv)

/-- An instruction issued whose stream waits until it has completed (R81). -/
def issueHeld (s : State) (r : Res State) : Outcome :=
  match r with
  | .ok s' => .next (waitOn s' (.result s.core.issued))
  | .error e => .next (settle s (.error e))

/-- XLEASE (R228): a request is posted only from NONE, and the stream waits for the grant. -/
def execXlease (sy : Sync) (s : State) : Outcome :=
  let r := issue s (.xlease sy) { engine := .matrix, sync := sy, uses := [], hregs := [] } (fun _ => 0) fun _ _ _ =>
    require ((curJob s).any fun j => j.kern.array) .leaseNotHeld
  if s.core.lease = .none || s.core.lease = .waiting || freeQueued s.core then issueHeld s r else run s r

/-- XFREE (R228): its issue. -/
def execXfree (discard : Bool) (sy : Sync) (s : State) : Outcome :=
  run s (issue s (.xfree discard sy) { engine := .matrix, sync := sy, uses := [], hregs := [] } (fun _ => 0) fun _ _ _ => .ok ())

/-- A pattern that XCELLOP accepts (R234). -/
def patternOk (p : Nat) : Bool :=
  let codes := (upFrom 0 16).map fun k => bitField p (2 * k) 2
  p < 2 ^ 32 && (codes.all (fun c => c = 0 || c = 1) || codes.all (· = 2) || codes.all (· = 3))

/-- XCELLOP (R234): its issue. -/
def execXcellop (ha : Nat) (sy : Sync) (s : State) : Outcome :=
  issueArray s (.xcellop ha sy) sy [] [ha] (fun _ => 0) (fun _ _ => .ok ()) fun hv => require (patternOk (hv.headD 0).toNat) .cellopBad

/-- XZERO (R237): its issue. -/
def execXzero (fill : ZeroFill) (main : Bool) (sy : Sync) (s : State) : Outcome :=
  issueArray s (.xzero fill main sy) sy [] [] (fun _ => 0) (fun _ _ => .ok ()) fun _ => .ok ()

def fp8Fmt (f : Fmt) : Bool := match f with | .e4m3 | .e5m2 | .e2m1 => true | _ => false
def int8Fmt (f : Fmt) : Bool := match f with | .i8 | .i4s => true | _ => false
def half16Fmt (f : Fmt) : Bool := match f with | .bf16 | .f16 => true | _ => false

/-- The group size g of a pair of formats (R47, R233); `none` for a pair that XPASS refuses. -/
def groupSize (a b : Fmt) : Option Nat :=
  if fp8Fmt a && fp8Fmt b then some (if a = .e2m1 && b = .e2m1 then 8 else 4)
  else if int8Fmt a && int8Fmt b then some (if a = .i4s && b = .i4s then 8 else 4)
  else if (fp8Fmt a || int8Fmt a) && b = .ts8 then some 8
  else if half16Fmt a && half16Fmt b then some 2
  else none

/-- The formats that the A and B operands of XPASS accept (R233). -/
def passFmtA (f : Fmt) : Bool := fp8Fmt f || int8Fmt f || half16Fmt f
def passFmtB (f : Fmt) : Bool := passFmtA f || f = .ts8

/-- XPASS (R233): its issue. -/
def execXpass (side : Bool) (da db : Nat) (sy : Sync) (s : State) : Outcome :=
  issueArray s (.xpass side da db sy) sy [(2, da, false), (3, db, false)] [] (fun ds => descRows (ds.headD default))
    (fun ds _ =>
      let a := ds.getD 0 default; let b := ds.getD 1 default
      let k := descCount a
      inOrder [arrayDesc a passFmtA 2, arrayDesc b passFmtB 3, needFmt (groupSize (descFmt a) (descFmt b)).isSome 3,
        require (descCount b = k && decide (1 ≤ k ∧ k ≤ 4096 ∧ 1 ≤ descRows a ∧ descRows a ≤ 128 ∧ 1 ≤ descRows b ∧ descRows b ≤ 256)) .arrayShape])
    fun _ => .ok ()

/-- XSIDE (R240): its issue. -/
def execXside (da hb : Nat) (sy : Sync) (s : State) : Outcome :=
  issueArray s (.xside da hb sy) sy [(2, da, false)] [hb] (fun _ => 0)
    (fun ds hv => inOrder [arrayDesc (ds.headD default) anyFmt 2, require (bitField (hv.headD 0).toNat 48 16 = 0) .arrayShape]) fun _ => .ok ()

/-- Columns nc and offset n0 of XSIDEB (R242). -/
def sideCols (h : Word) : Nat := bitField h.toNat 32 9
def sideOffset (h : Word) : Nat := bitField h.toNat 0 32

/-- XSIDEB (R242): its issue. -/
def execXsideb (ha : Nat) (sy : Sync) (s : State) : Outcome :=
  issueArray s (.xsideb ha sy) sy [] [ha] (fun _ => 128)
    (fun _ hv => let h := hv.headD 0; require (decide (1 ≤ sideCols h ∧ sideCols h ≤ 256) && bitField h.toNat 41 23 = 0) .arrayShape) fun _ => .ok ()

/-- A shape, refused with its operand. -/
def shapeOp (b : Bool) (code : Nat) : Res Unit := if b then .ok () else faultOp .arrayShape code

/-- XDRAIN (R239): its issue. -/
def execXdrain (zero : Bool) (dd : Nat) (rm : Rm) (sy : Sync) (s : State) : Outcome :=
  issueArray s (.xdrain zero dd rm sy) sy [(1, dd, true)] [] (fun ds => descRows (ds.headD default))
    (fun ds _ => let d := ds.headD default
      inOrder [arrayDesc d notBit 1, shapeOp (decide (1 ≤ descCount d ∧ descCount d ≤ 256 ∧ 1 ≤ descRows d ∧ descRows d ≤ 128)) 1]) fun _ => .ok ()

/-- XBIAS (R238): its issue. -/
def execXbias (row add : Bool) (da : Nat) (sy : Sync) (s : State) : Outcome :=
  issueArray s (.xbias row add da sy) sy [(2, da, false)] [] (fun ds => if row then 128 else descRows (ds.headD default))
    (fun ds _ => let d := ds.headD default
      inOrder [arrayDesc d notBit 2, shapeOp (decide (1 ≤ descCount d ∧ descCount d ≤ 256) &&
        if row then descRows d = 1 else decide (1 ≤ descRows d ∧ descRows d ≤ 128)) 2]) fun _ => .ok ()

/-! ### The head of the queue (R227, R229, R235, R243) -/

/-- An entry that stays as it is at the head of its queue. -/
def holdHead (s : State) (e : QEntry) : UnitRes := .ok ⟨s, e, false⟩

/-- XLEASE at the head: from NONE the request is posted, and a WAITING one waits; otherwise it has no effect beyond its give (R227). -/
def unitXlease (s : State) (e : QEntry) : UnitRes :=
  match s.core.lease with
  | .none => holdHead (requestLease { s with core := { s.core with lease := .waiting } }) e
  | .waiting => holdHead s e
  | _ => .ok ⟨s, e, true⟩

/-- XFREE at the head (R227, R228, R243). -/
def unitXfree (s : State) (e : QEntry) (discard : Bool) : UnitRes :=
  if s.core.lease = .none then fault .leaseNotHeld
  else if (s.core.arr.alive || s.core.arr.sideLive) && !discard then fault .accLive
  else .ok ⟨dropLease s, e, true⟩

/-- An array instruction at the head: its checks against the array state (R243), then the right, and then its effect. A grant that is due ends
first (R229), and a LAPSED right posts its reclaim (R227). -/
def onArray (s : State) (e : QEntry) (checks : Res Unit) (effect : State → QEntry → UnitRes) : UnitRes :=
  if s.core.lease = .none then fault .leaseNotHeld
  else match checks with
  | .error x => .error x
  | .ok () =>
    let s := if e.started && e.progress ≠ 0 then s else endGrant s s.focus
    match s.core.lease with
    | .held => effect s { e with started := true }
    | .lapsed => holdHead (requestLease { s with core := { s.core with lease := .reclaim } }) { e with started := false }
    | _ => holdHead s { e with started := false }

/-- XCELLOP (R234). -/
def unitXcellop (s : State) (e : QEntry) : UnitRes :=
  onArray s e (.ok ()) fun s e =>
    .ok ⟨{ s with core := { s.core with arr := { s.core.arr with pattern := bitField (e.hvals.headD 0).toNat 0 32 } } }, e, true⟩

/-- Every cell of Acc at one encoding. -/
def filledAcc (bits : Nat) : Tab Nat := if bits = 0 then [] else (upFrom 0 32768).map fun k => (k, bits)

/-- XZERO (R237). -/
def unitXzero (s : State) (e : QEntry) (fill : ZeroFill) (main : Bool) : UnitRes :=
  onArray s e (.ok ()) fun s e =>
    let bits := match fill with | .zero => 0 | .neginf => 0xFF800000 | .posinf => 0x7F800000
    let a := { s.core.arr with acc := filledAcc bits, alive := fill ≠ .zero }
    let a := if main then a else { a with side := [], sideLive := false }
    .ok ⟨{ s with core := { s.core with arr := a } }, e, true⟩

/-! ### Accumulators -/

def accAt (a : ArrayState) (i j : Nat) : XR := decodeFmt .f32 (tabGet 0 a.acc (i * 256 + j))
def sideAt (a : ArrayState) (i t : Nat) : XR := decodeFmt .f32 (tabGet 0 a.side (i * 64 + t))

/-- The encoding of an F32 value. -/
def f32Bits (x : XR) : Nat := (roundTo x .f32 interior).1

/-- The flags that the rounding of an accumulator records (R236). -/
def accFlags (fl : Flags) : Flags := fl &&& (flagNV ||| flagOF)

/-- The rounding of an accumulator: RNE, without FTZ or SR, NV and OF recorded (R236). -/
def roundAcc (x : FV) : FV := let r := roundF32 x; (r.1, accFlags r.2)

/-! ### Bank groups (R141, R232) -/

/-- The bank groups of an operand, from the first to the last. -/
def bankSpan (d : Desc) : Int × Int := let i := interval d; (i.1 / 131072, (i.2 - 1) / 131072)

/-- The bank-group rule of XPASS (R233). -/
def banksOk (a b : Desc) : Bool := let x := bankSpan a; let y := bankSpan b; x.1 = x.2 && y.1 = y.2 && x.1 ≠ y.1

/-- LastB: the bank group of B, plus 1 (R226). -/
def lastBank (b : Desc) : Nat := (bankSpan b).1.toNat + 1

/-- The rule of XDRAIN: no byte of dd lies in bank group LastB (R239). -/
def drainBankOk (a : ArrayState) (d : Desc) : Bool :=
  let x := bankSpan d
  a.lastB = 0 || !(decide (x.1 ≤ (a.lastB : Int) - 1) && decide ((a.lastB : Int) - 1 ≤ x.2))

/-! ### Adapters of the latched map (R235, R240 to R242) -/

/-- The slots that rows below a count use, each once. -/
def slotsUsed (a : ArrayState) (rows : Nat) : List Nat :=
  (((upFrom 0 (ceilDiv rows 8)).map (mapSlot a)).filter (· ≠ 0xFFFF)).eraseDups

/-- The adapter and version that a slot binds. -/
def slotBound (c : Core) (slot : Nat) : Option (Nat × Nat) := (tabGet none c.slots slot).map fun b => (b.1, b.2.1)

/-- The ATT entry of the adapter that a slot binds. -/
def slotEntry (s : State) (slot : Nat) : Nat := match slotBound s.core slot with | some b => attAt s b.1 | none => 0

/-- The pages of a layer that hold some elements of a factor, its scales included (R248). -/
def factorPages (e layer : Nat) (second : Bool) (k0 k : Nat) : List Nat :=
  if k = 0 then [] else
  ((upFrom 0 (attRank e)).flatMap fun t =>
    let lo := factorSpot e second t k0
    let hi := factorSpot e second t (k0 + k - 1)
    let span (a b : Nat) := (upFrom (a / 65536) (b / 65536 + 1 - a / 65536)).map fun p => layer * layerPages e + p
    span lo.1 (hi.1 + elemBytes (attFmt e) - 1) ++
      match lo.2.2, hi.2.2 with | some a, some b => span a b | _, _ => []).eraseDups

/-- Where the factor pages that an XPASS.SIDE or XSIDEB of a core uses stand on a die; `none` for one that is not there (R235). -/
def passPlaces (s : State) (c : Core) (die : Nat) (e : QEntry) : List (Option Nat) :=
  let use (second : Bool) (k0 k : Nat) := (slotsUsed c.arr e.count).flatMap fun sl =>
    match slotBound c sl with
    | some b => (factorPages (attAt s b.1) c.arr.layer second k0 k).map fun pg => factorPlace s c.ctx die b.1 b.2 pg
    | none => []
  match e.instr with
  | .xpass true _ _ _ => use false c.arr.k0 (descCount (descOf (e.descs.headD 0)))
  | .xsideb .. => use true (sideOffset (e.hvals.headD 0)) (sideCols (e.hvals.headD 0))
  | _ => []

/-- The pages that the passes of the die's cores use where they stand: those of started passes, and with `waiting` those of the passes at the head of
a queue (R254; log 98). -/
def heldPlaces (s : State) (waiting : Bool) : List Nat :=
  ((s.focus, s.core) :: s.others).flatMap fun p =>
    match p.2.qmat with
    | e :: _ =>
      if dieOf p.1 = dieOf s.focus && !e.stopped && (e.started || waiting) then (passPlaces s p.2 (dieOf s.focus) e).filterMap id else []
    | [] => []

/-- The factor pages of some slots brought into the cache (R235, R254). -/
def fetchSlots (s : State) (second : Bool) (k0 k : Nat) (keep : List Nat) : List Nat → Res State
  | [] => .ok s
  | sl :: rest =>
    match slotBound s.core sl with
    | none => fetchSlots s second k0 k keep rest
    | some b =>
      let pages := factorPages (attAt s b.1) s.core.arr.layer second k0 k
      match fetchPages s b.1 b.2 keep pages with
      | .error x => .error x
      | .ok s => fetchSlots s second k0 k (pages.filterMap (factorPlace s s.core.ctx (dieOf s.focus) b.1 b.2) ++ keep) rest

/-- The value of an element of a factor, from the copy of its page (R235, R248). -/
def factorVal (s : State) (slot layer : Nat) (second : Bool) (t k : Nat) : Res FV :=
  match slotBound s.core slot with
  | none => fault .sideNoAdapter
  | some b =>
    let e := attAt s b.1
    let p := factorSpot e second t k
    let byte (off n : Nat) : Res Nat :=
      match factorPlace s s.core.ctx (dieOf s.focus) b.1 b.2 (layer * layerPages e + off / 65536) with
      | none => .error .busy
      | some a => if vaultSound s (a + off % 65536) n then .ok (leNat (tabRange 0 s.vaults (a + off % 65536) n)) else fault .sramUncorrected
    match byte p.1 (elemBytes (attFmt e)) with
    | .error x => .error x
    | .ok w =>
      let bits := w / 2 ^ p.2.1 % 2 ^ fmtWidth (attFmt e)
      let x := decodeFmt (attFmt e) bits
      let fl : Flags := if i4Reserved (attFmt e) bits then flagI4 else 0
      match p.2.2 with
      | none => .ok (x, fl)
      | some q => (byte q 1).map fun sc => (scaledValue x (decodeScale .e8m0 sc), fl)

/-- A matrix of values formed row by row. -/
def matrixOf {α : Type} (rows cols : Nat) (f : Nat → Nat → Res α) : Res (List (List α)) :=
  (upFrom 0 rows).mapM fun i => (upFrom 0 cols).mapM fun k => f i k

/-! ### A pass (R235, R236) -/

/-- The reported fault of a pass: the least place (i, j, k), INT4_RESERVED_TRAP before FP_TRAP, as one number, with the VSTAT bit. -/
structure PassFault where
  key : Nat
  bit : Nat
  deriving DecidableEq, Repr

/-- The key of a place: kind 0 is a reserved code, 1 an exception. -/
def faultKey (i j k kind : Nat) : Nat := ((i * 256 + j) * 4096 + k) * 2 + kind

/-- The first of some faults in the order of R236. -/
def firstFault (fs : List PassFault) : Option PassFault :=
  fs.foldl (fun o f => match o with | some g => if f.key < g.key then some f else some g | none => some f) none

/-- The fault as a trap: the bit of VSTAT, I4RSV for a reserved code, and the row, column and K index (R236, R357). -/
def passTrap (f : PassFault) : TrapInfo :=
  { cause := if f.key % 2 = 0 then .int4ReservedTrap else .fpTrap,
    esw := (if f.key % 2 = 0 then 7 else f.bit) + f.key / 2 / 4096 / 256 * 2 ^ 24 + f.key / 2 / 4096 % 256 * 2 ^ 31 + f.key / 2 % 4096 * 2 ^ 39 }

/-- What the groups of a cell leave: its value, its flags, and the first group that traps with its VSTAT bit. -/
structure CellOut where
  x : XR
  fl : Flags
  trap : Option (Nat × Nat)

/-- A list cut into groups. -/
def groupsOf {α : Type} (g : Nat) : Nat → List α → List (List α)
  | 0, _ => []
  | _ + 1, [] => []
  | n + 1, x :: xs => (x :: xs).take g :: groupsOf g n ((x :: xs).drop g)

/-- The exact sum of some terms, with the flags of forming them. The terms are summed from the first to the last: NV is set for infinities of both
signs unless a NaN comes before the second (R39, R47; log 80). -/
def exactSum (ts : List FV) : FV :=
  match ts with
  | [] => (xZero, 0)
  | t :: ts => ts.foldl (fun a t => let r := xAdd false a.1 t.1; (r.1, a.2 ||| t.2 ||| r.2)) t

/-- CellGroup of R235: the terms are a(k), b(k) and the code of step k. -/
def cellGroup (acc : XR) (ts : List (XR × XR × Nat)) : FV :=
  match ts with
  | [] => (acc, 0)
  | t :: _ =>
    if t.2.2 < 2 then
      let s := exactSum (ts.map fun t => if t.2.2 = 0 then xMul t.1 t.2.1 else let d := xSub false t.1 t.2.1; (xAbs d.1, d.2))
      let r := xAdd false acc s.1
      roundAcc (r.1, s.2 ||| r.2)
    else
      let pick := if t.2.2 = 2 then xLarger else xSmaller
      let vs := ts.map fun t => xAdd false t.1 t.2.1
      let best := (vs.map (·.1)).foldl pick (if t.2.2 = 2 then .inf true else .inf false)
      let fl := vs.foldl (fun a v => a ||| v.2) 0
      if xIsNan acc || xIsNan best then (.nan, accFlags fl)
      else let r := roundAcc (best, fl); (pick acc r.1, r.2)

/-- The groups of one cell in ascending K; `lo` is the K index of the next group. -/
def runCell (vctl : Word) (g : Nat) (acc : XR) (groups : List (List (XR × XR × Nat))) : CellOut :=
  (groups.foldl (fun (o : CellOut × Nat) ts =>
    let r := cellGroup o.1.x ts
    (⟨r.1, o.1.fl ||| r.2, match o.1.trap with | some t => some t | none => (enabledTrap vctl r.2).map fun b => (o.2, b)⟩, o.2 + g))
    (⟨acc, 0, none⟩, 0)).1

/-- The terms of a cell. -/
def cellTerms (codes : List Nat) (a b : List FV) : List (XR × XR × Nat) :=
  ((a.zip b).zip codes).map fun t => (t.1.1.1, t.1.2.1, t.2)

/-- The K index of the first reserved code of two rows of values. -/
def firstReserved (a b : List FV) : Option Nat :=
  (((upFrom 0 a.length).zip (a.zip b)).find? fun p => (p.2.1.2 ||| p.2.2.2).getLsbD 7).map (·.1)

/-- One cell of a pass at (i, j): its value, its flags and its faults. -/
def passCell (vctl : Word) (g : Nat) (codes : List Nat) (acc : XR) (a b : List FV) (i j : Nat) : XR × Flags × List PassFault :=
  let o := runCell vctl g acc (groupsOf g (a.length + 1) (cellTerms codes a b))
  let rsv := firstReserved a b
  (o.x, o.fl ||| (if rsv.isSome then flagI4 else 0),
   (match o.trap with | some t => [⟨faultKey i j t.1 1, t.2⟩] | none => []) ++
   (match rsv with | some k => if vctl.getLsbD 4 then [⟨faultKey i j k 0, 0⟩] else [] | none => []))

/-- What a pass leaves: the cells written, the flags and the faults. -/
structure PassOut where
  cells : List (Nat × Nat)
  fl : Flags
  faults : List PassFault

def PassOut.empty : PassOut := ⟨[], 0, []⟩

/-- One more cell of a pass. -/
def addCell (o : PassOut) (place : Nat) (r : XR × Flags × List PassFault) : PassOut :=
  ⟨o.cells ++ [(place, f32Bits r.1)], o.fl ||| r.2.1, o.faults ++ r.2.2⟩

/-- The main cells of a pass. -/
def passMain (vctl : Word) (g : Nat) (codes : List Nat) (arr : ArrayState) (as bs : List (List FV)) : PassOut :=
  ((upFrom 0 as.length).zip as).foldl (fun o p =>
    ((upFrom 0 bs.length).zip bs).foldl (fun o q =>
      addCell o (p.1 * 256 + q.1) (passCell vctl g codes (accAt arr p.1 q.1) p.2 q.2 p.1 q.1)) o) PassOut.empty

/-- The side cells of a pass (R235): `fs` holds, for each row below the valid count, the columns of its factor A. A fault of one reports the rank index
as its column, behind a main cell of the same row, column and K index (log 54). -/
def passSide (vctl : Word) (g : Nat) (k : Nat) (arr : ArrayState) (as : List (List FV)) (fs : List (List (List FV))) : PassOut :=
  let codes := List.replicate k 0
  ((upFrom 0 as.length).zip (as.zip fs)).foldl (fun o p =>
    ((upFrom 0 p.2.2.length).zip p.2.2).foldl (fun o q =>
      addCell o (p.1 * 64 + q.1) (passCell vctl g codes (sideAt arr p.1 q.1) p.2.1 q.2 p.1 q.1)) o) PassOut.empty

/-- Cells written into a table. -/
def writeCells (t : Tab Nat) (cells : List (Nat × Nat)) : Tab Nat := cells.foldl (fun t c => tabSet 0 t c.1 c.2) t

/-- The checks of XPASS at the head (R241, R243). -/
def passHead (s : State) (e : QEntry) (side : Bool) : Res Unit :=
  let a := descOf (e.descs.getD 0 0); let b := descOf (e.descs.getD 1 0)
  let arr := s.core.arr
  inOrder [require (!side || (slotsUsed arr e.count).all fun sl => decide (arr.k0 + descCount a ≤ attKf (slotEntry s sl))) .arrayShape,
    require (banksOk a b) .bankConflict, require (!side || mapLatched arr) .sideNoAdapter]

/-- The columns of factor A for the rows of a pass: none for a row whose slot is NONE. -/
def sideFactors (s : State) (rows k : Nat) : Res (List (List (List FV))) :=
  (upFrom 0 rows).mapM fun i =>
    let sl := mapSlot s.core.arr (i / 8)
    if sl = 0xFFFF then .ok []
    else matrixOf (attRank (slotEntry s sl)) k fun t c => factorVal s sl s.core.arr.layer false t (s.core.arr.k0 + c)

/-- The factor pages of an XPASS.SIDE or XSIDEB brought into place (R235, R254). -/
def fetchPass (s : State) (e : QEntry) : Res State :=
  let get (second : Bool) (k0 k : Nat) := fetchSlots s second k0 k (heldPlaces s true) (slotsUsed s.core.arr e.count)
  match e.instr with
  | .xpass true _ _ _ => get false s.core.arr.k0 (descCount (descOf (e.descs.headD 0)))
  | .xsideb .. => get true (sideOffset (e.hvals.headD 0)) (sideCols (e.hvals.headD 0))
  | _ => .ok s

/-- Passes counts an XPASS that starts (R229). -/
def countPass (s : State) (e : QEntry) : State :=
  match e.instr with
  | .xpass .. => { s with core := { s.core with arr := { s.core.arr with passes := s.core.arr.passes + 1 } } }
  | _ => s

/-- An array instruction starts (R227, R235, R243): its checks against the array state, the right, and its factor pages. -/
def startArray (s : State) (e : QEntry) (checks : Res Unit) : UnitRes :=
  onArray s e checks fun s e => (fetchPass s e).map fun s => ⟨countPass s e, e, false⟩

/-- XPASS on the array: every value is formed before any state changes (R235, R236). -/
def passEffect (s : State) (e : QEntry) (side : Bool) : UnitRes :=
  let a := operandAt e 0 2; let b := operandAt e 1 3
  let k := descCount a.d
  let arr := s.core.arr
  let val (o : Operand) (i c : Nat) : Res FV := (presentVal s o (i * k + c)).map (·.2)
  match matrixOf e.count k (val a) with
  | .error x => .error x
  | .ok as =>
    match (if e.count = 0 then .ok [] else matrixOf (descRows b.d) k (val b) : Res (List (List FV))) with
    | .error x => .error x
    | .ok bs =>
      match (if side then sideFactors s e.count k else .ok [] : Res (List (List (List FV)))) with
      | .error x => .error x
      | .ok fs =>
        let g := (groupSize (descFmt a.d) (descFmt b.d)).getD 2
        let codes := (upFrom 0 k).map fun c => bitField arr.pattern (2 * (c % 16)) 2
        let m := passMain e.vctl g codes arr as bs
        let w := if side then passSide e.vctl g k arr as fs else PassOut.empty
        match firstFault (m.faults ++ w.faults) with
        | some f => .error (.trap (passTrap f))
        | none =>
          let arr := { arr with acc := writeCells arr.acc m.cells, side := writeCells arr.side w.cells,
                                sideLive := arr.sideLive || (side && !(slotsUsed arr e.count).isEmpty),
                                k0 := if side then (arr.k0 + k) % 2 ^ 32 else arr.k0, alive := true, lastB := lastBank b.d }
          .ok ⟨mergeFlags { s with core := { s.core with arr := arr } } (m.fl ||| w.fl), e, true⟩

/-- An instruction that has started under the right has its effect, its factor pages in place; any other one starts (R235). -/
def runPass (s : State) (e : QEntry) (checks : Res Unit) (effect : State → UnitRes) : UnitRes :=
  if e.started && s.core.lease = .held then
    match fetchPass s e with
    | .error x => .error x
    | .ok s => effect s
  else startArray s e checks

/-- XPASS at the head (R235). -/
def unitXpass (s : State) (e : QEntry) (side : Bool) : UnitRes := runPass s e (passHead s e side) fun s => passEffect s e side

/-! ### XSIDE and XSIDEB (R240, R242) -/

/-- The entries of an adapter map, judged one after another (R240). -/
def readMap (s : State) (base layer : Nat) : Res (List Nat) :=
  (upFrom 0 16).mapM fun g =>
    match withOperand 4 (spadLoad s (base + 8 * g) 8) with
    | .error x => .error x
    | .ok bs =>
      let v := leNat bs
      let slot := bitField v 0 16
      if bitField v 16 16 ≠ 0 then faultOp .sideNoAdapter 4
      else if slot = 0xFFFF then .ok v
      else if slot ≥ 64 || (slotBound s.core slot).isNone then faultOp .sideNoAdapter 4
      else if layer ≥ attLayers (slotEntry s slot) then fault .arrayShape
      else .ok v

/-- XSIDE at the head (R240): the map is latched, and the references of the one before it are dropped. -/
def unitXside (s : State) (e : QEntry) : UnitRes :=
  let d := descOf (e.descs.headD 0)
  let h := (e.hvals.headD 0).toNat
  let map := if d.type = 1 ∧ d.amv then readMap s (d.amap * 256) (bitField h 0 16) else faultOp .sideNoAdapter 2
  onArray s e (map.map fun _ => ()) fun s e =>
    match map with
    | .error x => .error x
    | .ok vs =>
      let arr := { s.core.arr with map := tabSetRange 0 [] 0 (vs.map (· + 1)), layer := bitField h 0 16, k0 := bitField h 16 32,
                                   side := [], sideLive := false }
      .ok ⟨sweepSlots { s with core := { s.core with arr := arr } }, e, true⟩

/-- The checks of XSIDEB at the head (R242, R243). -/
def sidebHead (s : State) (e : QEntry) : Res Unit :=
  let h := e.hvals.headD 0
  inOrder [require ((slotsUsed s.core.arr e.count).all fun sl => decide (sideOffset h + sideCols h ≤ attNf (slotEntry s sl))) .arrayShape,
    require (mapLatched s.core.arr) .sideNoAdapter]

/-- One cell of XSIDEB (R242): its side values, the values of its column of factor B, and α. The K index reported is the rank index of a reserved code,
and 0 for an exception of the sum (log 54). -/
def sidebCell (vctl : Word) (alpha acc : XR) (side : List XR) (b : List FV) (i j : Nat) : XR × Flags × List PassFault :=
  let s := exactSum ((side.zip b).map fun p => xMul p.1 p.2.1)
  let m := xMul alpha s.1
  let t := xAdd false acc m.1
  let r := roundAcc (t.1, s.2 ||| m.2 ||| t.2)
  let rsv := (((upFrom 0 b.length).zip b).find? fun p => p.2.2.getLsbD 7).map (·.1)
  (r.1, r.2 ||| (if rsv.isSome then flagI4 else 0),
   (match enabledTrap vctl r.2 with | some bit => [⟨faultKey i j 0 1, bit⟩] | none => []) ++
   (match rsv with | some k => if vctl.getLsbD 4 then [⟨faultKey i j k 0, 0⟩] else [] | none => []))

/-- XSIDEB on the array (R242). -/
def sidebEffect (s : State) (e : QEntry) : UnitRes :=
  let h := e.hvals.headD 0
  let arr := s.core.arr
  let rows := (upFrom 0 e.count).filter fun i => mapSlot arr (i / 8) ≠ 0xFFFF
  let cols : Res (List (List (List FV))) := rows.mapM fun i =>
    let sl := mapSlot arr (i / 8)
    matrixOf (sideCols h) (attRank (slotEntry s sl)) fun j t => factorVal s sl arr.layer true t (sideOffset h + j)
  match cols with
  | .error x => .error x
  | .ok bs =>
    let out := (rows.zip bs).foldl (fun o p =>
      ((upFrom 0 p.2.length).zip p.2).foldl (fun o q =>
        addCell o (p.1 * 256 + q.1)
          (sidebCell e.vctl (decodeFmt .f32 (mapAlpha arr (p.1 / 8))) (accAt arr p.1 q.1) ((upFrom 0 q.2.length).map (sideAt arr p.1)) q.2 p.1 q.1)) o)
      PassOut.empty
    match firstFault out.faults with
    | some f => .error (.trap (passTrap f))
    | none =>
      .ok ⟨mergeFlags { s with core := { s.core with arr := { arr with acc := writeCells arr.acc out.cells, alive := arr.alive || !rows.isEmpty } } } out.fl,
           e, true⟩

/-- XSIDEB at the head (R242). -/
def unitXsideb (s : State) (e : QEntry) : UnitRes := runPass s e (sidebHead s e) fun s => sidebEffect s e

/-! ### XDRAIN and XBIAS (R238, R239) -/

/-- A unit of XDRAIN (R239). -/
def unitXdrain (s : State) (e : QEntry) (zero : Bool) (rm : Rm) : UnitRes :=
  let dd := operandAt e 0 1
  let c := descCount dd.d
  onArray s e (if drainBankOk s.core.arr dd.d then .ok () else faultOp .bankConflict 1) fun s e =>
    (unitWrite s e dd rm (e.count * c) fun s i => .ok (s, accAt s.core.arr (i / c) (i % c), 0)).map fun o =>
      if o.done && zero then
        { o with s := { o.s with core := { o.s.core with arr := { o.s.core.arr with acc := [], side := [], alive := false, sideLive := false } } } }
      else o

/-- A unit of XBIAS (R238). -/
def unitXbias (s : State) (e : QEntry) (row add : Bool) : UnitRes :=
  let da := operandAt e 0 2
  let c := descCount da.d
  onArray s e (.ok ()) fun s e =>
    if e.progress ≥ e.count * c then .ok ⟨s, e, true⟩
    else
      let r := e.progress / c
      let k := e.progress % c
      match presentVal s da (if row then k else e.progress) with
      | .error x => .error x
      | .ok (s, v) =>
        let x := if add then let t := xAdd false (accAt s.core.arr r k) v.1; roundAcc t else roundAcc (v.1, 0)
        match entryFlags s e (x.2 ||| v.2) with
        | .error x => .error x
        | .ok s =>
          let arr := s.core.arr
          progressTo { s with core := { s.core with arr := { arr with acc := tabSet 0 arr.acc (r * 256 + k) (f32Bits x.1), alive := true } } }
            e (e.progress + 1) (e.count * c)

end Sys2Proof.Machine
end

