-- ==== Sys2Proof/Machine/Adapter.lean ====
section
/-! DEFINITION. The adapter instructions: binding, release, query and publication (R246 to R262). -/

namespace Sys2Proof.Machine

/-! ### Issue (R255, R261) -/

/-- The map descriptor of ARES and AREL (R255, row 1 of R261). -/
def mapDesc (d : Desc) : Res Unit := if d.type = 1 ∧ d.amv then .ok () else faultOp .sideNoAdapter 1

/-- The fetch window of ARES: its first layer and its length (R256). -/
def windowStart (h : Word) : Nat := bitField h.toNat 0 16
def windowLen (h : Word) : Nat := bitField h.toNat 16 16

/-- ARES (R256, R261): its issue. -/
def execAres (dd da hb : Nat) (sy : Sync) (s : State) : Outcome :=
  run s (issue s (.ares dd da hb sy) { engine := .matrix, sync := sy, uses := [(1, dd, false), (2, da, false)], hregs := [hb], part := .pages [] [] }
    (fun ds => descN (ds.getD 1 default)) fun ds hv _ =>
      let m := ds.getD 0 default; let a := ds.getD 1 default
      inOrder [mapDesc m, needDesc m [1] anyFmt 1, needDesc a [1] anyFmt 2, needFmt (descFmt a = .i64 && a.sfmt = 0) 2,
        if 1 ≤ descN a ∧ descN a ≤ 16 then .ok () else faultOp .vecCount 2, require (bitField (hv.headD 0).toNat 32 32 = 0) .arrayShape])

/-- AREL (R257, R261): its issue. -/
def execArel (dd : Nat) (sy : Sync) (s : State) : Outcome :=
  run s (issue s (.arel dd sy) { engine := .matrix, sync := sy, uses := [(1, dd, false)], hregs := [] } (fun _ => 16) fun ds _ _ =>
    let m := ds.headD default
    inOrder [mapDesc m, needDesc m [1] anyFmt 1])

/-- AQRY (R258): its issue, after which the stream waits for its result. -/
def execAqry (sel : AqrySel) (hd ha : Nat) (sy : Sync) (s : State) : Outcome :=
  issueHeld s (issue s (.aqry sel hd ha sy) { engine := .matrix, sync := sy, uses := [], hregs := [ha] } (fun _ => 0) fun _ _ _ => .ok ())

/-- APUB (R259): its issue, after which the stream waits for its result. -/
def execApub (hd ha hb : Nat) (sy : Sync) (s : State) : Outcome :=
  issueHeld s (issue s (.apub hd ha hb sy) { engine := .matrix, sync := sy, uses := [], hregs := [ha, hb] } (fun _ => 0) fun _ hv _ =>
    let p := (hv.getD 1 0).toNat
    require (bitField p 52 12 = 0 && bitField p 0 6 = 0) .arrayShape)

/-! ### ARES (R256) -/

/-- The bound slots of a core whose adapter is of a quota class. -/
def classSlots (s : State) (cls : Nat) (c : Core) : Nat :=
  (c.slots.filter fun p => match p.2 with | some b => attClass (attAt s b.1) = cls | none => false).length

/-- The bound slots of every core of every context of a virtual device, of a quota class (R251). -/
def quotaCount (s : State) (vd cls : Nat) : Nat :=
  let mine (c : Core) : Nat := if c.job.isSome && (ctxAt s c.ctx).vd = vd then classSlots s cls c else 0
  s.others.foldl (fun n p => n + mine p.2) (mine s.core) +
  s.jobs.foldl (fun n p => match p.2 with
    | some j => if j.vd = vd then j.image.foldl (fun n c => n + classSlots s cls c) n else n
    | none => n) 0

/-- The lowest-numbered FREE slot (R256). -/
def freeSlot (c : Core) : Option Nat := (upFrom 0 64).find? fun k => (tabGet none c.slots k).isNone

/-- A binding of an adapter's current version to a slot of the executing core (R256, R261 row 9). -/
def bindSlot (s : State) (i : Nat) : Res (State × Nat) :=
  let e := attAt s i
  let vd := (curCtx s).vd
  match (upFrom 0 64).find? fun k => slotBound s.core k = some (i, attVersion e) with
  | some k =>
    .ok ({ s with core := { s.core with slots := tabSet none s.core.slots k ((tabGet none s.core.slots k).map fun b => (b.1, b.2.1, b.2.2 + 1)) } }, k)
  | none =>
    match freeSlot s.core with
    | none => fault .adapterQuota
    | some k =>
      if quotaCount s vd (attClass e) + 1 > vdField s vd (256 + 16 * attClass e) 16 then fault .adapterQuota
      else
        let e := setField e 96 24 (attCrefs e + 1)
        let e := if attState e = 1 ∨ attState e = 2 then setField e 20 3 3 else e
        .ok ({ setAtt s i e with core := { s.core with slots := tabSet none s.core.slots k (some (i, attVersion e, 1)) } }, k)

/-- The current version of an adapter is pinned on a die: it has not been published since the Pin (R249, R254, R259). -/
def versionPinned (s : State) (i e die : Nat) : Bool :=
  attState e = 4 && s.pinned.any fun p => p.die = die && p.adapter = i && p.version = attVersion e

/-- The cache of the executing core's die holds a window's pages together with those of its pages that started passes hold, each counted once (R254). -/
def windowFits (s : State) (i e l0 n : Nat) : Bool :=
  let vaults := cacheVaults s (ctxAt s s.core.ctx).vd (dieOf s.focus)
  let p := layerPages e
  let window := (upFrom (l0 * p) (n * p)).filterMap (factorPlace s s.core.ctx (dieOf s.focus) i (attVersion e))
  let held := (heldPlaces s false).eraseDups.filter fun a => vaults.contains (a / 4194304) && !window.contains a
  versionPinned s i e (dieOf s.focus) || (!vaults.isEmpty && decide (n * p + held.length ≤ 64 * vaults.length))

/-- The slot of one handle (R256). -/
def resolveHandle (s : State) (h l0 n : Nat) : Res (State × Nat) :=
  if h = 0 then .ok (s, 0xFFFF)
  else match attResolve s h (curCtx s).world with
  | none => faultOp .adapterHandleBad 2
  | some (i, e) =>
    if attState e = 5 then faultOp .adapterRetired 2
    else if l0 + n > attLayers e then fault .arrayShape
    else if !windowFits s i e l0 n then fault .adapterQuota
    else bindSlot s i

/-- The pages of a slot's window brought into the cache (R256). -/
def fetchWindow (s : State) (slot l0 n : Nat) : Res State :=
  match slotBound s.core slot with
  | none => .ok s
  | some b =>
    let p := layerPages (attAt s b.1)
    fetchPages s b.1 b.2 (heldPlaces s true) (upFrom (l0 * p) (n * p))

def fetchWindows (s : State) (l0 n : Nat) : List Nat → Res State
  | [] => .ok s
  | k :: ks => match fetchWindow s k l0 n with
    | .error x => .error x
    | .ok s => fetchWindows s l0 n ks

/-- A unit of ARES: one handle, and at the end the wait for the requested pages (R256). -/
def unitAres (s : State) (e : QEntry) : UnitRes :=
  let m := descOf (e.descs.headD 0)
  let h := e.hvals.headD 0
  let asked := match e.part with | .pages p _ => p | _ => []
  if e.progress ≥ e.count then
    (fetchWindows s (windowStart h) (windowLen h) asked).map fun s => ⟨s, e, true⟩
  else
    let off := m.amap * 256 + 8 * e.progress
    if !spadOk s off 4 then faultOp .spadRange 4
    else match presentBits s (operandAt e 1 2) e.progress with
    | .error x => .error x
    | .ok (s, hd) =>
      match resolveHandle s hd (windowStart h) (windowLen h) with
      | .error x => .error x
      | .ok (s, slot) =>
        match withOperand 4 (spadStore s off (natLe 2 slot ++ [0, 0])) with
        | .error x => .error x
        | .ok s => .ok ⟨s, { e with progress := e.progress + 1, part := .pages (if slot = 0xFFFF then asked else asked ++ [slot]) [] }, false⟩

/-! ### AREL, AQRY, APUB -/

/-- A unit of AREL: one entry of the map (R257). -/
def unitArel (s : State) (e : QEntry) : UnitRes :=
  if e.progress ≥ e.count then .ok ⟨s, e, true⟩
  else
    let off := (descOf (e.descs.headD 0)).amap * 256 + 8 * e.progress
    match withOperand 4 (spadLoad s off 2) with
    | .error x => .error x
    | .ok bs =>
      let k := leNat bs
      if k = 0xFFFF then progressTo s e (e.progress + 1) e.count
      else match (if k > 63 then none else tabGet none s.core.slots k) with
      | none => faultOp .adapterHandleBad 4
      | some (i, v, n) =>
        if n = 0 then faultOp .adapterHandleBad 4
        else match withOperand 4 (spadStore s off [0xFF, 0xFF]) with
        | .error x => .error x
        | .ok s => progressTo (sweepSlots { s with core := { s.core with slots := tabSet none s.core.slots k (some (i, v, n - 1)) } }) e (e.progress + 1) e.count

/-- What AQRY writes (R258). -/
def aqryValue (s : State) (sel : AqrySel) (v : Nat) : Nat :=
  match sel with
  | .slot => match (if v < 64 then tabGet none s.core.slots v else none) with
    | some (i, ver, n) => bitField ver 0 24 + i * 2 ^ 24 + bitField n 0 16 * 2 ^ 44 + 2 ^ 63
    | none => 0
  | sel => match attResolve s v (curCtx s).world with
    | none => 0
    | some (_, e) => 2 ^ 63 + (match sel with
      | .state => attState e + attHome e * 2 ^ 3 + bitField e 12 2 * 2 ^ 4 + attLayers e * 2 ^ 6 + attKf e * 2 ^ 22 + attNf e * 2 ^ 38 +
          bitField e 14 6 * 2 ^ 54
      | .ver => attVersion e + attCrefs e * 2 ^ 24
      | _ => attOversion e + attOrefs e * 2 ^ 24)

/-- AQRY at the head (R258). -/
def unitAqry (s : State) (e : QEntry) (sel : AqrySel) (hd : Nat) : UnitRes :=
  .ok ⟨writeNat s hd (aqryValue s sel (e.hvals.headD 0).toNat), e, true⟩

/-- A version published: the ATT entry and the status (R259). -/
def publish (e p : Nat) : Nat × Nat :=
  if attOrefs e ≠ 0 then (e, 1)
  else if attVersion e = 0xFFFFFF then (e, 2)
  else
    let e' := setField (setField (setField e 120 24 (attVersion e)) 220 52 (attCptr e)) 144 24 (attCrefs e)
    (setField (setField (setField e' 72 24 (attVersion e + 1)) 168 52 p) 96 24 0, 0)

/-- APUB at the head (R259). -/
def unitApub (s : State) (e : QEntry) (hd : Nat) : UnitRes :=
  match attResolve s (e.hvals.headD 0).toNat (curCtx s).world with
  | none => faultOp .adapterHandleBad 0
  | some (i, a) =>
    if attState a = 5 then fault .adapterRetired
    else
      let r := publish a (e.hvals.getD 1 0).toNat
      let s := setAtt s i r.1
      let s := if r.2 = 0 ∧ attOrefs r.1 = 0 then reclaimOld s i else s
      .ok ⟨writeNat s hd (r.2 + attVersion (attAt s i) * 2 ^ 16), e, true⟩

end Sys2Proof.Machine
end

