-- ==== Sys2Proof/Machine/Group.lean ====
section
/-! DEFINITION. Group membership and the group instructions (R322 to R335). -/

namespace Sys2Proof.Machine

/-! ### GJOIN (R323 to R326) -/

/-- Words of 8 bytes loaded one after another from an effective address. -/
def loadWords (s : State) (ea : Word) : Nat → Nat → Res (State × List Nat)
  | _, 0 => .ok (s, [])
  | n, k + 1 =>
    match scalarLoad s ea n with
    | .error e => .error e
    | .ok (s, bs) => (loadWords s (ea + BitVec.ofNat 64 n) n k).map fun r => (r.1, leNat bs :: r.2)

/-- A group record (R323). -/
structure GroupRec where
  words : List Nat
  members : List Nat
  deriving DecidableEq, Repr

def recKey (r : GroupRec) : Nat := r.words.getD 0 0
def recSize (r : GroupRec) : Nat := bitField (r.words.getD 1 0) 0 16
def recRank (r : GroupRec) : Nat := bitField (r.words.getD 1 0) 16 16
def recStage (r : GroupRec) : Nat := bitField (r.words.getD 3 0) 0 31
def recStageB (r : GroupRec) : Nat := bitField (r.words.getD 3 0) 32 32
def recHall (r : GroupRec) : List Word := (r.words.drop 4).map (BitVec.ofNat 64)
def sizeOk (p : Nat) : Bool := decide (1 ≤ p ∧ p ≤ 16384)

/-- The record at an effective address with its member table (R323, row 1 of R335). -/
def loadRecord (s : State) (ea : Word) : Res (State × GroupRec) :=
  if ea.toNat % 64 ≠ 0 then faultVa .ldAlign ea.toNat
  else match loadWords s ea 8 8 with
  | .error e => .error e
  | .ok (s, ws) =>
    let p := bitField (ws.getD 1 0) 0 16
    (loadWords s (BitVec.ofNat 64 (ws.getD 2 0)) 2 (if sizeOk p then p else 0)).map fun r => (r.1, ⟨ws, r.2⟩)

/-- The staging area lies in the context's vault share (R324). -/
def stagingOk (s : State) (stage n : Nat) : Bool :=
  stage % 64 = 0 && n ≠ 0 && n % 65536 = 0 &&
  (upFrom (stage / 4194304) ((stage + n + 4194303) / 4194304 - stage / 4194304)).all (vaultShared s s.core.ctx)

/-- The record is well formed for this member (R325, reason 5). -/
def recordOk (s : State) (r : GroupRec) : Bool :=
  recKey r ≠ 0 && bitField (r.words.getD 1 0) 32 32 = 0 && bitField (r.words.getD 3 0) 31 1 = 0 && sizeOk (recSize r) &&
  decide (recRank r < recSize r) && r.members.all (fun m => decide (m < 4096)) && r.members[recRank r]? = some s.package &&
  stagingOk s (recStage r) (recStageB r)

/-- A membership under a key that is JOINED or ABORTED stands on the package (R325, reason 4). -/
def keyStands (s : State) (key : Nat) : Bool :=
  let h (c : Core) := c.groups.any fun p => p.2.state ≥ 2 && p.2.key = key
  h s.core || s.others.any (fun p => h p.2) || s.jobs.any fun p => p.2.any fun j => j.image.any h

/-- A joining record agrees with another (R325). -/
def sameRecord (a b : JoinRec) : Bool := a.key = b.key && a.size = b.size && a.hall = b.hall && a.members = b.members

/-- The join of a record by the executing core. -/
def joinOf (s : State) (slot : Nat) (r : GroupRec) : JoinRec :=
  { key := recKey r, rank := recRank r, size := recSize r, hall := recHall r, members := r.members, place := some (s.focus, slot) }

/-- The reason for which a join is refused; none when it is not (R325). Of several reasons the first of this order is given (log 23). -/
def refusal (s : State) (slot : Nat) (r : GroupRec) : Option Nat :=
  if (groupAt s.core slot).state ≠ 0 then some 3
  else if !recordOk s r then some 5
  else if (curCtx s).hall ≠ recHall r then some 1
  else if keyStands s (recKey r) then some 4
  else if s.joins.any fun j => j.key = recKey r && (j.rank = recRank r || (j.rank = 0 && !sameRecord j (joinOf s slot r))) then some 2
  else none

/-- A member of this package that is JOINING is refused: its slot becomes FREE, and its GJOIN faults at the step's end, joinFault (R325, R326). -/
def refuseMember (s : State) (reason : Nat) (j : JoinRec) : State :=
  match j.place with
  | none => s
  | some (c, k) => putCore s c (setGroup (coreAt s c) k { GroupSlot.free with reason := 16 + reason })

/-- The record of a join that has come in, when it is rank 0's: the members of this package whose records disagree are refused (R325, R326). -/
def compareJoins (s : State) (j : JoinRec) : State :=
  let bad := if j.rank = 0 then s.joins.filter fun i => i.key = j.key && i.place.isSome && !sameRecord i j else []
  if bad.isEmpty then s else abortGroup (bad.foldl (fun s i => refuseMember s 2 i) s) j.key 7 j.members

/-- A join entered: the slot is JOINING, the join is sent, and members whose records disagree with rank 0's are refused (R325, R326). -/
def enterJoin (s : State) (slot : Nat) (r : GroupRec) : State :=
  let j := joinOf s slot r
  let g : GroupSlot := { state := 1, key := j.key, size := j.size, rank := j.rank, seq := 0, reason := 0, staging := recStage r, stageB := recStageB r,
                         members := j.members, hall := j.hall }
  let away := (j.members.filter (· ≠ s.package)).eraseDups
  compareJoins { s with core := setGroup s.core slot g, joins := s.joins ++ [j],
                        outbox := s.outbox ++ away.map fun p => .join p { j with place := none } } j

/-- The GJOIN of a core that waits on a slot which a refusal or an abort notice has made FREE faults at once (R325, R326). -/
def joinFault (s : State) (core : Nat) : State :=
  let c := coreAt s core
  match c.c.state, c.c.pending with
  | .wait, some ⟨.group k, _, _, words, _⟩ =>
    let g := groupAt c k
    if g.state = 0 ∧ g.reason ≠ 0 then
      raiseTrap (putCore s core (setGroup c k GroupSlot.free)) ⟨core, .c, 0, decide (g.reason < 16), c.c.pc, words, c.c.pc⟩
        (if g.reason < 16 then { cause := .groupAborted, esw := g.reason } else { cause := .groupMemberRefused, esw := g.reason - 16 })
    else s
  | _, _ => s

/-- Every GJOIN that has been refused or aborted in a step faults in it. -/
def joinFaults (s : State) : State := (s.focus :: s.others.map (·.1)).foldl joinFault s

/-- GJOIN (R325, R326). -/
def execGjoin (ga slot : Nat) (s : State) : Outcome :=
  match loadRecord s (readReg s ga) with
  | .error e => .next (settle s (.error e))
  | .ok (s, r) =>
    match refusal s slot r with
    | some n => .next (trapCur (abortGroup s (recKey r) 7 r.members) { cause := .groupMemberRefused, esw := n })
    | none => .next (waitOn (enterJoin s slot r) (.group slot))

/-- The slot that a group instruction names. -/
def slotOf : Instr → Option Nat
  | .gsync k _ | .gred _ k _ _ _ _ | .gbcast k _ _ _ _ | .ggath k _ _ _ => some k
  | _ => none

/-- Every group instruction issued on a slot has completed or faulted (R328). -/
def slotQuiet (c : Core) (k : Nat) : Bool := c.qgrp.all fun e => slotOf e.instr ≠ some k || e.stopped

/-- GLEAVE (R328). -/
def execGleave (slot : Nat) (s : State) : Outcome :=
  if slotQuiet s.core slot then finish (leaveGroup s slot) else .next (waitOn s (.leave slot))

/-! ### The forming of a group (R325) -/

/-- Every member listed has joined under the same record (R325). -/
def groupReady (s : State) (key : Nat) : Bool :=
  match s.joins.find? fun j => j.key = key with
  | none => false
  | some z => (upFrom 0 z.size).all fun q => s.joins.any fun j => j.rank = q && sameRecord j z

/-- The GJOIN of a member of this package completes, its slot JOINED with SEQ 0 (R325, R326). -/
def completeJoin (s : State) (j : JoinRec) : State :=
  match j.place with
  | none => s
  | some (core, k) =>
    let s := { focusOn s core with cur := .c }
    let g := groupAt s.core k
    if g.state = 1 ∧ g.key = j.key then
      advanceBy { s with core := setGroup s.core k { g with state := 2, seq := 0 } } 4
    else s

/-- A group that is ready forms: the GJOIN of every member here completes (R325). -/
def formGroup (s : State) (key : Nat) : State :=
  if groupReady s key then
    let js := s.joins.filter fun j => j.key = key
    js.foldl completeJoin { s with joins := s.joins.filter fun j => j.key ≠ key }
  else s

/-! ### Issue (R329, R332, R333, R335) -/

/-- The slot stands JOINED. -/
def joined (g : GroupSlot) : Bool := g.state = 2

/-- The announcement of an instruction by a member, without what it contributes. -/
def announcement (g : GroupSlot) (seq kind op n fmt root : Nat) : Contribution :=
  { key := g.key, seq := seq, rank := g.rank, kind := kind, op := op, n := n, fmt := fmt, root := root, integer := false, bits := [], vals := [],
    sent := false }

/-- What a group instruction requires of its slot and its operands beside what any slot requires, and the announcement of its entry (R329, R333). -/
structure GroupOp where
  fits : GroupSlot → List Desc → List Word → Res Unit
  entry : GroupSlot → List Desc → List Word → Contribution

/-- The entry of a member into an operation: it takes the slot's SEQ, and is announced (R329, R330). -/
def enterGroup (s : State) (slot : Nat) (c : Contribution) : State :=
  let g := groupAt s.core slot
  announce { s with core := setGroup s.core slot { g with seq := g.seq + 1 } } g c

/-- A group instruction enters its operation at its issue: its slot is JOINED, and no instruction queued before it is still to enter on the slot, so
that the k-th instruction takes the k-th SEQ (R329, R330). -/
def entersNow (c : Core) (slot : Nat) : Bool :=
  joined (groupAt c slot) && c.qgrp.all fun e => slotOf e.instr ≠ some slot || e.part ≠ .none

/-- The issue of a group instruction: it takes the slot's SEQ and enters its operation, or its engine judges it at the head of the queue (R329, R330,
row 7 of R335). `checks` stand above the slot's row. -/
def issueGroup (s : State) (i : Instr) (slot : Nat) (sy : Sync) (op : GroupOp) (sent : Bool) (uses : List (Nat × Nat × Bool)) (beside hregs : List Nat)
    (checks late : List Desc → Res Unit) : Outcome :=
  let g := groupAt s.core slot
  run s <|
    issueWith s i { engine := .group, sync := sy, uses := uses, beside := beside, hregs := hregs,
                    part := if entersNow s.core slot then .group g.seq sent else .none }
      (fun _ => 0) fun s ds hv _ =>
        (inOrder [checks ds, if entersNow s.core slot then op.fits g ds hv else .ok (), late ds]).map fun _ =>
          if entersNow s.core slot then enterGroup s slot (op.entry g ds hv) else s

/-- The types that a group instruction accepts (R332). -/
def groupTypes : List Nat := [1, 2, 3]

/-- GSYNC: the entry is all that a member contributes (R333). -/
def gsyncOp : GroupOp := ⟨fun _ _ _ => .ok (), fun g _ _ => { announcement g g.seq 0 0 0 0 0 with sent := true }⟩

/-- GSYNC (R333): its issue. -/
def execGsync (slot : Nat) (sy : Sync) (s : State) : Outcome :=
  issueGroup s (.gsync slot sy) slot sy gsyncOp true [] [] [] (fun _ => .ok ()) fun _ => .ok ()

/-- The number of a GRED operation in an announcement. -/
def scanNum : ScanOp → Nat
  | .sum => 0 | .max => 1 | .min => 2

/-- GRED: the staging area holds the contributions (R333). -/
def gredOp (op : ScanOp) : GroupOp :=
  ⟨fun g ds _ => require (decide (descN (ds.getD 1 default) * 8 ≤ g.stageB)) .vecCount,
   fun g ds _ => announcement g g.seq 1 (scanNum op) (descN (ds.getD 1 default)) 0 0⟩

/-- GRED (R333): its issue. -/
def execGred (op : ScanOp) (slot dd da : Nat) (rm : Rm) (sy : Sync) (s : State) : Outcome :=
  issueGroup s (.gred op slot dd da rm sy) slot sy (gredOp op) false [(1, dd, true), (2, da, false)] [] []
    (fun ds => let d := ds.getD 0 default; let a := ds.getD 1 default
      inOrder [needDesc d groupTypes notBit 1, needDesc a groupTypes notBit 2, require (descN d = descN a) .vecCount])
    fun ds => noOverlap (ds.getD 0 default) 1 [(2, ds.getD 1 default, false)]

/-- The root rank of GBCAST. -/
def rootOf (h : Word) : Nat := bitField h.toNat 0 16

/-- The root of GBCAST: only its da is checked and read (R333). -/
def isRoot (g : GroupSlot) (h : Word) : Bool := joined g && g.rank = rootOf h

/-- What a GBCAST checks that was issued on a slot that was not JOINED: the root's da and the root (R333, R335). -/
def gbcastOp : GroupOp :=
  ⟨fun g ds hv =>
     let d := ds.getD 0 default; let a := ds.getD 1 default
     let ofRoot (r : Res Unit) : Res Unit := if isRoot g (hv.headD 0) then r else .ok ()
     inOrder [ofRoot (needDesc a groupTypes anyFmt 2), ofRoot (unscaled a 2), require (decide (rootOf (hv.headD 0) < g.size)) .vecCount,
       ofRoot (noOverlap d 1 [(2, a, false)])],
   fun g ds hv =>
     let d := ds.getD 0 default; let a := ds.getD 1 default
     let root := rootOf (hv.headD 0)
     if g.rank = root then announcement g g.seq 2 (b2n !(descN a = descN d && a.fmt = d.fmt)) (descN a) a.fmt root
     else { announcement g g.seq 2 0 (descN d) d.fmt root with sent := true }⟩

/-- GBCAST (R333): its issue. In every member but the root da is neither checked nor read. -/
def execGbcast (slot dd da hb : Nat) (sy : Sync) (s : State) : Outcome :=
  let g := groupAt s.core slot
  let root := isRoot g (readReg s hb)
  issueGroup s (.gbcast slot dd da hb sy) slot sy gbcastOp (!root) ((1, dd, true) :: if root then [(2, da, false)] else []) (if root then [] else [da]) [hb]
    (fun ds => let d := ds.getD 0 default
      inOrder [needDesc d groupTypes anyFmt 1, (if root then needDesc (ds.getD 1 default) groupTypes anyFmt 2 else .ok ()), unscaled d 1])
    fun _ => .ok ()

/-- GGATH: a place for every member's elements (R333). -/
def ggathOp : GroupOp :=
  ⟨fun g ds _ => require (decide (descN (ds.getD 0 default) = g.size * descN (ds.getD 1 default))) .vecCount,
   fun g ds _ =>
     let d := ds.getD 0 default; let a := ds.getD 1 default
     announcement g g.seq 3 (b2n (a.fmt ≠ d.fmt)) (descN a) a.fmt 0⟩

/-- GGATH (R333): its issue. -/
def execGgath (slot dd da : Nat) (sy : Sync) (s : State) : Outcome :=
  issueGroup s (.ggath slot dd da sy) slot sy ggathOp false [(1, dd, true), (2, da, false)] [] []
    (fun ds => let d := ds.getD 0 default; let a := ds.getD 1 default
      inOrder [needDesc d groupTypes anyFmt 1, needDesc a groupTypes anyFmt 2, unscaled d 1, unscaled a 2])
    fun ds => noOverlap (ds.getD 0 default) 1 [(2, ds.getD 1 default, false)]

/-! ### Operations (R329 to R331) -/

/-- GROUP_ABORTED with a reason (R326). -/
def groupFault {α : Type} (reason : Nat) : Res α := .error (.trap { cause := .groupAborted, esw := reason })

/-- The contributions of one operation that the package holds. -/
def contribsOf (s : State) (key seq : Nat) : List Contribution := s.contribs.filter fun c => c.key = key && c.seq = seq

/-- Two announcements agree (R329). -/
def announcedAlike (a b : Contribution) : Bool := a.kind = b.kind && a.op = b.op && a.n = b.n && a.fmt = b.fmt && a.root = b.root

/-- The operation's announcements disagree, or one disagrees with itself (R329, R333). -/
def mismatched (cs : List Contribution) : Bool :=
  cs.any (fun c => decide (c.kind ≥ 2) && c.op ≠ 0) ||
  match cs.find? fun c => c.rank = 0 with
  | none => false
  | some z => cs.any fun c => !announcedAlike z c

/-- Every member's contribution is held (R331). -/
def complete (g : GroupSlot) (cs : List Contribution) : Bool := (upFrom 0 g.size).all fun q => cs.any fun c => c.rank = q && c.sent

/-- An exact value as a contribution carries it. -/
def packReal : XR → Bool × Nat × Nat
  | .nan => (false, 0, 0)
  | .inf neg => (neg, 1, 0)
  | .fin neg n d => (neg, n, d)
def unpackReal (v : Bool × Nat × Nat) : XR :=
  if v.2.2 = 0 then (if v.2.1 = 0 then .nan else .inf v.1) else .fin v.1 v.2.1 v.2.2

/-- What a member adds to its entry when it sends its contribution: the class, the raw bits and the exact values. -/
abbrev Contents := Bool × List Nat × List (Bool × Nat × Nat)

/-- A unit of a group instruction (R326, R329 to R331): it sends its contribution, waits until every member's is held, and then writes. One that was
issued on a slot not JOINED enters here, where the slot now is, its conditions judged here. -/
def unitGroup (s : State) (e : QEntry) (slot : Nat) (op : GroupOp) (make : State → Res (State × Contents))
    (final : State → QEntry → GroupSlot → List Contribution → UnitRes) : UnitRes :=
  let g := groupAt s.core slot
  let ds := e.descs.map descOf
  match e.part with
  | .group seq sent =>
    let cs := contribsOf s g.key seq
    if e.started then final s e g cs
    else if !joined g then groupFault (if g.state = 3 then g.reason else 5)
    else if !sent then
      match make s with
      | .error x => .error x
      | .ok (s, x) =>
        .ok ⟨announce s g { op.entry { g with seq := seq } ds e.hvals with integer := x.1, bits := x.2.1, vals := x.2.2, sent := true },
          { e with part := .group seq true }, false⟩
    else if cs.any (fun c => c.kind = 4) then .ok ⟨{ s with core := setGroup s.core slot { g with state := 3, reason := 3 } }, e, false⟩
    else if mismatched cs then .ok ⟨abortGroup s g.key 4 g.members, e, false⟩
    else if complete g cs then .ok ⟨s, { e with started := true }, false⟩
    else .ok ⟨s, e, false⟩
  | _ =>
    if joined g then
      match op.fits g ds e.hvals with
      | .error x => .error x
      | .ok () => let c := op.entry g ds e.hvals; .ok ⟨enterGroup s slot c, { e with part := .group g.seq c.sent }, false⟩
    else groupFault (if g.state = 3 then g.reason else 5)

/-- A unit of GSYNC (R333). -/
def unitGsync (s : State) (e : QEntry) (slot : Nat) : UnitRes :=
  unitGroup s e slot gsyncOp (fun s => .ok (s, (false, [], []))) fun s e _ _ => .ok ⟨s, e, true⟩

/-- The contribution of a member to GRED: the exact value of each element of da (R333). -/
def gredMake (e : QEntry) (s : State) : Res (State × Contents) :=
  let a := operandAt e 1 2
  match mapRes (fun s i => presentVal s a i) s (upFrom 0 (descN a.d)) with
  | .error x => .error x
  | .ok (s, vs) =>
    match entryFlags s e (vs.foldl (fun f v => f ||| v.2) 0) with
    | .error x => .error x
    | .ok s => .ok (s, (intClass a.d, [], vs.map fun v => packReal v.1))

/-- The value of an element of GRED: the tree over rank (R48, R49, R333). -/
def gredValue (op : ScanOp) (g : GroupSlot) (cs : List Contribution) (i : Nat) : FV :=
  let int := cs.all (·.integer)
  let xs := (upFrom 0 g.size).map fun q => (unpackReal (((cs.find? fun c => c.rank = q).map fun c => c.vals.getD i (false, 0, 1)).getD (false, 0, 1)), (0 : Flags))
  treeOr int (redComb (scanRed op)) (redIdent (scanRed op)) xs

/-- A unit of GRED (R333). -/
def unitGred (s : State) (e : QEntry) (op : ScanOp) (slot : Nat) (rm : Rm) : UnitRes :=
  let dd := operandAt e 0 1
  unitGroup s e slot (gredOp op) (gredMake e) fun s e g cs => unitWrite s e dd rm (descN dd.d) fun s i => .ok (s, gredValue op g cs i)

/-- The contribution of a member to GBCAST, of the root alone, and to GGATH: the raw bits of da (R333). -/
def bitsMake (e : QEntry) (s : State) : Res (State × Contents) :=
  let a := operandAt e 1 2
  (mapRes (fun s i => presentBits s a i) s (upFrom 0 (descN a.d))).map fun r => (r.1, (false, r.2, []))

/-- A unit of GBCAST (R333). -/
def unitGbcast (s : State) (e : QEntry) (slot : Nat) : UnitRes :=
  let dd := operandAt e 0 1
  unitGroup s e slot gbcastOp (bitsMake e) fun s e _ cs =>
    unitRaw s e dd (descN dd.d) fun s i => .ok (s, ((cs.find? fun c => c.rank = c.root).map fun c => c.bits.getD i 0).getD 0)


/-- A unit of GGATH (R333). -/
def unitGgath (s : State) (e : QEntry) (slot : Nat) : UnitRes :=
  let dd := operandAt e 0 1
  let n := descN (operandAt e 1 2).d
  unitGroup s e slot ggathOp (bitsMake e) fun s e _ cs =>
    unitRaw s e dd (descN dd.d) fun s i => .ok (s, ((cs.find? fun c => c.rank = i / n).map fun c => c.bits.getD (i % n) 0).getD 0)

end Sys2Proof.Machine
end

