-- ==== Sys2Proof/Machine/Link.lean ====
section
/-! DEFINITION. The link instructions: their issue, their parts, open frames, and the errors of flows (R129, R310, R311, R434 to R445). -/

namespace Sys2Proof.Machine

/-! ### Flows and counters -/

/-- FROWS of a flow (R434). -/
def flowRows (f : Flow) : Nat := bitField f.fsts.toNat 40 7
/-- FTIM of a flow (R434). -/
def flowFtim (f : Flow) : Nat := bitField f.fcfg.toNat 24 8
/-- A flow with its open frame closed. -/
def noFrame (f : Flow) : Flow := { f with fsts := BitVec.ofNat 64 (setField f.fsts.toNat 40 7 0), hdr := 0, since := 0 }

/-- A pending-byte counter lowered (R310). -/
def lowerPb (c : Core) (f : Flow) (n : Nat) : Core := if flowPbe f then setPb c (flowPbk f) (pbAt c (flowPbk f) - n) else c

/-! ### Messages (R433, R438, R441) -/

/-- Runs of elements at consecutive remote addresses: the address of the first, and how many. -/
def remoteRuns (o : Operand) (w : Nat) : Nat → Nat → List (Nat × Nat)
  | _, 0 => []
  | i, n + 1 =>
    let a := (elemSpot o i).1.toNat
    match remoteRuns o w (i + 1) n with
    | [] => [(a, 1)]
    | (b, k) :: r => if b = a + w then (a, k + 1) :: r else (a, 1) :: (b, k) :: r

/-- The bytes of each run, in order. -/
def splitRuns (w : Nat) : List (Nat × Nat) → List Byte → List (Nat × List Byte)
  | [], _ => []
  | (a, k) :: r, bs => (a, bs.take (k * w)) :: splitRuns w r (bs.drop (k * w))

/-- What a part of a row says: 1, its slot in [32:1], its place in the row in [64:33], the row's bytes above (log 28). -/
def rowArg (slot piece bytes : Nat) : Nat := 1 + slot % 2 ^ 32 * 2 + piece * 2 ^ 33 + bytes * 2 ^ 65

/-- The argument of one of `n` runs of a part: its place among them, their number less 1 from bit 16, the rank of the core from bit 32, and what the
part says from bit 64 (log 28). -/
def runArg (rank arg k n : Nat) : Nat := k + (n - 1) * 2 ^ 16 + rank * 2 ^ 32 + arg * 2 ^ 64

/-- One message for each run of a part. -/
def runMessages {α : Type} (rank : Nat) (rs : List α) (send : α → (Nat → Nat) → Message) : List Message :=
  ((upFrom 0 rs.length).zip rs).map fun r => send r.2 fun arg => runArg rank arg r.1 rs.length

/-- The messages of a part of a core of this package with its copy; the copy of a row's part starts with its slot. -/
def partMessages (me : Nat) (c : Core) (f : Flow) (flow : Nat) (e : QEntry) (p : Nat) (x : Part) : List Message :=
  let send (type va arg : Nat) (bs : List Byte) : Message := .part (flowPeer f) me c.ctx flow x.seq type va arg bs
  let one (type va arg : Nat) (bs : List Byte) : List Message := [send type va (runArg c.jobRank arg 0 1) bs]
  let o := remoteOperand e
  let w := linkElem e
  let el := partElems e p
  match e.instr with
  | .dfencef .. => one 0 (elemSpot o 0).1.toNat 0 x.copy
  | .dget .. => runMessages c.jobRank (remoteRuns o w el.1 el.2) fun r run => send 1 r.1 (run (r.2 * w)) []
  | .dfadd .. => one 3 (elemSpot o p).1.toNat w x.copy
  | .dfcas .. => one 3 (elemSpot o p).1.toNat (w + 256) x.copy
  | _ =>
    if sendsRows e then
      let d := (localOperand e).d
      one 0 (descBase o.d) (rowArg (leNat (x.copy.take 4)) (p % rowParts d) (rowBytes d)) (x.copy.drop 4)
    else runMessages c.jobRank (splitRuns w (remoteRuns o w el.1 el.2) x.copy) fun r run => send 0 r.1 (run 0) r.2

/-! ### Ports, routes and credits (R311, R433, R436) -/

/-- A core that owns parts: a core of the package, or from 1,536 a saved core, 1,536 × job + rank (R311). -/
def portCore (s : State) (n : Nat) : Option Core :=
  if n < coreCount then some (coreAt s n)
  else (jobAt s (n / coreCount - 1)).bind fun j => if j.state = .saved then j.image[n % coreCount]? else none

/-- The numbers of every core that may own parts. -/
def portCores (s : State) : List Nat :=
  (s.focus :: s.others.map (·.1)) ++
  s.jobs.flatMap fun p => match p.2 with
    | some j => (upFrom 0 j.image.length).map fun r => (p.1 + 1) * coreCount + r
    | none => []

/-- The bytes of the parts of a core's ORDERED flows to a package that hold credits: those on their way, and those refused, which keep theirs until they
land. -/
def orderedBytes (pkg : Nat) (c : Core) : Nat :=
  (c.qdata.map fun e => match linkFlow e.instr with
    | none => 0
    | some k =>
      let f := flowAt c k
      if flowOrd f && decide (flowState f = 1) && decide (flowPeer f = pkg) then
        ((partsOf e).map fun p => if partStands p.2 && !partHeld p.2 then partSize e p.1 else 0).sum
      else 0).sum

/-- Credits for the 64 KiB reorder buffer of a package's port allow some more bytes of an ORDERED flow to be sent (R436, log 117). -/
def credited (s : State) (f : Flow) (n : Nat) : Bool :=
  !flowOrd f || decide (((portCores s).map fun k => ((portCore s k).map (orderedBytes (flowPeer f))).getD 0).sum + n ≤ 65536)

/-- A part may be sent: there are credits for it, and its virtual device's request is eligible at its port (R391, R436). -/
def maySend (s : State) (vd : Nat) (f : Flow) (n : Nat) : Bool := credited s f n && funded s 5 (sendingPort s (flowPeer f)) vd

/-- A part that may not be sent: for want of balance, which is noted (R391), or of credits. -/
def partWaits (s : State) (vd : Nat) (f : Flow) (n : Nat) : State :=
  if credited s f n then shortPurse s 5 (sendingPort s (flowPeer f)) vd else s

/-- A part takes the flow's next sequence number and is sent; when it may not be, its port holds its copy and sends it later (R391, R436, R445). -/
def sendPart (s : State) (flow : Nat) (e : QEntry) (p : Nat) (copy : List Byte) : State × QEntry :=
  let f := flowAt s.core flow
  let vd := (curCtx s).vd
  let ok := inWindow e p && !heldBefore s.core flow f.seq && maySend s vd f (partSize e p)
  let x : Part := ⟨if ok then .sent 0 0 else .refused s.now 0, f.seq, copy, s.now, none⟩
  let ms := partMessages s.package s.core f flow e p x
  let s :=
    if ok then chargeSend s vd (flowPeer f) ms.length
    else if inWindow e p && !heldBefore s.core flow f.seq then partWaits s vd f (partSize e p) else s
  ({ s with core := setFlow s.core flow { f with seq := (f.seq + 1) % 2 ^ 24 }, outbox := s.outbox ++ if ok then ms else [] },
   { e with part := .parts (setPart (partsOf e) p x) })

/-! ### Open frames (R439) -/

/-- The framed parts of an entry sent, in order. -/
def sendFramed (flow : Nat) (s : State) (e : QEntry) : State × QEntry :=
  (upFrom 0 (partCount e)).foldl (fun a p =>
    let x := partAt (partsOf a.2) p
    if x.state = .framed then sendPart a.1 flow a.2 p x.copy else a) (s, e)

/-- The slots of the framed rows of a flow's entries, in order. -/
def framedSlots (flow : Nat) (q : List QEntry) : List Nat :=
  q.flatMap fun e =>
    if linkFlow e.instr = some flow then
      (upFrom 0 (partCount e)).filterMap fun p =>
        let x := partAt (partsOf e) p
        if x.state = .framed && p % rowParts (localOperand e).d = 0 then some (leNat (x.copy.take 4)) else none
    else []

/-- The frame that closes: its header and its index vector of 120 entries (R439). -/
def frameMessage (c : Core) (f : Flow) (flow : Nat) : Message :=
  .frame (flowPeer f) c.ctx c.jobRank flow f.hdr ((framedSlots flow c.qdata ++ List.replicate 120 0).take 120)

/-- The open frame of a flow of the executing core closes and is sent (R439). -/
def closeFrame (s : State) (flow : Nat) : State :=
  if flowRows (flowAt s.core flow) = 0 then s
  else
    let f := flowAt s.core flow
    let s := { chargeSend s (curCtx s).vd (flowPeer f) (flitsOf 1024) with outbox := s.outbox ++ [frameMessage s.core f flow] }
    let s := s.core.qdata.foldl (fun s e =>
      if linkFlow e.instr = some flow then let r := sendFramed flow s e; setEntry r.1 .data r.2 else s) s
    { s with core := setFlow s.core flow (noFrame (flowAt s.core flow)) }

/-- An entry of the data engine's queue as it stands. -/
def entryNow (s : State) (e : QEntry) : QEntry := (s.core.qdata.find? fun q => q.seq = e.seq).getD e

/-! ### Errors of flows (R310, R435, R437, R438) -/

/-- The unperformed parts of an entry, abandoned: their bytes leave the counter, and the entry faults at the lowest of them (R310, R435, R444). -/
def abandonParts (cause : Cause) (f : Flow) (c : Core) (e : QEntry) : Core × QEntry :=
  let left := partsLeft e
  if isAbandoned e then (c, e)
  else (lowerPb c f (left.foldl (fun n p => n + partSize e p) 0),
        { e with part := .abandoned cause, progress := (left.head?.map (partIndex e)).getD e.progress })

/-- The entries of a flow abandoned: the culprit faults with the cause of the error, the others with another (R435). -/
def abandonQueue (flow : Nat) (f : Flow) (culprit : Option Nat) (cause other : Cause) : Core → List QEntry → Core × List QEntry
  | c, [] => (c, [])
  | c, e :: es =>
    if linkFlow e.instr = some flow then
      let r := abandonParts (if culprit = some e.seq then cause else other) f c e
      let t := abandonQueue flow f culprit cause other r.1 es
      (t.1, r.2 :: t.2)
    else
      let t := abandonQueue flow f culprit cause other c es
      (t.1, e :: t.2)

/-- A DFENCEF that waits for earlier writes: an error of its flow is FLOW_ERROR to it (R442). -/
def flagWaits (e : QEntry) : Bool := match e.instr with | .dfencef .. => decide ((partAt (partsOf e) 0).state = .unsent) | _ => false

/-- The instruction that an error of a flow strikes: the one whose part has erred, or the first of the flow that has parts (R435). -/
def errorCulprit (flow : Nat) (seq : Option Nat) (q : List QEntry) : Option Nat :=
  seq.orElse fun _ => (q.find? fun e => decide (linkFlow e.instr = some flow) && !flagWaits e).map (·.seq)

/-- The peer of a flow in error told: the rows that will not come, and to discard the parts held behind a gap (R435, R438). -/
def tellError (s : State) (flow : Nat) : State :=
  let f := flowAt s.core flow
  (flowNotices s flow ++ [Message.flow (flowPeer f) s.core.ctx s.core.jobRank flow 4 0]).foldl (fun t m => sendControl t (flowPeer f) m) s

/-- The parts of a flow abandoned, and the flow in ERROR with the cause (R435). -/
def dropFlow (c : Core) (flow : Nat) (seq : Option Nat) (cause other : Cause) : Core :=
  let f := flowAt c flow
  let r := abandonQueue flow f (errorCulprit flow seq c.qdata) cause other c c.qdata
  failFlow (setFlow { r.1 with qdata := r.2 } flow (noFrame f)) flow (causeCode cause)

/-- Error of a flow of the executing core (R435): OPEN becomes ERROR with the cause, its parts are abandoned, and its peer is told. `seq` is the
instruction whose part has erred, and `other` the cause of the flow's other instructions. -/
def errorFlow (s : State) (flow : Nat) (seq : Option Nat) (cause other : Cause) : State :=
  if flowState (flowAt s.core flow) ≠ 1 then s
  else let t := tellError s flow; { t with core := dropFlow t.core flow seq cause other }

/-- Error of a flow of a saved core: the port tells the peer and records the flow's cause; the parts are abandoned at the resumption (R311). -/
def recordError (s : State) (flow : Nat) (cause : Cause) : State :=
  if flowState (flowAt s.core flow) ≠ 1 then s
  else let t := tellError s flow; { t with core := failFlow t.core flow (causeCode cause) }

/-- The causes of an error of a flow (R435, R437). -/
def flowCauses : List Cause := [.remoteRefusedLimit, .remoteTimeout, .linkDown, .linkDataCorrupt]

/-- The cause that a flow in ERROR shows. -/
def flowCause (f : Flow) : Cause := (flowCauses.find? fun x => decide (causeCode x = bitField f.fsts.toNat 8 8)).getD .flowError

/-! ### Issue (R129, R441 to R444) -/

/-- FLAGS.FABRIC of the job (R129). -/
def fabricOk (s : State) : Res Unit := require ((curJob s).any fun j => j.kern.fabric) .flowError

/-- The flow is OPEN towards the peer of a REMOTE descriptor (R441). -/
def flowOk (f : Flow) (d : Desc) : Res Unit := require (flowState f = 1 && d.amap = flowPeer f) .flowError

/-- An operand of a link instruction is unscaled and not packed (R441). -/
def wholeOp (d : Desc) (code : Nat) : Res Unit := if d.sfmt ≠ 0 || fmtPacked (descFmt d) then faultOp .formatUnsupported code else .ok ()

/-- The charge of an instruction on its flow's counter (R310, R444). -/
def chargePb (s : State) (f : Flow) (n : Nat) : Res State :=
  if !flowPbe f then .ok s
  else
    let v := pbAt s.core (flowPbk f) + n
    if v > 2 ^ 40 - 1 then fault .pbOverflow else .ok { s with core := setPb s.core (flowPbk f) v }

/-- The issue of an instruction that moves bytes on a flow: FABRIC, which R129 has judged before any flow or descriptor is examined, then its
descriptors by R150 and the checks of R441 and R442 (R444, log 111). -/
def issueLink (s : State) (i : Instr) (flow : Nat) (sy : Sync) (uses : List (Nat × Nat × Bool)) (hregs : List Nat) (count : List Desc → Nat)
    (bytes : List Desc → Nat → Nat) (descs : List Desc → Res Unit) (checks : Flow → List Desc → Res Unit) : Res State :=
  let f := flowAt s.core flow
  issueWith s i { engine := .data, sync := sy, uses := uses, hregs := hregs } count fun s ds _ n =>
    match inOrder [fabricOk s, descs ds, checks f ds] with
    | .error e => .error e
    | .ok () => chargePb s f (bytes ds n)

def remoteType : List Nat := [5]
def slotFmt (f : Fmt) : Bool := f = .i32 || f = .n32

/-- DPUT (R440, R441): its issue. -/
def execDput (flow dd da db : Nat) (sy : Sync) (s : State) : Outcome :=
  let rows := flowKind (flowAt s.core flow) ≠ 0
  run s <| issueLink s (.dput flow dd da db sy) flow sy ([(1, dd, true), (2, da, false)] ++ if rows then [(3, db, false)] else []) []
    (fun ds => let a := ds.getD 1 default; if rows then descRows a else descN a)
    (fun ds n => let a := ds.getD 1 default; n * if rows then rowBytes a else elemBytes (descFmt a))
    (fun ds => inOrder [needDesc (ds.getD 0 default) remoteType anyFmt 1, needDesc (ds.getD 1 default) plainTypes anyFmt 2,
      if rows then needDesc (ds.getD 2 default) plainTypes anyFmt 3 else .ok ()])
    fun f ds =>
      let d := ds.getD 0 default; let a := ds.getD 1 default; let b := ds.getD 2 default
      inOrder [flowOk f d, wholeOp d 1, wholeOp a 2,
        (if rows then inOrder [wholeOp b 3, needFmt (slotFmt (descFmt b)) 3] else require (db = 0) .reservedField),
        (if rows then require (descRows a = descN b && (flowKind f ≠ 1 || decide (rowBytes a ≤ 15360)) && d.base % 64 = 0) .vecCount
         else inOrder [require (descN d = descN a) .vecCount, needFmt (d.fmt = a.fmt) 1])]

/-- DGET (R440, R441): its issue. -/
def execDget (flow dd da : Nat) (sy : Sync) (s : State) : Outcome :=
  run s <| issueLink s (.dget flow dd da sy) flow sy [(1, dd, true), (2, da, false)] [] (fun ds => descN (ds.getD 0 default))
    (fun ds n => n * elemBytes (descFmt (ds.getD 0 default)))
    (fun ds => inOrder [needDesc (ds.getD 0 default) plainTypes anyFmt 1, needDesc (ds.getD 1 default) remoteType anyFmt 2])
    fun f ds =>
      let d := ds.getD 0 default; let a := ds.getD 1 default
      inOrder [flowOk f a, wholeOp d 1, wholeOp a 2, require (flowKind f = 0) .flowError, require (descN d = descN a) .vecCount,
        needFmt (d.fmt = a.fmt) 1]

/-- The formats of a remote atomic (R441). -/
def atomicFmt (f : Fmt) : Bool := f = .i32 || f = .n32 || f = .i64

/-- The issue of DFADD and DFCAS (R441). -/
def issueAtomic (s : State) (i : Instr) (flow dd da db : Nat) (sy : Sync) : Outcome :=
  run s <| issueLink s i flow sy [(1, dd, true), (2, da, false), (3, db, false)] [] (fun ds => descN (ds.getD 0 default))
    (fun ds n => n * elemBytes (descFmt (ds.getD 0 default)))
    (fun ds => inOrder [needDesc (ds.getD 0 default) plainTypes anyFmt 1, needDesc (ds.getD 1 default) remoteType anyFmt 2,
      needDesc (ds.getD 2 default) plainTypes anyFmt 3])
    fun f ds =>
      let d := ds.getD 0 default; let a := ds.getD 1 default; let b := ds.getD 2 default
      inOrder [flowOk f a, wholeOp d 1, wholeOp a 2, wholeOp b 3, needFmt (atomicFmt (descFmt d)) 1, needFmt (a.fmt = d.fmt) 2, needFmt (b.fmt = d.fmt) 3,
        require (descN d = descN a && descN d = descN b && decide (descN d ≤ 256)) .vecCount, noOverlap d 1 [(3, b, false)]]

/-- DFADD (R441): its issue. -/
def execDfadd (flow dd da db : Nat) (sy : Sync) (s : State) : Outcome := issueAtomic s (.dfadd flow dd da db sy) flow dd da db sy
/-- DFCAS (R441): its issue. -/
def execDfcas (flow dd da db : Nat) (sy : Sync) (s : State) : Outcome := issueAtomic s (.dfcas flow dd da db sy) flow dd da db sy

/-- DFENCEF (R442): its issue, which closes the open frame (R439). -/
def execDfencef (flow da hb : Nat) (sy : Sync) (s : State) : Outcome :=
  run s <| (issueLink s (.dfencef flow da hb sy) flow sy [(2, da, true)] [hb, (hb + 1) % 16] (fun _ => 1) (fun _ _ => 8)
    (fun ds => needDesc (ds.getD 0 default) remoteType anyFmt 2)
    fun f ds =>
      let a := ds.getD 0 default
      inOrder [flowOk f a, wholeOp a 2, needFmt (descFmt a = .i64) 2, require (descN a = 1) .vecCount,
        require (descBase a % 8 = 0) .descInvalid]).map fun s => closeFrame s flow

/-- FCFG that OPEN accepts (R434, R443). -/
def fcfgOk (s : State) (w : Word) : Bool :=
  let n := w.toNat
  let kind := bitField n 13 2
  bitField n 19 5 = 0 && bitField n 32 32 = 0 && kind ≠ 3 && (decide (kind = 1) == decide (bitField n 24 8 ≠ 0)) &&
  (pairedContext s s.core.ctx (bitField n 0 12)).isSome

/-- The issue of DFLOW: the stream holds it until it has completed (R443). -/
def issueFlow (s : State) (i : Instr) (ha : Nat) (sy : Sync) (checks : State → Word → Res Unit) (after : State → State) : Outcome :=
  issueHeld s <| (issueWith s i { engine := .data, sync := sy, uses := [], hregs := [ha] } (fun _ => 0) fun s _ hv _ =>
    (inOrder [fabricOk s, checks s (hv.headD 0)]).map fun _ => s).map after

/-- DFLOW.OPEN (R443): its issue. -/
def execDflowOpen (flow hd ha : Nat) (sy : Sync) (s : State) : Outcome :=
  issueFlow s (.dflowOpen flow hd ha sy) ha sy (fun s w => require (fcfgOk s w) .flowError) id
/-- DFLOW.CLOSE (R443): its issue, which closes the open frame (R439). -/
def execDflowClose (flow hd ha : Nat) (sy : Sync) (s : State) : Outcome :=
  issueFlow s (.dflowClose flow hd ha sy) ha sy (fun _ _ => .ok ()) fun s => closeFrame s flow
/-- DFLOW.RESET (R443): its issue. -/
def execDflowReset (flow hd ha : Nat) (sy : Sync) (s : State) : Outcome := issueFlow s (.dflowReset flow hd ha sy) ha sy (fun _ _ => .ok ()) id
/-- DFLOW.STAT (R443): its issue. -/
def execDflowStat (flow hd ha : Nat) (sy : Sync) (s : State) : Outcome := issueFlow s (.dflowStat flow hd ha sy) ha sy (fun _ _ => .ok ()) id

/-! ### Parts at the data engine (R439, R441, R444, R445) -/

/-- The bytes of some elements of an operand. -/
def elemsBytes (s : State) (o : Operand) (i n : Nat) : Res (State × List Byte) :=
  (mapRes (fun s i => presentBits s o i) s (upFrom i n)).map fun r => (r.1, r.2.flatMap (natLe (elemBytes (descFmt o.d))))

/-- The copy of a part, read from the local operands (R441). -/
def gatherPart (s : State) (e : QEntry) (p : Nat) : Res (State × List Byte) :=
  let el := partElems e p
  match e.instr with
  | .dget .. => .ok (s, [])
  | .dfencef .. => .ok (s, natLe 8 (e.hvals.headD 0).toNat)
  | .dfadd .. => elemsBytes s (operandAt e 2 3) el.1 el.2
  | .dfcas .. =>
    match elemsBytes s (operandAt e 2 3) el.1 el.2 with
    | .error x => .error x
    | .ok (s, b) => (elemsBytes s (operandAt e 0 1) el.1 el.2).map fun r => (r.1, b ++ r.2)
  | _ =>
    match elemsBytes s (localOperand e) el.1 el.2 with
    | .error x => .error x
    | .ok (s, b) =>
      if sendsRows e then (slotOfRow s e (p / rowParts (localOperand e).d)).map fun r => (r.1, natLe 4 r.2 ++ b) else .ok (s, b)

/-- The local result of a part that has come back, written (R441, R444); a write has none. -/
def settlePart (s : State) (e : QEntry) (p : Nat) (bs : List Byte) : Res State :=
  let o := localOperand e
  let w := linkElem e
  let el := partElems e p
  if !returnsBytes e then .ok s
  else putElems s o ((upFrom 0 el.2).map fun k => (el.1 + k, leNat ((bs.drop (k * w)).take w)))

/-- A local fault is reported once every lower part has been performed; until then the instruction stands (R444). -/
def whenLowest {α : Type} (lowest : Bool) (s : State) (e : QEntry) (r : Res α) (f : α → UnitRes) : UnitRes :=
  match r with
  | .ok x => f x
  | .error (.trap t) => if lowest then .error (.trap t) else .ok ⟨s, e, false⟩
  | .error x => .error x

/-- A part as it is kept once it has been performed: of a row's part, its slot. -/
def donePart (e : QEntry) (x : Part) : Part := { x with state := .performed, back := none, copy := if sendsRows e then x.copy.take 4 else [] }

/-- A part that needs no response any more: performed. -/
def performPart (s : State) (e : QEntry) (flow p : Nat) : State × QEntry :=
  let f := flowAt s.core flow
  ({ s with core := lowerPb s.core f (partSize e p) },
   { e with part := .parts (setPart (partsOf e) p (donePart e (partAt (partsOf e) p))) })

/-- The copies of the parts of one row. -/
def gatherRow (s : State) (e : QEntry) (p : Nat) : Nat → Res (State × List (Nat × List Byte))
  | 0 => .ok (s, [])
  | n + 1 =>
    match gatherPart s e p with
    | .error x => .error x
    | .ok (s, b) => (gatherRow s e (p + 1) n).map fun r => (r.1, (p, b) :: r.2)

/-- The row bytes that stand in the open frame of a flow. -/
def framedBytes (c : Core) (flow : Nat) : Nat :=
  (c.qdata.map fun e =>
    if linkFlow e.instr = some flow then ((partsOf e).map fun p => if p.2.state = .framed then partSize e p.1 else 0).sum else 0).sum

/-- A row packed into the open frame (R439): a frame of another batch, or one without room, closes first, and one that is full closes. -/
def packRow (s : State) (e : QEntry) (flow p : Nat) (lowest : Bool) : UnitRes :=
  let f := flowAt s.core flow
  let d := (localOperand e).d
  let hdr := descBase (remoteOperand e).d
  let n := flowRows f
  let bytes := framedBytes s.core flow + rowBytes d
  if n ≠ 0 ∧ (f.hdr ≠ hdr ∨ n ≥ 120 ∨ bytes > 15360) then
    let s := closeFrame (setEntry s .data e) flow
    .ok ⟨s, entryNow s e, false⟩
  else whenLowest lowest s e (gatherRow s e p (rowParts d)) fun r =>
    let t := r.2.foldl (fun t q => setPart t q.1 { Part.fresh with state := .framed, copy := q.2 }) (partsOf e)
    let f := { f with fsts := BitVec.ofNat 64 (setField f.fsts.toNat 40 7 (n + 1)), hdr := hdr, since := if n = 0 then s.now else f.since }
    let s := { r.1 with core := setFlow r.1.core flow f }
    let e := { e with part := .parts t }
    if n + 1 = 120 ∨ bytes = 15360 then
      let s := closeFrame (setEntry s .data e) flow
      .ok ⟨s, entryNow s e, false⟩
    else .ok ⟨s, e, false⟩

/-- The next part of an instruction. A write's copy goes to its port, which sends it when the window, the credits and the purse allow it, so that
nothing but its landing is waited for (R298, R445, log 100); a part that returns bytes is formed when it may be sent (R441). -/
def sendNext (s : State) (e : QEntry) (flow low : Nat) : UnitRes :=
  let f := flowAt s.core flow
  match (upFrom low (partCount e - low)).find? fun p => (partAt (partsOf e) p).state = .unsent with
  | none => .ok ⟨s, e, false⟩
  | some p =>
    if !reachable s (flowPeer f) then
      let s := errorFlow (setEntry s .data e) flow (some e.seq) .linkDown .flowError
      .ok ⟨s, entryNow s e, false⟩
    else if decide (2 ^ 20 ≤ (flowParts s.core flow).length) then .ok ⟨s, e, false⟩
    else if sendsRows e && flowKind f = 1 then packRow s e flow p (p = low)
    else if returnsBytes e && (!inWindow e p || heldBefore s.core flow f.seq) then .ok ⟨s, e, false⟩
    else if returnsBytes e && !maySend s (curCtx s).vd f (partSize e p) then .ok ⟨partWaits s (curCtx s).vd f (partSize e p), e, false⟩
    else whenLowest (p = low) s e (gatherPart s e p) fun r =>
      let a := sendPart r.1 flow e p r.2
      .ok ⟨a.1, a.2, false⟩

/-- A unit of DPUT, DGET, DFADD, DFCAS, or of the flag of DFENCEF (R441, R444). -/
def unitParts (s : State) (e : QEntry) (flow : Nat) : UnitRes :=
  match e.part with
  | .abandoned c => fault c
  | _ =>
    match (upFrom 0 (partCount e)).find? fun p => (partAt (partsOf e) p).state ≠ .performed with
    | none => .ok ⟨s, e, true⟩
    | some low =>
      let e := { e with progress := partIndex e low }
      match (upFrom low (partCount e - low)).find? fun p => (partAt (partsOf e) p).back.isSome with
      | some p =>
        whenLowest (p = low) s e (settlePart s e p ((partAt (partsOf e) p).back.getD [])) fun s =>
          let r := performPart s e flow p
          .ok ⟨r.1, r.2, false⟩
      | none => sendNext s e flow low

/-- An earlier write of a flow is not yet performed (R442). -/
def writesBefore (c : Core) (flow seq : Nat) : Bool :=
  c.qdata.any fun q => q.seq < seq && linkFlow q.instr = some flow && match q.instr with | .dget .. => false | _ => true

/-- A unit of DFENCEF (R442): the open frame closes, earlier writes of the flow are awaited, and the flag is sent. -/
def unitDfencef (s : State) (e : QEntry) (flow : Nat) : UnitRes :=
  match e.part with
  | .abandoned c => fault c
  | _ =>
    if (partAt (partsOf e) 0).state = .unsent && writesBefore s.core flow e.seq then
      if e.stall.isSome then .ok ⟨s, e, false⟩
      else .ok ⟨closeFrame s flow, { e with stall := some (s.now, 0) }, false⟩
    else unitParts s { e with stall := none } flow

/-! ### DFLOW at the head of the queue (R435, R443) -/

/-- FSTS written to hd, DFLOW complete (R443). -/
def flowDone (s : State) (e : QEntry) (flow hd : Nat) : UnitRes := .ok ⟨writeNat s hd (flowSts (flowAt s.core flow)), e, true⟩

/-- DFLOW once every earlier D instruction has completed (R443). -/
def onFlow (s : State) (e : QEntry) (effect : State → UnitRes) : UnitRes :=
  if (s.core.qdata.headD e).seq = e.seq then effect s else .ok ⟨s, e, false⟩

/-- The peer told of a flow: 0 opened, with its mode; 1 closed; 2 reset (R435). -/
def tellPeer (s : State) (f : Flow) (flow what arg : Nat) : State :=
  sendControl s (flowPeer f) (.flow (flowPeer f) s.core.ctx s.core.jobRank flow what arg)

/-- DFLOW.OPEN (R435, R443). -/
def unitDflowOpen (s : State) (e : QEntry) (flow hd : Nat) : UnitRes :=
  onFlow s e fun s =>
    if flowState (flowAt s.core flow) ≠ 0 then fault .flowError
    else
      let f : Flow := ⟨e.hvals.headD 0, 1, 0, 0, 0⟩
      flowDone (tellPeer { s with core := setFlow s.core flow f } f flow 0 (b2n (flowOrd f))) e flow hd

/-- DFLOW.CLOSE (R435, R443). -/
def unitDflowClose (s : State) (e : QEntry) (flow hd : Nat) : UnitRes :=
  onFlow s e fun s =>
    let f := flowAt s.core flow
    match flowState f with
    | 0 => flowDone s e flow hd
    | 1 => flowDone (tellPeer { s with core := setFlow s.core flow { f with fsts := 0 } } f flow 1 0) e flow hd
    | _ => fault .flowError

/-- DFLOW.RESET (R435, R443). -/
def unitDflowReset (s : State) (e : QEntry) (flow hd : Nat) : UnitRes :=
  onFlow s e fun s =>
    let f := flowAt s.core flow
    match flowState f with
    | 0 => flowDone s e flow hd
    | 1 => flowDone (tellPeer { s with core := setFlow s.core flow { f with fsts := 0, hdr := 0, since := 0 } } f flow 2 0) e flow hd
    | _ => flowDone (tellPeer { s with core := setFlow s.core flow { f with fsts := 0, seq := 0, hdr := 0, since := 0 } } f flow 2 0) e flow hd

/-- DFLOW.STAT (R443). -/
def unitDflowStat (s : State) (e : QEntry) (flow hd : Nat) : UnitRes := onFlow s e fun s => flowDone s e flow hd

end Sys2Proof.Machine
end

