-- ==== Sys2Proof/Machine/Tile.lean ====
section
/-! DEFINITION. The tile instructions (R263 to R287). -/

namespace Sys2Proof.Machine

/-- The executing core as the holder of tenures (R268). -/
def curHolder (s : State) : Holder := ⟨s.core.job.getD 0, s.core.jobRank⟩

/-- A handle operand: bits [31:0] of its register (R263). -/
def handleIn (w : Word) : Nat := bitField w.toNat 0 32

/-- A handle resolved in the executing context (R265). -/
def needHandle (s : State) (h : Nat) : Res (Nat × Tile) :=
  match checkHandle (curCtx s) h with
  | .ok r => .ok r
  | .error c => fault c

/-! ### TDEF (R275) -/

/-- The tile that a descriptor defines (R147, R275). -/
def tileOf (d : Desc) : Tile :=
  { base := d.base, elem := elemBytes (descFmt d), exts := d.exts, strides := d.strides, state := .none, readers := [], writer := none }

/-- TDEF (R275). -/
def execTdef (gd k : Nat) (s : State) : Outcome :=
  let d := descOf (tabGet 0 s.core.descs k)
  let b := tileBounds (tileOf d)
  run s <|
    match needDesc d [3] (fun _ => true) 0 with
    | .error e => .error e
    | .ok () =>
      if fmtPacked (descFmt d) then fault .formatUnsupported
      else if descCount d = 0 ∨ d.sfmt ≠ 0 ∨ d.amv then fault .descInvalid
      else if b.1 < 0 then faultVa .noMapping (truncBits b.1 64)
      else if b.2 > 2 ^ 55 then faultVa .noMapping (2 ^ 55)
      else match allocTile (curCtx s) (tileOf d) with
      | none => fault .tileTooMany
      | some (c, h) => .ok (writeNat (setCurCtx s c) gd h)

/-! ### TACQ (R276, R277) -/

/-- The checks of TACQ up to its pages (R276); the index and the tile. -/
def acquireChecks (s : State) (h : Nat) (write : Bool) : Res (State × Nat × Tile) :=
  match needHandle s h with
  | .error e => .error e
  | .ok (i, t) =>
    if holdsTile t (curHolder s) || decide (64 ≤ tenuresHeld (curCtx s) (curHolder s)) then fault .tileTooMany
    else
      let b := tileBounds t
      (acquirePages s (curAccessor s) write [] (pagesOf b.1.toNat b.2.toNat)).map fun s => (s, i, t)

/-- A request that cannot be granted enters the arrival order, and its stream waits (R272, R276). -/
def postTenure (s : State) (h : Nat) (write : Bool) : State :=
  let c := curCtx s
  let r : TenureReq := ⟨c.nextReq, s.focus, s.cur, curHolder s, h, write⟩
  waitOn (setCurCtx s { c with requests := c.requests ++ [r], nextReq := c.nextReq + 1 }) (.tenure c.nextReq)

/-- TACQ (R276). -/
def acquire (s : State) (ga : Nat) (write : Bool) : Outcome :=
  let h := handleIn (readReg s ga)
  match acquireChecks s h write with
  | .error e => .next (settle s (.error e))
  | .ok (s, i, t) =>
    let c := curCtx s
    if grantable c i t (curHolder s) write c.requests then finish (setCurCtx s (grantTenure c i t (curHolder s) write))
    else .next (postTenure s h write)

/-- TACQ in its TRY form (R276). -/
def tryAcquire (s : State) (gd ga : Nat) (write : Bool) : Outcome :=
  run s <|
    (acquireChecks s (handleIn (readReg s ga)) write).map fun r =>
      let s := r.1
      let c := curCtx s
      if grantable c r.2.1 r.2.2 (curHolder s) write c.requests then
        writeNat (setCurCtx s (grantTenure c r.2.1 r.2.2 (curHolder s) write)) gd 0
      else writeNat s gd 1

/-- TACQ.R (R276). -/
def execTacqR (ga : Nat) (s : State) : Outcome := acquire s ga false
/-- TACQ.W (R276). -/
def execTacqW (ga : Nat) (s : State) : Outcome := acquire s ga true
/-- TACQ.R.TRY (R276). -/
def execTacqRTry (gd ga : Nat) (s : State) : Outcome := tryAcquire s gd ga false
/-- TACQ.W.TRY (R276). -/
def execTacqWTry (gd ga : Nat) (s : State) : Outcome := tryAcquire s gd ga true

/-! ### TREL and TSEAL (R278) -/

/-- The effect of TREL (R273, R278). -/
def releaseTile (s : State) (h : Nat) : Res State :=
  match needHandle s h with
  | .error e => .error e
  | .ok (i, t) =>
    if holdsTile t (curHolder s) then
      let me := curHolder s
      .ok (setCurCtx s (setTile (curCtx s) i (some (dropTenure t fun x => decide (x = me)))))
    else fault .tileNotHeld

/-- The effect of TSEAL (R273, R278). -/
def sealHeld (s : State) (h : Nat) : Res State :=
  match needHandle s h with
  | .error e => .error e
  | .ok (i, t) =>
    if t.state = .write ∧ t.writer = some (curHolder s) then .ok (setCurCtx s (setTile (curCtx s) i (some (sealTile t)))) else fault .tileNotHeld

/-- The destination in virtual memory that an engine instruction writes (R278). -/
def memoryDest (e : QEntry) : Option Desc :=
  let d := descOf (e.descs.headD 0)
  match e.instr with
  | .dcopy .. | .dgather .. | .dscatter .. | .dscata .. | .dfill .. | .dget .. | .dfadd .. | .dfcas .. | .gred .. | .gbcast .. | .ggath .. =>
    if d.type = 3 then some d else none
  | _ => none

/-- An engine instruction writes a byte of a tile (R278). -/
def writesTile (e : QEntry) (t : Tile) : Bool :=
  match memoryDest e with
  | none => false
  | some d =>
    let o : Operand := ⟨d, 0, 1⟩
    let near (a : Int) (n : Nat) : Bool := decide (0 ≤ a) && tileMeets t a.toNat n
    let i := interval d
    let b := tileBounds t
    decide (i.1 < b.2) && decide (b.1 < i.2) &&
    (upFrom 0 (descN d)).any fun i =>
      near (elemSpot o i).1 (elemBytes (descFmt d)) ||
      (match descScale d with | some sf => near (scaleSpot o i) (scaleBytes sf) | none => false)

/-- Every engine instruction issued before a bound that writes the tile of a handle has completed (R278). -/
def sealReady (s : State) (h bound : Nat) : Bool :=
  match checkHandle (curCtx s) h with
  | .error _ => true
  | .ok (_, t) => (allQueued s.core).all fun e => e.seq ≥ bound || !writesTile e t

/-- TREL (R278): at once in the C stream, queued in the D stream. -/
def execTrel (ga : Nat) (s : State) : Outcome :=
  let h := readReg s ga
  if s.cur = .c then run s (releaseTile s (handleIn h)) else updateOrDefer s (.trel ga) h s

/-- TSEAL (R278). -/
def execTseal (ga : Nat) (s : State) : Outcome :=
  let h := readReg s ga
  if s.cur = .c then run s (sealHeld s (handleIn h)) else updateOrDefer s (.tseal ga) h s

/-- TSEAL.DET (R278): deterministic sealing. -/
def execTsealDet (ga : Nat) (s : State) : Outcome :=
  let h := readReg s ga
  if s.cur = .c then
    if sealReady s (handleIn h) s.core.issued then run s (sealHeld s (handleIn h)) else .next (waitOn s (.sealing (handleIn h) s.core.issued))
  else updateOrDefer s (.tsealDet ga) h s

/-! ### TSPLIT and TJOIN (R279, R280) -/

/-- DIM and P of a control word; `none` for one that is refused. -/
def splitControl (w : Word) : Option (Nat × Nat) :=
  let c := w.toNat
  let p := bitField c 4 4
  if bitField c 2 2 ≠ 0 ∨ bitField c 8 56 ≠ 0 ∨ p < 2 ∨ p > 8 then none else some (bitField c 0 2, p)

/-- Part `j` of a tile divided along a dimension into parts of `q` (R279). -/
def splitPart (t : Tile) (dim q : Nat) (h : Holder) (j : Nat) : Tile :=
  { t with base := ((t.base : Int) + (j * q : Nat) * t.strides.getD dim 0).toNat,
           exts := t.exts.set dim (min q (t.exts.getD dim 1 - j * q)), state := .write, readers := [], writer := some h }

/-- Tiles allocated one after another (R264). -/
def allocTiles (c : Context) : List Tile → Context × List Nat
  | [] => (c, [])
  | t :: ts =>
    match allocTile c t with
    | none => (c, [])
    | some (c, h) => let r := allocTiles c ts; (r.1, h :: r.2)

/-- The handles of the parts written into a quad (R279). -/
def writeQuad (s : State) (gd : Nat) (hs : List Nat) : State :=
  (upFrom 0 4).foldl (fun s k => writeNat s (gd + k) (hs.getD (2 * k) 0 + hs.getD (2 * k + 1) 0 * 2 ^ 32)) s

/-- TSPLIT (R279). -/
def execTsplit (gd ga gb : Nat) (s : State) : Outcome :=
  let me := curHolder s
  run s <|
    match needHandle s (handleIn (readReg s ga)) with
    | .error e => .error e
    | .ok (i, t) =>
      if t.state ≠ .write ∨ t.writer ≠ some me then fault .tileNotHeld
      else match splitControl (readReg s gb) with
      | none => fault .tileSplitBad
      | some (dim, p) =>
        let x := t.exts.getD dim 1
        let q := ceilDiv x p
        if (p - 1) * q ≥ x then fault .tileSplitBad
        else
          let c := freeTile (curCtx s) i
          if tenuresHeld (curCtx s) me - 1 + p > 64 ∨ freeEntries c p (upFrom 0 4096) < p then fault .tileTooMany
          else
            let r := allocTiles c ((upFrom 0 p).map (splitPart t dim q me))
            .ok (writeQuad (setCurCtx s r.1) gd r.2)

/-- The handle of part `j` in a quad (R280). -/
def quadHandle (s : State) (ga j : Nat) : Nat := bitField (readReg s (ga + j / 2)).toNat (32 * (j % 2)) 32

/-- The handles of a quad checked one after another (R265). -/
def needHandles (s : State) : List Nat → Res (List (Nat × Tile))
  | [] => .ok []
  | h :: hs => match needHandle s h with
    | .error e => .error e
    | .ok p => (needHandles s hs).map fun ps => p :: ps

/-- Two parts stand in one box along a dimension (R280). -/
def joinable (dim : Nat) (a b : Tile) : Bool :=
  a.elem = b.elem && a.strides = b.strides && a.exts.set dim 0 = b.exts.set dim 0

/-- Each part starts where the one before it ends (R280). -/
def adjoining (dim : Nat) : List Tile → Bool
  | a :: b :: r => decide ((b.base : Int) = a.base + a.exts.getD dim 1 * a.strides.getD dim 0) && adjoining dim (b :: r)
  | _ => true

/-- TJOIN (R280). -/
def execTjoin (gd ga gb : Nat) (s : State) : Outcome :=
  let me := curHolder s
  run s <|
    match splitControl (readReg s gb) with
    | none => fault .tileSplitBad
    | some (dim, p) =>
      match needHandles s ((upFrom 0 p).map (quadHandle s ga)) with
      | .error e => .error e
      | .ok ps =>
        let ts := ps.map (·.2)
        let total := ts.foldl (fun n t => n + t.exts.getD dim 1) 0
        let t0 := ts.headD default
        if ts.any fun t => t.state ≠ .write || t.writer ≠ some me then fault .tileNotHeld
        else if (ps.map (·.1)).eraseDups.length ≠ p || !ts.all (joinable dim t0) || !adjoining dim ts || total > 65535 then fault .tileSplitBad
        else
          let c := ps.foldl (fun c q => freeTile c q.1) (curCtx s)
          match allocTile c { t0 with exts := t0.exts.set dim total, state := .write, readers := [], writer := some me } with
          | none => fault .tileTooMany
          | some (c, h) => .ok (writeNat (setCurCtx s c) gd h)

/-! ### TFREE and TQRY (R281, R282) -/

/-- TFREE (R281). -/
def execTfree (ga : Nat) (s : State) : Outcome :=
  run s <|
    match needHandle s (handleIn (readReg s ga)) with
    | .error e => .error e
    | .ok (i, t) =>
      if t.state = .read ∨ (t.state = .write ∧ t.writer ≠ some (curHolder s)) then fault .tileNotHeld
      else if t.state = .sealed ∧ t.readers ≠ [] then fault .sealReuse
      else .ok (setCurCtx s (freeTile (curCtx s) i))

/-- The code of a tile's state in TQRY.STATE. -/
def tileStateCode : TileState → Nat
  | .none => 0 | .read => 1 | .write => 2 | .sealed => 3

/-- What TQRY writes of a tile (R282). -/
def tileQuery (c : Context) (me : Holder) (sel : TqrySel) (i : Nat) (t : Tile) : Nat :=
  2 ^ 63 + match sel with
  | .state => tileStateCode t.state + b2n (holdsTile t me) * 4 + bitField (tileCount t) 0 16 * 2 ^ 8 +
      min 255 (c.requests.filter fun r => handleIndex r.handle = i).length * 2 ^ 24
  | .base => t.base
  | .ext01 => t.exts.getD 0 1 + t.exts.getD 1 1 * 2 ^ 16 + t.elem * 2 ^ 32
  | .ext23 => t.exts.getD 2 1 + t.exts.getD 3 1 * 2 ^ 16
  | .held => tenuresHeld c me

/-- TQRY (R282). -/
def execTqry (sel : TqrySel) (gd ga : Nat) (s : State) : Outcome :=
  let c := curCtx s
  let me := curHolder s
  finish <| writeNat s gd <|
    if sel = .held then 2 ^ 63 + tenuresHeld c me
    else match checkHandle c (handleIn (readReg s ga)) with
    | .error _ => 0
    | .ok (i, t) => tileQuery c me sel i t

end Sys2Proof.Machine
end

