-- ==== Sys2Proof/Machine/Units.lean ====
section
/-! DEFINITION. What one unit of an engine instruction does, by instruction (R165). -/

namespace Sys2Proof.Machine

/-! ### Deferred updates (R161, R278, R313) -/

/-- Every engine instruction that its stream issued before a deferred update has completed (R313). -/
def updateReady (s : State) (e : QEntry) : Bool :=
  ((queueOf s.core (mainEngine e.stream)).headD e).seq = e.seq &&
  s.core.qgrp.all fun q => q.stream ≠ e.stream || e.seq < q.seq

/-- A deferred update: it takes effect once earlier instructions have completed, and stands until then. -/
def deferred (s : State) (e : QEntry) (effect : Word → Res State) : UnitRes :=
  if updateReady s e then (effect (e.hvals.headD 0)).map fun s => ⟨s, e, true⟩ else .ok ⟨s, e, false⟩

/-- The effect of TSEAL.DET waits for every earlier instruction that writes the tile (R278). -/
def deferredSeal (s : State) (e : QEntry) : UnitRes :=
  if sealReady s (handleIn (e.hvals.headD 0)) e.seq then deferred s e fun h => sealHeld s (handleIn h) else .ok ⟨s, e, false⟩

/-! ### One unit -/

/-- One unit of an entry of an engine's queue: an element, a block, a row or a part (R18, R165, R177). An instruction that no engine takes is
never queued. -/
def runUnit (s : State) (e : QEntry) : UnitRes :=
  match e.instr with
  | .semadd k _ _ => deferred s e fun v => .ok { s with core := semAdd s.core k v }
  | .semset k _ _ => deferred s e fun v => .ok { s with core := setSem s.core k (v.setWidth 32) }
  | .rcommit n _ _ => deferred s e fun v => (passSlots s.core n v.toNat true).map fun c => { s with core := c }
  | .rrelease n _ _ => deferred s e fun v => (passSlots s.core n v.toNat false).map fun c => { s with core := c }
  | .trel _ => deferred s e fun h => releaseTile s (handleIn h)
  | .tseal _ => deferred s e fun h => sealHeld s (handleIn h)
  | .tsealDet _ => deferredSeal s e
  | .dcopy mask _ _ rm _ => unitDcopy s e mask rm
  | .dgather mask oob _ _ _ rm _ => unitDgather s e mask oob rm
  | .dscatter mask oob _ _ _ rm _ => unitScatter s e mask oob false rm
  | .dscata mask oob _ _ _ rm _ => unitScatter s e mask oob true rm
  | .dfill .. => unitDfill s e
  | .dpref .. => unitDpref s e
  | .dpreq mask _ _ _ => unitDpreq s e mask
  | .dflush .. => unitFlush s e
  | .dinv .. => unitFlush s e
  | .dput f _ _ _ _ => unitParts s e f
  | .dget f _ _ _ => unitParts s e f
  | .dfadd f _ _ _ _ => unitParts s e f
  | .dfcas f _ _ _ _ => unitParts s e f
  | .dfencef f _ _ _ => unitDfencef s e f
  | .dflowOpen f hd _ _ => unitDflowOpen s e f hd
  | .dflowClose f hd _ _ => unitDflowClose s e f hd
  | .dflowReset f hd _ _ => unitDflowReset s e f hd
  | .dflowStat f hd _ _ => unitDflowStat s e f hd
  | .vadd _ _ _ rm _ => unitOf2 s e rm xAdd
  | .vsub _ _ _ rm _ => unitOf2 s e rm xSub
  | .vmul _ _ _ rm _ => unitOf2 s e rm fun _ => xMul
  | .vdiv _ _ _ rm _ => unitOf2 s e rm fun _ => xDiv
  | .vmin _ _ _ rm _ => unitOf2 s e rm fun _ a b => (xMin a b, 0)
  | .vmax _ _ _ rm _ => unitOf2 s e rm fun _ a b => (xMax a b, 0)
  | .vfma _ _ _ rm _ => unitFused s e rm false
  | .vfms _ _ _ rm _ => unitFused s e rm true
  | .vabs _ _ rm _ => unitOf1 s e rm fun a => (xAbs a, 0)
  | .vneg _ _ rm _ => unitOf1 s e rm fun a => (xOpp a, 0)
  | .vcvt _ _ rm _ => unitOf1 s e rm fun a => (a, 0)
  | .vand .. => unitBitwise s e fun a b => a &&& b
  | .vor .. => unitBitwise s e fun a b => a ||| b
  | .vxor .. => unitBitwise s e fun a b => a ^^^ b
  | .vnot .. => unitBitwise1 s e fun a => 2 ^ descWidth (operandAt e 0 1).d - 1 - a
  | .vmov .. => unitBitwise1 s e id
  | .vshl .. => unitShift s e shiftLeft
  | .vshr .. => unitShift s e shiftRight
  | .vsar .. => unitShift s e shiftArith
  | .vcmp cc _ _ _ _ => unitVcmp s e cc
  | .vsel _ _ _ rm _ => unitVsel s e rm
  | .vexp2 _ _ rm _ => unitOf1 s e rm fExp2
  | .vlog2 _ _ rm _ => unitOf1 s e rm fLog2
  | .vrcp _ _ rm _ => unitOf1 s e rm fRcp
  | .vrsq _ _ rm _ => unitOf1 s e rm fRsq
  | .vsqrt _ _ rm _ => unitOf1 s e rm fSqrt
  | .vtanh _ _ rm _ => unitOf1 s e rm fTanh
  | .vsig _ _ rm _ => unitOf1 s e rm fSig
  | .verf _ _ rm _ => unitOf1 s e rm fErf
  | .vsin _ _ rm _ => unitOf1 s e rm fSin
  | .vcos _ _ rm _ => unitOf1 s e rm fCos
  | .vclamp _ _ _ rm _ => unitVclamp s e rm
  | .vscale _ _ _ rm _ => unitVscale s e rm
  | .vbcast kind _ _ rm _ => unitVbcast s e kind rm
  | .viota row _ _ _ rm _ => unitViota s e row rm
  | .vperm oob _ _ _ rm _ => unitVperm s e oob rm
  | .vred op len _ _ rm _ => unitVred s e op len rm
  | .vscan op excl _ _ rm _ => unitVscan s e op excl rm
  | .vdot len _ _ _ rm _ => unitVdot s e len rm
  | .vdist metric neg _ _ _ rm _ => unitVdist s e metric neg rm
  | .vthrc ge len _ _ _ _ => unitVthrc s e ge len
  | .vcomp fill idx _ _ _ rm _ => unitVcomp s e fill idx rm
  | .vexpd fill _ _ _ rm _ => unitVexpd s e fill rm
  | .vhist acc one _ _ _ _ => unitVhist s e acc one
  | .vxform desc inv _ _ _ => unitVxform s e desc inv
  | .vmaxi len _ _ rm _ => unitVmaxi s e len rm
  | .vsort desc perm _ _ rm _ => unitVsort s e desc perm rm
  | .vranki small int _ _ => unitVranki s e small int
  | .vrankp .. => unitVrankp s e
  | .vranko keep _ rm _ => unitVranko s e keep rm
  | .xlease .. => unitXlease s e
  | .xfree discard _ => unitXfree s e discard
  | .xcellop .. => unitXcellop s e
  | .xzero fill main _ => unitXzero s e fill main
  | .xpass side _ _ _ => unitXpass s e side
  | .xside .. => unitXside s e
  | .xsideb .. => unitXsideb s e
  | .xdrain zero _ rm _ => unitXdrain s e zero rm
  | .xbias row add _ _ => unitXbias s e row add
  | .ares .. => unitAres s e
  | .arel .. => unitArel s e
  | .aqry sel hd _ _ => unitAqry s e sel hd
  | .apub hd _ _ _ => unitApub s e hd
  | .gsync slot _ => unitGsync s e slot
  | .gred op slot _ _ rm _ => unitGred s e op slot rm
  | .gbcast slot _ _ _ _ => unitGbcast s e slot
  | .ggath slot _ _ _ => unitGgath s e slot
  | _ => .ok ⟨s, e, true⟩

end Sys2Proof.Machine
end

