-- ==== Sys2Proof/Machine/Parts.lean ====
section
/-! DEFINITION. The aligned 16-byte parts in which an engine instruction reads and writes: where its work may stop (R183, R289, R295; log 90). -/

namespace Sys2Proof.Machine

/-- How the progress of an instruction runs over its operands. -/
inductive Pace where
  /-- It may stop anywhere: its progress counts accesses. -/
  | free
  /-- Elements of an operand, and with them those that pair with it (R179). -/
  | elems (lead : Nat)
  /-- Elements of a row that is read again for each row (R238). -/
  | again
  /-- Elements of rows that an index names: those of operand `lead` in order, and those of operand `named` (R172, R173). -/
  | named (lead named : Nat)
  /-- Rows of an operand, and with them the rows of operands that have as many. -/
  | rows
  /-- Elements of an operand of which only whole rows may stand done, since another operand's place depends on those before (R210, R211). -/
  | rowElems (lead : Nat)
  /-- Elements of dd, which receives what the members have sent (R330, R333). -/
  | dest
  /-- Entries of an adapter map, two to a part, and the handles they come from (R256, R257). -/
  | entries
  deriving DecidableEq, Repr

/-- The pace of an instruction. The parts of a link instruction are those of R441 (log 90). -/
def paceOf : Instr → Pace
  | .dgather .. => .named 0 1
  | .dscatter .. | .dscata .. => .named 1 0
  | .dcopy .. | .dfill .. | .vadd .. | .vsub .. | .vmul .. | .vdiv .. | .vmin .. | .vmax .. | .vfma .. | .vfms .. | .vabs .. | .vneg .. | .vcvt ..
  | .vand .. | .vor .. | .vxor .. | .vnot .. | .vmov .. | .vshl .. | .vshr .. | .vsar .. | .vcmp .. | .vsel .. | .vexp2 .. | .vlog2 .. | .vrcp ..
  | .vrsq .. | .vsqrt .. | .vtanh .. | .vsig .. | .verf .. | .vsin .. | .vcos .. | .vclamp .. | .vscale .. | .vbcast .. | .viota .. | .vperm ..
  | .vscan .. | .vxform .. | .vrankp .. | .vranko .. | .xdrain .. => .elems 0
  | .xbias row .. => if row then .again else .elems 0
  | .vred .. | .vdot .. | .vdist .. | .vthrc .. | .vhist .. | .vmaxi .. | .vsort .. => .rows
  | .vcomp .. => .rowElems 1
  | .vexpd .. => .rowElems 0
  | .gred .. | .gbcast .. | .ggath .. => .dest
  | .ares .. | .arel .. => .entries
  | _ => .free

/-- The residency mask of an instruction, with the place of its descriptor (R167). -/
def maskUsed : Instr → MaskKind × Nat
  | .dcopy m .. => (m, 2)
  | .dgather m .. | .dscatter m .. | .dscata m .. => (m, 3)
  | _ => (.none, 0)

/-- A sampled operand as its elements are placed. -/
def placedOperand (e : QEntry) (k : Nat) : Operand :=
  let d := descOf (e.descs.getD k 0)
  ⟨d, ((e.claims.find? fun c => c.ring = d.nreg).map (·.slot)).getD 0, 0⟩

/-- The 16-byte parts that an element of an operand, and its scale, lie in. -/
def elemParts (o : Operand) (i : Nat) : List Int :=
  (elemSpot o i).1 / 16 :: if (descScale o.d).isSome then [scaleSpot o i / 16] else []

/-- The row that the index of row `j` names, as it stands now; `none` when it cannot be read or names no row. -/
def namedRow (s : State) (o : Operand) (j rows : Nat) : Option Nat :=
  match elemVal s o j with
  | .ok (_, v, _) => let x := indexVal v; if x < 0 ∨ x ≥ rows then none else some x.toNat
  | .error _ => none

/-- How far an instruction's progress runs, and how many of it make a row. -/
def paceEnd (e : QEntry) : Nat × Nat :=
  let d (k : Nat) : Desc := descOf (e.descs.getD k 0)
  match paceOf e.instr with
  | .free => (0, 1)
  | .elems l => (descN (d l), descCount (d l))
  | .again => (128 * descN (d 0), descN (d 0))
  | .named l _ => (e.count * descCount (d l), descCount (d l))
  | .rows => (e.count, 1)
  | .rowElems l => (descN (d l), descCount (d l))
  | .dest => (descN (d 0), descCount (d 0))
  | .entries => (e.count, 1)

/-- The elements of operand `k` that the step at progress `i` reads or writes, and whether those of another row are accesses of their own (log 90). -/
def paceReach (s : State) (e : QEntry) (k i : Nat) : List Nat × Bool :=
  let o := placedOperand e k
  let n := descN o.d
  let lead (l : Nat) : Desc := descOf (e.descs.getD l 0)
  let m := maskUsed e.instr
  let rowed (rows r : Nat) : List Nat := if descRows o.d = rows || n = rows then upFrom (r * (n / rows)) (n / rows) else []
  if m.1 ≠ .none && k = m.2 then ([if m.1 = .elems then i else i / (paceEnd e).2], false)
  else match paceOf e.instr with
  | .free => ([], true)
  | .elems l =>
    if n = descN (lead l) then ([i], false) else if n = 1 then ([], true) else ((srcIndex o.d (lead l) i).toList, true)
  | .again => ([i % n], true)
  | .named l x =>
    let c := descCount (lead l)
    if k = l then ([i], false)
    else if k = x then (((namedRow s (placedOperand e 2) (i / c) (descRows o.d)).map fun r => r * c + i % c).toList, true)
    else if k = 2 then ([i / c], false) else ([], true)
  | .rows => (rowed (descRows (lead 1)) i, false)
  | .rowElems l => (rowed (descRows (lead l)) (i / descCount (lead l)), false)
  | .dest => (if k = 0 then [i] else [], false)
  | .entries => (if k = 1 then [i] else [], false)

/-- The places of an operand rise with the elements: it is no ring, it has no scales, and each stride is at least what lies within it. -/
def climbs (d : Desc) : Bool :=
  let c := descCount d
  let row : Int := if fmtPacked (descFmt d) then (ceilDiv (c * descWidth d) 8 : Nat) else c * descEstride d
  d.type ≠ 4 && (descScale d).isNone && decide (0 ≤ descEstride d) &&
  (((d.exts.drop 1).zip (d.strides.drop 1)).foldl (fun a p => if p.1 ≤ 1 then a else (a.1 && decide (a.2 ≤ p.2), (p.1 : Int) * p.2)) (true, row)).1

/-- No 16-byte part of operand `k` holds an element of the steps from `a` to `b` and one of the steps from `b` on, among the accesses that count
together. Where the places rise, only the last before `b` and the first from `b` on can share one. -/
def partsApart (s : State) (e : QEntry) (k a b : Nat) : Bool :=
  let r := paceEnd e
  let own := (paceReach s e k b).2
  let lo := if own then max a (b / r.2 * r.2) else a
  let hi := if own then (b / r.2 + 1) * r.2 else r.1
  let parts (i : Nat) : List Int := (paceReach s e k i).1.flatMap (elemParts (placedOperand e k))
  if climbs (placedOperand e k).d then
    decide (b ≤ lo) || decide (hi ≤ b) || match (parts (b - 1)).getLast?, (parts b).head? with
      | some x, some y => decide (x ≠ y)
      | _, _ => true
  else
    let before := (upFrom lo (b - lo)).flatMap parts
    (upFrom b (hi - b)).all fun i => (parts i).all fun x => !before.contains x

/-- An instruction that stood at progress `a` may stop at progress `b`: no part of an operand is left half done. -/
def cutHere (s : State) (e : QEntry) (a b : Nat) : Bool :=
  let whole := match paceOf e.instr with | .rowElems _ => decide (b % (paceEnd e).2 = 0) | .entries => decide (b % 2 = 0) | _ => true
  whole && (upFrom 0 e.descs.length).all fun k => partsApart s e k a b

/-- The last progress up to `b` at which an instruction that stood at `a` may stop. -/
def lastCut (s : State) (e : QEntry) (a b : Nat) : Nat := ((upFrom a (b + 1 - a)).reverse.find? (cutHere s e a)).getD a

end Sys2Proof.Machine
end

