-- ==== Sys2Proof/Machine/Boundary.lean ====
section
/-! DEFINITION. What happens at a stream's instruction boundary besides an instruction: handler entry and the timer (R360, R374); and the turns of
an engine (R165, R177, R283). -/

namespace Sys2Proof.Machine

/-- The context of a core's job runs: its engines advance (R355, R369, R448). -/
def enginesRun (s : State) (core : Nat) : Bool :=
  let c := coreAt s core; c.job.isSome && (ctxAt s c.ctx).state = .running && !dieTripped s (dieOf core)

/-- The streams of a core issue: its context runs, and no function-level reset has stopped them (R397). -/
def coreRuns (s : State) (core : Nat) : Bool := enginesRun s core && !inReset s (ctxAt s (coreAt s core).ctx).vd

/-- The C stream of a core stands at a boundary at which INH = 0, in RUN or WAIT (R360, R374). -/
def atBoundary (s : State) (core : Nat) : Bool :=
  let c := coreAt s core
  coreRuns s core && !tstatInh c && (c.c.state = .run || c.c.state = .wait) && c.c.fault.isNone

/-- The first engine stream with PEND set (R360). -/
def firstPend (c : Core) : Option StreamName := [StreamName.d, .v, .x].find? (tstatPend c)

/-- The words of the instruction that a stream holds in WAIT (R356). -/
def heldWords (t : Stream) : Word := (t.pending.map (·.words)).getD 0

/-- The C stream's own record at a handler entry, with CAUSE NONE (R360). -/
def entryRecord (c : Core) (words : Word) : TrapRecord :=
  { TrapRecord.none with valid := true, pc := c.c.pc, words := words, loops := c.c.loops, rets := c.c.rets }

/-- The C stream enters the handler behind its own record. A record that cannot be written kills the job with the cause of the engine stream that
asks (R359, R360). -/
def enterWith (s : State) (core : Nat) (p : StreamName) (r : TrapRecord) : State :=
  let cause := (streamOf (coreAt s core) p).record.cause
  match writeRecord s core .c r (some cause) with
  | .error u => (coreAt u core).job.elim u fun n => killJob u n cause
  | .ok u => enterHandler (updStream u core .c fun t => { t with record := r }) core (coreAt s core).c.pc

/-- Handler entry of the C stream for the PEND bits (R360). -/
def handlerEntry (s : State) (core : Nat) : State :=
  match firstPend (coreAt s core) with
  | none => s
  | some p =>
    if !atBoundary s core then s
    else
      let a := abandonWait s core .c
      enterWith a core p (entryRecord (coreAt a core) (heldWords (coreAt s core).c))

/-- The timer is due (R374). -/
def timerDue (s : State) (core : Nat) : Bool :=
  let c := coreAt s core
  c.tcmp ≠ 0 && c.tcmp.toNat ≤ c.cycle.toNat && atBoundary s core

/-- The timer acts (R374). -/
def timerAct (s : State) (core : Nat) : State :=
  if !timerDue s core then s
  else
    let c := coreAt s core
    let s := putCore s core { c with tcmp := 0 }
    let x := ctxAt s c.ctx
    if delegated x 0x55 && decide (x.tvec ≠ 0) then
      raiseTrap s ⟨core, .c, 0, true, c.c.pc, heldWords c.c, c.c.pc⟩ { cause := .timer }
    else s

/-! ### Engine turns -/

/-- The watchdog's exponent of a context: a wait that begins now may last 2 ^ WEXP cycles (R319). -/
def waitExp (s : State) (ctx : Nat) : Nat := bitField (ctxAt s ctx).waitctl.toNat 0 6

/-- An element that waits on a tenure (R176, R283): it stays, and past the watchdog's period, taken as the wait began, it faults TENURE_TIMEOUT
(R319). -/
def stallHead (s : State) (eng : EngineName) (e : QEntry) (w : Wait) : State :=
  let since := e.stall.getD (s.now, waitExp s s.core.ctx)
  match w with
  | .access va _ =>
    if since.1 + 2 ^ since.2 ≤ s.now then engineFault s eng e { cause := .tenureTimeout, va := va }
    else setEntry s eng { e with stall := some since }
  | _ => s

/-- The instruction that an engine works on next. -/
def workEntry (s : State) (eng : EngineName) : Option QEntry := (queueOf s.core eng).find? fun e => !outstanding e

/-- How some units of an engine end: its head has completed or faulted, or there is none to work on; the units asked for are done; or the head cannot
advance now, for the reason given. -/
inductive UnitsEnd where
  | over
  | spent
  | held (x : Option Stop)
  deriving DecidableEq, Repr

/-- An earlier update of its stream is still to take effect, so a group instruction does not complete yet: semaphores change in the program order of
a stream (R306, R313). The other engines take effect in the order of their queues. -/
def updateBefore (c : Core) (eng : EngineName) (e : QEntry) : Bool :=
  eng = .group && (queueOf c (mainEngine e.stream)).any fun q => q.stream = e.stream && decide (q.seq < e.seq) && (syncOf q.instr).isNone

/-- Some units of an engine of the focus core, while its instruction satisfies a condition. -/
def engineRun (eng : EngineName) (go : State → QEntry → Bool) : Nat → State → State × UnitsEnd
  | 0, s => (s, .spent)
  | n + 1, s =>
    match workEntry s eng with
    | none => (s, .over)
    | some e =>
      if e.stopped then (s, .over)
      else if !go s e then (s, .spent)
      else match runUnit { s with cur := e.stream } e with
      | .ok o =>
        if o.done && updateBefore s.core eng e then (s, .held none)
        else if o.done then (retireCur (resumeHeld (completeEntry o.s eng o.e) o.e), .over)
        else if o.e = e then (setEntry o.s eng o.e, .held none)
        else engineRun eng go n (setEntry o.s eng o.e)
      | .error (.trap t) => (engineFault s eng e t, .over)
      | .error x => (s, .held (some x))

/-- The head of an engine cannot advance now: an element's wait counts, and a request that is not eligible is noted (R283, R391). -/
def headHeld (s : State) (eng : EngineName) : Option Stop → State
  | some (.wait w) => (workEntry s eng).elim s fun e => stallHead s eng e w
  | some (.short kind inst vd die) => shortAccess s kind inst vd die
  | _ => s

/-- Enough units for any instruction. -/
def allUnits : Nat := 2 ^ 64

/-- Units after which an engine's instruction, which stood at `start` in `s`, cannot advance: the parts begun and not ended are not performed (R289). -/
def headBack (s : State) (eng : EngineName) (start : Nat) (t : State) (x : Option Stop) : State :=
  match workEntry t eng with
  | none => headHeld t eng x
  | some e =>
    let cut := lastCut t e start e.progress
    headHeld (if cut = e.progress then t else (engineRun eng (fun _ e => decide (e.progress < cut)) allUnits s).1) eng x

/-! ### The ports' records merged (R311) -/

/-- The local result of a part that landed while its job was SAVED written, and the part marked performed (R311). The flag says that its access cannot be
made yet; a fault is left for the instruction. -/
def mergePart (a : State × Bool) (seq flow p : Nat) : State × Bool :=
  let s := a.1
  (s.core.qdata.find? fun e => e.seq = seq).elim a fun e =>
    (partAt (partsOf e) p).back.elim a fun bs =>
      match settlePart { s with cur := e.stream } e p bs with
      | .ok t => let r := performPart t e flow p; (setEntry r.1 .data r.2, a.2)
      | .error (.short kind inst vd die) => (shortAccess s kind inst vd die, true)
      | .error (.trap _) => (s, a.2)
      | .error _ => (s, true)

/-- The parts of the data engine's queue of the focus core merged. -/
def mergeParts (s : State) : State × Bool :=
  s.core.qdata.foldl (fun a e => (linkFlow e.instr).elim a fun flow => (partsOf e).foldl (fun a p => mergePart a e.seq flow p.1) a) (s, false)

/-- The flows that the ports have put in ERROR: each instruction of such a flow faults with the flow's cause (R311). -/
def mergeErrors (errs : List Nat) (c : Core) : Core :=
  errs.foldl (fun c n => let k := n / 256; let x := (flowCauses.find? fun x => decide (causeCode x = n % 256)).getD .flowError
    if flowState (flowAt c k) = 1 then dropFlow c k none x x else c) c

/-- What the ports have recorded for the focus core merged into its instructions, before any of its engines continues (R311). -/
def mergeCore (s : State) : State :=
  match s.core.merge with
  | none => s
  | some errs =>
    match mergeParts s with
    | (t, true) => t
    | (t, false) => { t with core := { mergeErrors errs t.core with merge := none } }

/-- Some units of an engine, up to the completion of its head, and on to the end of the parts begun (R165, R289). No engine goes on before the ports'
records are merged (R311). -/
def engineUnits (s : State) (eng : EngineName) (n : Nat) : State :=
  if s.core.merge.isSome then s else
  match workEntry s eng with
  | none => s
  | some e =>
    match engineRun eng (fun _ _ => true) n s with
    | (t, .over) => t
    | (t, .held x) => headBack s eng e.progress t x
    | (t, .spent) =>
      match engineRun eng (fun u q => !cutHere u q e.progress q.progress) allUnits t with
      | (t, .held x) => headBack s eng e.progress t x
      | (t, _) => t

/-- An engine of a core that a checkpoint or a halt stops at a boundary of the unit of restart of the instruction that it works on, which may lie inside
a 16-byte part (R177, R200, R225, R289): how many units it still does is a free value (log 112). -/
def stopEngine (s : State) (core : Nat) (eng : EngineName) : State :=
  let s := focusOn s core
  if !enginesRun s core || s.core.merge.isSome || (workEntry s eng).isNone then s
  else match engineRun eng (fun _ _ => true) (Config.stopUnits s.tick core eng) s with
    | (t, .held x) => headHeld t eng x
    | (t, _) => t

/-- The turn of an engine of a core (R165). -/
def engineTurn (s : State) (core : Nat) (eng : EngineName) (n : Nat) : State :=
  let s := focusOn s core
  if enginesRun s core then engineUnits (mergeCore s) eng n else s

end Sys2Proof.Machine
end

