-- ==== Sys2Proof/Machine/Preempt.lean ====
section
/-! DEFINITION. Stopping a job: checkpoint into frames, resumption, halt, and the policy that chooses among DRAIN, CHECKPOINT and KILL
(R355, R362 to R366, R369, R393). -/

namespace Sys2Proof.Machine

def engineStreams : List StreamName := [.c, .d, .v, .x]

/-! ### Stopping a core (R363 steps 1 and 2, R369) -/


/-- The array instruction under way comes to its end (R244). -/
def endAtomic (s : State) (core : Nat) : State :=
  let s := focusOn s core
  match s.core.qmat with
  | e :: _ => if atomicArray e.instr && e.started && !e.stopped then engineUnits s .matrix 1 else s
  | [] => s

/-- A fault that waits for its stream's next boundary is taken there (R177, R361). -/
def takeFault (s : State) (core : Nat) (st : StreamName) : State :=
  let t := streamOf (coreAt s core) st
  if t.state = .run ∨ t.state = .wait then raiseEngineFault s core st else s

/-- Every stream of a core stops at a boundary: each engine comes to stand between elements or instructions, traps are taken, and pending waits are
abandoned (R363, R369). -/
def stopCore (s : State) (core : Nat) : State :=
  let s := endAtomic ([EngineName.data, .vector, .matrix, .group].foldl (fun s eng => stopEngine s core eng) s) core
  let s := engineStreams.foldl (fun s st => takeFault s core st) s
  engineStreams.foldl (fun s st => abandonWait s core st) s

/-- The lease right that a halt leaves: a core keeps its request (R229). -/
def keptRequest : LeaseRight → LeaseRight → LeaseRight
  | .waiting, .none => .waiting
  | .reclaim, .lapsed => .reclaim
  | _, now => now

/-- A core stopped by a halt: as for a checkpoint, but that its request for the array stands (R229, R369). -/
def haltCore (s : State) (core : Nat) : State :=
  let was := (coreAt s core).lease
  let s := stopCore s core
  let c := coreAt s core
  if c.job.isSome then putCore s core { c with lease := keptRequest was c.lease } else s

/-! ### The frame (R364, R365) -/

/-- The state code of a saved stream (R364). -/
def savedState (t : Stream) : Nat := match t.state with | .met => 1 | .trapped => 2 | _ => 0

/-- Bytes at an offset of a frame. -/
abbrev Piece := Nat × List Byte

/-- The bytes of an area whose layout the spec does not give (log 24). -/
def openBytes (tick off n : Nat) : Piece := (off, (upFrom off n).map (Config.frameByte tick))

/-- The image of a stream (R364). -/
def streamPieces (st : StreamName) (t : Stream) : List Piece :=
  let b := 0x800 + 0x400 * streamNum st
  [(b, wordsLe [t.pc] ++ natLe 8 (savedState t)),
   (b + 0x10, wordsLe ((upFrom 0 (if st = .c then 64 else 16)).map (regOf t))),
   (b + 0x210, lstackBytes t.loops), (b + 0x2D0, rstackBytes t.rets), (b + 0x310, natLe 8 (t.loops.length + t.rets.length * 16)),
   (b + 0x318, (upFrom 0 32).flatMap fun k => natLe 4 (drawAt t k).toNat)]

/-- The elements that one unit of an instruction's valid count stands for where the frame holds the count in elements: VLim of R179, as the example of
R200 gives it (log 112). -/
def countWidth (e : QEntry) : Nat :=
  match e.instr with
  | .vadd .. | .vsub .. | .vmul .. | .vdiv .. | .vmin .. | .vmax .. | .vfma .. | .vfms .. | .vabs .. | .vneg .. | .vcvt .. | .vand .. | .vor ..
  | .vxor .. | .vnot .. | .vmov .. | .vshl .. | .vshr .. | .vsar .. | .vcmp .. | .vsel .. | .vexp2 .. | .vlog2 .. | .vrcp .. | .vrsq .. | .vsqrt ..
  | .vtanh .. | .vsig .. | .verf .. | .vsin .. | .vcos .. | .vclamp .. | .vscale .. | .vbcast .. | .viota .. | .vperm .. =>
    let d := descOf (e.descs.getD 0 0)
    if descRows d > 1 then max 1 (descCount d) else 1
  | _ => 1

/-- The image of an engine queue (R364). -/
def queuePieces (tick base : Nat) (q : List QEntry) : List Piece :=
  ((upFrom 0 q.length).zip q).flatMap fun p =>
    let b := base + 256 * p.1
    let e := p.2
    [(b, wordsLe [e.words, e.pc] ++ natLe 8 e.progress ++ natLe 8 (e.count * countWidth e)),
     (b + 0x20, (e.descs.take 4).flatMap fun d => natLe 32 d.toNat), (b + 0xA0, wordsLe (e.hvals.take 2)),
     openBytes tick (b + 0xB0) 48, (b + 0xE0, [1])]

/-- The ranking control word (R217). -/
def rankWord (r : RankUnit) : Nat := b2n r.isOpen + b2n r.small * 2 + b2n r.int * 4 + r.k * 2 ^ 3 + r.m * 2 ^ 14

/-- The partial bins of a stopped VHIST.ONE (R225, R364). -/
def histPieces (c : Core) : List Piece :=
  match c.qvec with
  | e :: _ => match e.part with
    | .bins t => t.map fun p => (0xFE000 + 4 * p.1, natLe 4 p.2)
    | _ => []
  | [] => []

/-- The tag of a unit of 64 bytes (R365). -/
def unitTag (bs : List Byte) : Nat :=
  if bs.all (· = 0) then 0
  else if (upFrom 0 16).all fun k => (bs.drop (4 * k)).take 4 = bs.take 4 then 1 else 2

/-- The payload of a unit under its tag (R365). -/
def unitPayload (bs : List Byte) : List Byte := match unitTag bs with | 0 => [] | 1 => bs.take 4 | _ => bs

/-- The block record of a scratchpad block (R365). -/
def blockRecord (bs : List Byte) : List Byte :=
  let units := (upFrom 0 64).map fun u => (bs.drop (64 * u)).take 64
  let tags := natLe 16 (units.foldr (fun u n => unitTag u + 4 * n) 0)
  let r := tags ++ units.flatMap unitPayload
  r ++ List.replicate ((16 - r.length % 16) % 16) 0

/-- The directory entries and records of the dirty blocks, packed from an offset (R365). -/
def blockPieces (c : Core) : Nat → List Nat → List Piece
  | _, [] => []
  | off, b :: bs =>
    let r := blockRecord (tabRange 0 c.spad (b * 4096) 4096)
    (0x34000 + 8 * b, natLe 8 (1 + off * 2 ^ 8 + r.length * 2 ^ 32)) :: (off, r) :: blockPieces c (off + r.length) bs

/-- The score of a pair as 8 bytes: an F32 or I64 value; a NaN is the F32 one under INT = 0, and under INT = 1, where the spec gives it no encoding,
free bytes (R217; log 88). -/
def scoreBytes (tick off : Nat) (int : Bool) : Option Nat → List Byte
  | some n => natLe 8 n
  | none => if int then (openBytes tick off 8).2 else natLe 8 0x7FC00000

/-- The pieces of a core's frame (R364). -/
def framePieces (tick reason : Nat) (c : Core) : List Piece :=
  let w (v : Word) := natLe 8 v.toNat
  engineStreams.flatMap (fun st =>
    (if (streamOf c st).record = TrapRecord.none then [] else [(512 * streamNum st, recordBytes st (streamOf c st).record)]) ++
      streamPieces st (streamOf c st)) ++
  [(0x1800, natLe 8 (reason + 2 ^ 8 + c.jobRank * 2 ^ 16)),
   (0x1840, (upFrom 0 32).flatMap fun k => natLe 32 (tabGet 0 c.descs k).toNat),
   (0x1C40, (upFrom 0 32).flatMap fun k => natLe 4 (tabGet 0 c.sems k).toNat),
   (0x1CC0, (upFrom 0 8).flatMap fun k => natLe 8 (tabGet 0 c.pbs k).toNat),
   (0x1D00, (upFrom 0 8).flatMap fun k => natLe 16 (tabGet 0 c.rings k).toNat),
   (0x1D80, w c.vctlLo ++ w c.vctlSeed ++ w c.vstat ++ w c.cycle ++ w c.tcmp ++ w c.tepc ++ w c.tstat ++ w c.tscr0 ++ w c.tscr1),
   openBytes tick 0x1E00 0x700] ++
  (upFrom 0 16).flatMap (fun k =>
    let f := flowAt c k
    [(0x2500 + 32 * k, wordsLe [f.fcfg] ++ natLe 8 (flowSts f)), openBytes tick (0x2510 + 32 * k) 16]) ++
  queuePieces tick 0x2800 c.qdata ++ queuePieces tick 0x3800 c.qvec ++ queuePieces tick 0x4800 c.qmat ++ queuePieces tick 0x5800 c.qgrp ++
  [(0x6800, natLe 8 (rankWord c.rank)),
   (0x6840, ((upFrom 0 c.rank.pairs.length).zip c.rank.pairs).flatMap fun p =>
     scoreBytes tick (0x6840 + 16 * p.1) c.rank.int p.2.1 ++ natLe 8 p.2.2)] ++
  accBytes c.arr ++
  blockPieces c 0x34400 c.dirty ++ histPieces c

/-- A frame's bytes: every byte not described is zero (R364). -/
def frameImage (tick reason : Nat) (c : Core) : Memory := imageOf (framePieces tick reason c)

/-- The frames of a job written, by rank. -/
def writeFrames (s : State) (k n reason : Nat) : List Core → Written
  | [] => .ok s
  | c :: cs => (pasteRegion s k (some (n, reason)) (frameImage s.tick reason c) 17 (frameVa (ctxAt s k) c.jobRank) 0 (2 ^ 20)).bind fun s =>
      writeFrames s k n reason cs

/-! ### Lent vaults (R353, R363) -/

/-- The vaults that a job holds on lent margin, in ascending number; a fenced one serves no one (R396). -/
def lentVaults (s : State) (cores : List Nat) : List Nat :=
  let us := (cores.map clusterOf).eraseDups.filter (isLent s)
  ((us.foldl (fun l u => setAdd u l) []).flatMap fun u => [2 * u, 2 * u + 1]).filter fun v => !s.fenced.contains (1024 + v)

/-- The first byte of the vault save area (R353). -/
def vaultSaveVa (c : Context) : Nat := frameVa c (bitField c.saven.toNat 0 11)

/-- The lent vaults copied to the save area. -/
def saveVaults (s : State) (k n reason va : Nat) : List Nat → Written
  | [] => .ok s
  | v :: vs => (pasteRegion s k (some (n, reason)) s.vaults 65 va (v * 4194304) 4194304).bind fun s => saveVaults s k n reason (va + 4194304) vs

/-- One vault restored from the save area, page by page. -/
def restoreVault (s : State) (k va dst : Nat) : Nat → Res State
  | 0 => .ok s
  | n + 1 => (framePa s k va 65536 false).bind fun pa =>
      restoreVault { s with vaults := tabPaste s.vaults dst 65536 (tabSlice s.mem pa 65536 dst) } k (va + 65536) (dst + 65536) n

/-- The lent vaults of a resumed job restored in order. -/
def restoreVaults (s : State) (k va : Nat) : List Nat → Res State
  | [] => .ok s
  | v :: vs => (restoreVault s k va (v * 4194304) 64).bind fun s => restoreVaults s k (va + 4194304) vs

/-! ### Checkpoint (R363) -/

/-- A part as it is saved: a read that has been sent is abandoned (R311). -/
def savedPart (i : Instr) (p : Part) : Part :=
  match p.state, i with
  | .sent .., .dget .. => Part.fresh
  | .refused .., .dget .. => Part.fresh
  | _, _ => p

/-- An entry as it is saved (R177, R225, R311). -/
def savedEntry (e : QEntry) : QEntry :=
  { e with stall := none, started := e.started && !arrayOp e.instr,
           part := match e.part with
             | .parts t => .parts ((t.map fun p => (p.1, savedPart e.instr p.2)).filter fun p => p.2 ≠ Part.fresh)
             | x => x }

/-- A core as it is saved: the lease right LAPSED or NONE, no wait and no watchdog running (R227, R363). -/
def savedCore (c : Core) : Core :=
  let still (q : List QEntry) := q.map savedEntry
  { c with lease := (match c.lease with | .held | .lapsed | .reclaim => .lapsed | _ => .none),
           qdata := still c.qdata, qvec := still c.qvec, qmat := still c.qmat, qgrp := still c.qgrp, stuckSince := none }

/-- The cores of a job given back, their scratchpads, accumulators and ranking units scrubbed (R135 step 7, R363, R394). -/
def freeCores (s : State) (cores : List Nat) : State :=
  let s := cores.foldl (fun s c => scrubbed (putCore (releaseArray s c) c Core.reset) (clusterOf c)) s
  cores.foldl returnMargin s

/-- A stopped job saved; a save region that cannot be written kills it with the reason (log 25). -/
def saveJob (s : State) (n : Nat) (j : Job) (reason : Nat) : State :=
  let image := j.cores.map fun c => savedCore (coreAt s c)
  let k := j.ctx
  match (writeFrames s k n reason image).bind fun s => saveVaults s k n reason (vaultSaveVa (ctxAt s k)) (lentVaults s j.cores) with
  | .error s => killJob s n reason
  | .ok s =>
    let lent := (lentVaults s j.cores).length
    let s := freeCores s j.cores
    let s := setCtx s k { ctxAt s k with state := .saved }
    setJob s n { j with state := .saved, cores := [], image := image, drainAt := none, lent := lent, savedAt := some (s.now, j.cores) }

/-- A core stopped by a checkpoint: its open frames close, and their rows go to the port (R439). -/
def settleCore (s : State) (core : Nat) : State := (upFrom 0 16).foldl closeFrame (focusOn (stopCore s core) core)

/-- A job is RUNNING in a context that runs. -/
def jobRuns (s : State) (n : Nat) : Bool :=
  match jobAt s n with
  | some j => j.state = .running && (ctxAt s j.ctx).state = .running && !inReset s j.vd
  | none => false

/-- CHECKPOINT of a job (R363): a job that is all met retires (R136), and a trap that kills it comes first (R361). -/
def checkpointJob (s : State) (n reason : Nat) : State :=
  if !jobRuns s n then s
  else
    let s := retireIfMet s n
    match jobAt s n with
    | none => s
    | some j =>
      if j.state ≠ .running then s
      else
        let s := j.cores.foldl settleCore s
        if jobRuns s n then saveJob s n j reason else s

/-! ### Halt and unhalt (R80, R355, R369) -/

/-- A stalled element's wait and an open frame's, but not a DFENCEF's, which counts afresh (R442): while the context is halted, the cycles that each has lasted (R369, R439). -/
def stopStall (now : Nat) (c : Core) : Core :=
  let f (q : List QEntry) := q.map fun e => { e with stall := match e.instr with | .dfencef .. => none | _ => e.stall.map fun t => (now - t.1, t.2) }
  { c with qdata := f c.qdata, qvec := f c.qvec, qmat := f c.qmat, qgrp := f c.qgrp, stuckSince := none,
           flows := c.flows.map fun p => (p.1, if bitField p.2.fsts.toNat 40 7 = 0 then p.2 else { p.2 with since := now - p.2.since }) }

/-- A stream HALTED, or brought back. -/
def haltStream (t : Stream) : Stream := if t.state = .halted then t else { t with state := .halted, before := t.state }
def unhaltStream (t : Stream) : Stream := if t.state = .halted then { t with state := t.before } else t

/-- Every stream of a core changed. -/
def mapStreams (f : Stream → Stream) (c : Core) : Core := { c with c := f c.c, d := f c.d, v := f c.v, x := f c.x }

/-- The streams of a context's cores frozen; a holder of the array yields it to a core that waits (R244). -/
def freezeCores (s : State) (cores : List Nat) : State :=
  let s := cores.foldl (fun s c => putCore s c (mapStreams haltStream (stopStall s.now (coreAt s c)))) s
  cores.foldl endGrant s

/-- Halt of a RUNNING context: its streams and engines stop at their boundaries (R369). A job that ends there leaves the context IDLE. -/
def haltRunning (s : State) (k : Nat) : State :=
  match (ctxAt s k).job.bind (jobAt s) with
  | none => s
  | some j =>
    let s := j.cores.foldl haltCore s
    if (ctxAt s k).state ≠ .running then s
    else freezeCores (setCtx s k { ctxAt s k with state := .halted }) j.cores

/-- Unhalt of a HALTED context: its streams go on (R80). -/
def unhaltCores (s : State) (k : Nat) : State :=
  match (ctxAt s k).job.bind (jobAt s) with
  | none => s
  | some j =>
    let s := setCtx s k { ctxAt s k with state := .running }
    j.cores.foldl (fun s c => putCore s c (mapStreams unhaltStream (stopStall s.now (coreAt s c)))) s

/-! ### The checks of a frame (R366) -/

/-- Bytes of the save region. -/
def readFrame (s : State) (k va n : Nat) : Res (List Byte) := (readRegion s k (n / 65536 + 2) va 0 n).map fun m => tabRange 0 m 0 n

/-- The tags of a record. -/
def recordTags (bs : List Byte) : List Nat := let v := leNat (bs.take 16); (upFrom 0 64).map fun u => bitField v (2 * u) 2

/-- The payload of a unit as it was coded (R365). -/
def tagLength (t : Nat) : Nat := match t with | 0 => 0 | 1 => 4 | _ => 64

/-- A block record is well formed: no tag 3, and the length of its directory entry (R366). -/
def recordSound (s : State) (k va entry : Nat) : Res Unit :=
  if !bitAt entry 0 then .ok ()
  else (readFrame s k (va + bitField entry 8 24) 16).bind fun bs =>
    let tags := recordTags bs
    let n := tags.foldl (fun n t => n + tagLength t) 16
    require (tags.all (· ≠ 3) && bitField entry 32 32 = (n + 15) / 16 * 16) .reservedField

/-- A frame may be restored (R366). -/
def frameSound (s : State) (k rank : Nat) : Res Unit :=
  let va := frameVa (ctxAt s k) rank
  (readFrame s k (va + 0x1801) 1).bind fun form =>
    inTurn (require (form = [1]) .reservedField) <|
      (readFrame s k (va + 0x34000) 1024).bind fun dir =>
        inOrder ((upFrom 0 128).map fun b => recordSound s k va (leNat ((dir.drop (8 * b)).take 8)))

/-! ### A core from the bytes of its frame (R217, R356, R364 to R366) -/

/-- A number of `n` bytes at an offset of a frame. -/
def frameNat (img : Memory) (off n : Nat) : Nat := leNat (tabRange 0 img off n)
def frameWord (img : Memory) (off : Nat) : Word := BitVec.ofNat 64 (frameNat img off 8)
/-- A table of `n` values from a frame. -/
def frameTab {α : Type} [DecidableEq α] (d : α) (n : Nat) (f : Nat → α) : Tab α := (upFrom 0 n).foldl (fun t k => tabSet d t k (f k)) []

/-- The loop stack and the return stack at their places, by the depths (R356, R364). -/
def frameLoops (img : Memory) (off depth : Nat) : List LoopEntry :=
  (upFrom 0 (min 8 (depth % 16))).map fun k => ⟨frameWord img (off + 24 * k), frameWord img (off + 24 * k + 8), frameWord img (off + 24 * k + 16)⟩
def frameRets (img : Memory) (off depth : Nat) : List Word := (upFrom 0 (min 8 (depth / 16 % 16))).map fun k => frameWord img (off + 8 * k)

/-- A trap record (R356); what stands with the debugger is not in the frame. -/
def recordFrom (img : Memory) (b : Nat) (r : TrapRecord) : TrapRecord :=
  let info := frameNat img b 8
  let depth := frameNat img (b + 320) 8
  { cause := bitField info 0 8, engine := bitField info 10 3, async := bitAt info 13, level := bitAt info 14, valid := bitAt info 15,
    mett := bitAt info 16, pc := frameWord img (b + 8), words := frameWord img (b + 16), esw := frameWord img (b + 24),
    progress := frameNat img (b + 32) 8, va := frameWord img (b + 40), loops := frameLoops img (b + 64) depth,
    rets := frameRets img (b + 256) depth, debug := r.debug }

/-- A stream (R364). -/
def streamFrom (img : Memory) (st : StreamName) (t : Stream) : Stream :=
  let b := 0x800 + 0x400 * streamNum st
  let depth := frameNat img (b + 0x310) 8
  { t with pc := frameWord img b, state := (match frameNat img (b + 8) 8 with | 1 => .met | 2 => .trapped | _ => .run),
           regs := frameTab 0 (if st = .c then 64 else 16) fun k => frameWord img (b + 0x10 + 8 * k),
           loops := frameLoops img (b + 0x210) depth, rets := frameRets img (b + 0x2D0) depth,
           draws := frameTab 0 32 fun k => BitVec.ofNat 32 (frameNat img (b + 0x318 + 4 * k) 4),
           record := recordFrom img (512 * streamNum st) t.record }

/-- The words of an instruction from their 8 bytes. -/
def storedWords (w : Word) : List Nat :=
  let lo := w.toNat % 2 ^ 32
  let hi := w.toNat / 2 ^ 32
  if hi ≠ 0 || (infoOf lo).any (·.long) then [lo, hi] else [lo]

/-- An entry of a queue (R364): words that are no instruction leave the one that was saved. -/
def entryFrom (img : Memory) (b : Nat) (e : QEntry) : QEntry :=
  let words := frameWord img b
  let e : QEntry :=
  { e with instr := (match decodeWords e.stream false true (storedWords words) with | .ok i => i | .error _ => e.instr), words := words,
           pc := frameWord img (b + 8), progress := frameNat img (b + 0x10) 8, count := frameNat img (b + 0x18) 8,
           descs := ((upFrom 0 e.descs.length).zip e.descs).map fun d => if d.1 < 4 then BitVec.ofNat 256 (frameNat img (b + 0x20 + 32 * d.1) 32) else d.2,
           hvals := ((upFrom 0 e.hvals.length).zip e.hvals).map fun h => if h.1 < 2 then frameWord img (b + 0xA0 + 8 * h.1) else h.2 }
  { e with count := e.count / countWidth e }

/-- The entries of a queue that the frame marks valid. -/
def queueFrom (img : Memory) (base : Nat) (q : List QEntry) : List QEntry :=
  ((upFrom 0 q.length).zip q).filterMap fun p =>
    if bitAt (frameNat img (base + 256 * p.1 + 0xE0) 1) 0 then some (entryFrom img (base + 256 * p.1) p.2) else none

/-- The bins of a stopped VHIST.ONE at the head of the vector queue (R225). -/
def binsFrom (img : Memory) : List QEntry → List QEntry
  | [] => []
  | e :: es =>
    (match e.part with | .bins _ => { e with part := .bins (frameTab 0 2048 fun k => frameNat img (0xFE000 + 4 * k) 4) } | _ => e) :: es

/-- A score (R217): a NaN under INT = 1, which has no encoding, is that of the saved list. -/
def scoreFrom (int : Bool) (n : Nat) (was : Option (Option Nat × Nat)) : Option Nat :=
  if int then if was.any fun p => p.1.isNone then none else some n
  else if 0x7F800000 < n % 2 ^ 31 then none else some n

/-- The ranking unit (R217). -/
def rankFrom (img : Memory) (r : RankUnit) : RankUnit :=
  let w := frameNat img 0x6800 8
  let m := bitField w 14 11
  { isOpen := bitAt w 0, small := bitAt w 1, int := bitAt w 2, k := bitField w 3 11, m := m,
    pairs := (upFrom 0 m).map fun j => (scoreFrom (bitAt w 2) (frameNat img (0x6840 + 16 * j) 8) r.pairs[j]?, frameNat img (0x6848 + 16 * j) 8) }

/-- The units of a block record, from the place of their payloads on, into a scratchpad (R365). -/
def unitsFrom (img : Memory) : List Nat → Nat → Nat → Tab Byte → Tab Byte
  | [], _, _, m => m
  | t :: ts, src, dst, m =>
    let bs := tabRange 0 img src (tagLength t)
    unitsFrom img ts (src + tagLength t) (dst + 64) (tabSetRange 0 m dst (if t = 1 then (List.replicate 16 bs).flatten else bs))

/-- The scratchpad blocks that the directory marks. -/
def savedBlocks (img : Memory) : List Nat := (upFrom 0 128).filter fun b => bitAt (frameNat img (0x34000 + 8 * b) 8) 0

/-- The scratchpad: a block that was not saved reads as zero (R366). -/
def spadFrom (img : Memory) : Tab Byte :=
  (savedBlocks img).foldl (fun m b =>
    let off := bitField (frameNat img (0x34000 + 8 * b) 8) 8 24
    unitsFrom img (recordTags (tabRange 0 img off 16)) (off + 16) (b * 4096) m) []

/-- The accumulators, Acc when Alive and Side when SideLive; the others are +0 (R226). -/
def arrFrom (img : Memory) (a : ArrayState) : ArrayState :=
  let words (live : Bool) (off n : Nat) : Tab Nat := if live then wordsFrom off (tabSlice img off n off) else []
  { a with acc := words a.alive 0xC000 0x20000, side := words a.sideLive 0x2C000 0x8000 }

/-- A core restored from the bytes of its frame; the parts without a layout are those of the saved core (R364, R366; log 24). -/
def restoredCore (img : Memory) (c : Core) : Core :=
  let w (k : Nat) : Word := frameWord img (0x1D80 + 8 * k)
  { c with
    c := streamFrom img .c c.c, d := streamFrom img .d c.d, v := streamFrom img .v c.v, x := streamFrom img .x c.x,
    jobRank := frameNat img 0x1802 4,
    descs := frameTab 0 32 fun k => BitVec.ofNat 256 (frameNat img (0x1840 + 32 * k) 32),
    sems := frameTab 0 32 fun k => BitVec.ofNat 32 (frameNat img (0x1C40 + 4 * k) 4),
    pbs := frameTab 0 8 fun k => BitVec.ofNat 40 (frameNat img (0x1CC0 + 8 * k) 8),
    rings := frameTab 0 8 fun k => BitVec.ofNat 128 (frameNat img (0x1D00 + 16 * k) 16),
    vctlLo := w 0, vctlSeed := w 1, vstat := w 2, cycle := w 3, tcmp := w 4, tepc := w 5, tstat := w 6, tscr0 := w 7, tscr1 := w 8,
    flows := frameTab Flow.idle 16 fun k =>
      { flowAt c k with fcfg := frameWord img (0x2500 + 32 * k),
                        fsts := BitVec.ofNat 64 (setField (frameNat img (0x2508 + 32 * k) 8) 16 24 (bitField (flowAt c k).fsts.toNat 16 24)),
                        seq := bitField (frameNat img (0x2508 + 32 * k) 8) 16 24 },
    qdata := queueFrom img 0x2800 c.qdata, qvec := binsFrom img (queueFrom img 0x3800 c.qvec), qmat := queueFrom img 0x4800 c.qmat,
    qgrp := queueFrom img 0x5800 c.qgrp, rank := rankFrom img c.rank, arr := arrFrom img c.arr, spad := spadFrom img,
    dirty := savedBlocks img, leaseAt := 0, spadErr := [] }

/-- The frames of a job read, by rank, from a rank on. -/
def readFrames (s : State) (k : Nat) : Nat → List Core → Res (List Core)
  | _, [] => .ok []
  | q, c :: cs =>
    (readRegion s k 17 (frameVa (ctxAt s k) q) 0 (2 ^ 20)).bind fun img => (readFrames s k (q + 1) cs).map fun r => restoredCore img c :: r

/-! ### Resumption (R366) -/

/-- The flows of a core in its image that the ports have put in ERROR, each with its cause (R311). -/
def portErrors (kept c : Core) : List Nat :=
  (upFrom 0 16).filterMap fun k =>
    if flowState (flowAt kept k) = 2 ∧ flowState (flowAt c k) = 1 then some (k * 256 + causeCode (flowCause (flowAt kept k))) else none

/-- A core restored, for which the ports' records are still to be merged (R311). -/
def awaitMerge (kept c : Core) : Core := { c with merge := some (kept.merge.getD [] ++ portErrors kept c) }

/-- The ports' records merged into a core, as far as that can be done at once. -/
def mergeOn (s : State) (core : Nat) : State := focusOn (mergeCore (focusOn s core)) s.focus

/-- The debug agent's status (R369). -/
def agentStatus (s : State) : State := { s with outbox := s.outbox ++ [.answer 3 (causeCode .haltRequest)] }

/-- The cores of a SAVED job from its frames, which may be restored (R366). -/
def jobImage (s : State) (j : Job) : Res (List Core) :=
  match inOrder ((upFrom 0 j.image.length).map (frameSound s j.ctx)) with
  | .error e => .error e
  | .ok () => readFrames s j.ctx 0 j.image

/-- The cores put to work again, with the vaults that had been lent (R366). -/
def startImage (s : State) (n : Nat) (j : Job) (cores : List Nat) (image : List Core) : Res State :=
  let s := (cores.zip (j.image.zip image)).foldl (fun s p => putCore s p.1 (awaitMerge p.2.1 p.2.2)) s
  let s := setJob s n { j with state := .running, cores := cores, image := [], lent := 0, sliceAt := j.resident }
  restoreVaults s j.ctx (vaultSaveVa (ctxAt s j.ctx)) ((lentVaults s cores).take j.lent)

/-- A SAVED job restored on cores granted to its ranks (R366); the placement rules have been checked. `none` while a migration holds its save region
(R412); a frame that cannot be restored kills the job. -/
def restoreJob (s : State) (n : Nat) (j : Job) (cores : List Nat) : Option State :=
  let k := j.ctx
  let c := ctxAt s k
  match (jobImage s j).bind (startImage s n j cores) with
  | .error .busy => none
  | .error e => some (killJob (absorb s (.error e : Res Unit)) n (causeCode .reservedField))
  | .ok s =>
    let s := cores.foldl mergeOn (setCtx s k { c with state := .running, haltPending := false })
    some (if c.haltPending then agentStatus (haltRunning s k) else s)

/-! ### Policy (R362) -/

def permDrain (j : Job) : Bool := bitAt j.rcd.perm 0
def permCheckpoint (j : Job) : Bool := bitAt j.rcd.perm 1
def permKill (j : Job) : Bool := bitAt j.rcd.perm 2

/-- R: the remaining estimate (R362). -/
def remaining (j : Job) : Nat := j.rcd.est - j.resident / 1024

/-- The policy of a slice end, or of urgency: `skip` leaves out step 1 (R362). -/
def preemptJob (s : State) (n : Nat) (skip : Bool) : State :=
  match jobAt s n with
  | none => s
  | some j =>
    if !jobRuns s n then s
    else if !skip && permDrain j && decide (remaining j ≤ 128) then
      if j.drainAt.isSome then s else setJob s n { j with drainAt := some j.resident }
    else if permCheckpoint j then checkpointJob s n (causeCode .preemptCheckpoint)
    else if permKill j then killJob (retireIfMet s n) n (causeCode .preemptKill)
    else s

/-- A DRAIN that has not come to its end after 2^17 cycles (R362). -/
def drainDue (j : Job) : Bool := match j.drainAt with | some t => decide (t + 2 ^ 17 ≤ j.resident) | none => false

/-- What becomes of such a DRAIN (R362). -/
def endDrain (s : State) (n : Nat) : State :=
  match jobAt s n with
  | none => s
  | some j =>
    if !jobRuns s n || !drainDue j then s
    else
      let s := setJob s n { j with drainAt := none }
      if permCheckpoint j then checkpointJob s n (causeCode .preemptCheckpoint)
      else if permKill j then killJob (retireIfMet s n) n (causeCode .drainTimeout)
      else s

/-- Margin revocation reaches a borrowing job (R362, R395); in a function that is being reset, the reset's kill takes effect. -/
def revokeJob (s : State) (n : Nat) : State :=
  match jobAt s n with
  | none => s
  | some j =>
    if j.state ≠ .running || inReset s j.vd then s
    else if permCheckpoint j && decide ((ctxAt s j.ctx).state ≠ .halted) then checkpointJob s n (causeCode .marginRevoked)
    else killJob (retireIfMet s n) n (causeCode .marginRevoked)

/-- A migration pause reaches a job (R362): a DRAIN has no bound. -/
def pauseJob (s : State) (n : Nat) : State :=
  match jobAt s n with
  | none => s
  | some j => if j.state = .running && permCheckpoint j then checkpointJob s n (causeCode .migrationPause) else s

end Sys2Proof.Machine
end

