-- ==== Sys2Proof/Machine/Place.lean ====
section
/-! DEFINITION. Choosing among the waiting jobs and placing one on a gang of cores (R127, R128, R132, R342 to R344, R386, R387, R393). -/

namespace Sys2Proof.Machine

/-! ### Candidates (R342, R343) -/

/-- The jobs that the package knows, by number. -/
def jobList (s : State) : List (Nat × Job) := s.jobs.filterMap fun p => p.2.map fun j => (p.1, j)

/-- A record that has been read and not yet placed. -/
def unplaced (j : Job) : Bool := j.state = .reading || j.state = .queued

/-- A job is its queue's candidate: the oldest record read and not yet placed, its checks passed (R128, R343). -/
def isCandidate (s : State) (n : Nat) (j : Job) : Bool :=
  j.state = .queued && (queueAt s j.vd j.queue).resident && vdField s j.vd 31 1 = 1 && !(vdAt s j.vd).paused && !(vdAt s j.vd).stopped &&
  !inReset s j.vd && (jobList s).all fun p => !(decide (p.1 < n) && p.2.vd = j.vd && p.2.queue = j.queue && unplaced p.2)

/-- A context that may take a job: IDLE, of its virtual device, with a frame for every core (R342). -/
def contextTakes (s : State) (v p k : Nat) : Bool :=
  let c := ctxAt s k
  c.state = .idle && c.vd = v && decide (p ≤ bitField c.saven.toNat 0 11)

/-- The context that a job would run in (R342). -/
def contextFor (s : State) (j : Job) : Option Nat :=
  let q := queueAt s j.vd j.queue
  if queueBound q then if contextTakes s j.vd (jobSize j) (queueCtxField q) then some (queueCtxField q) else none
  else (s.ctxs.find? fun p => contextTakes s j.vd (jobSize j) p.1).map (·.1)

/-- The product of the launch extents of the levels of a kind (R128). -/
def kindExtent (j : Job) (k : LevelKind) : Nat :=
  ((upFrom 0 j.kern.levels.length).zip j.kern.levels).foldl (fun n p => if p.2.1 = k then n * j.rcd.exts.getD p.1 0 else n) 1

/-- The dispatcher that chooses a job: its home die's, or the package's, numbered 4 (R343). -/
def dispatcherOf (s : State) (j : Job) : Nat := if kindExtent j .dies > 1 then 4 else vdHome s j.vd

/-- The cores whose issue purses a dispatcher looks at (R343). -/
def dispatcherCores (die : Nat) : List Nat := if die < 4 then upFrom (die * 384) 384 else upFrom 0 coreCount

/-- The cores of a dispatcher on which a virtual device has an ISSUE purse: those of the dies that it may use (R343, R387). -/
def issueCores (s : State) (die v : Nat) : List Nat := (dispatcherCores die).filter fun c => vdUsesDie s v (dieOf c)
/-- Balance(v) of R343. -/
def balance (s : State) (die v : Nat) : Int := (issueCores s die v).foldl (fun b c => b + purseFunds (purseAt s 0 c v)) 0
/-- FillRate(v) of R343: over the same purses. -/
def fillRate (s : State) (die v : Nat) : Nat := (issueCores s die v).length * purseFill (pcfg s v 0)
/-- A virtual device that may be chosen at all: its ISSUE purses hold a balance, and they fill or borrow (R343). -/
def mayIssue (s : State) (die v : Nat) : Bool :=
  decide (0 < balance s die v) && (decide (purseFill (pcfg s v 0) ≠ 0) || purseBorrow (pcfg s v 0))

/-- EffPrio of R343. -/
def effPrio (s : State) (j : Job) : Nat :=
  let ageb := bitField (queueAt s j.vd j.queue).qctl.toNat 16 16
  if ageb = 0 then j.rcd.prio else min 7 (j.rcd.prio + (s.now - j.arrival) / (ageb * 1024))

/-- The candidates that a dispatcher chooses among: those whose context is available. -/
def offered (s : State) (die : Nat) : List (Nat × Job) :=
  (jobList s).filter fun p => isCandidate s p.1 p.2 && dispatcherOf s p.2 = die && (contextFor s p.2).isSome

/-- A virtual device goes before another by the ratio of R343. -/
def ratioAbove (s : State) (die a b : Nat) : Bool :=
  let fa := fillRate s die a; let fb := fillRate s die b
  if fa = 0 then false else if fb = 0 then true else decide (balance s die b * fa < balance s die a * fb)

/-- A candidate goes before another of its virtual device (R343). -/
def beforeJob (s : State) (a b : Job) : Bool :=
  let ea := effPrio s a; let eb := effPrio s b
  decide (eb < ea) || (ea = eb && (decide (a.arrival < b.arrival) || (a.arrival = b.arrival && decide (a.queue < b.queue))))

/-- The candidate of a virtual device that a dispatcher looks at first, if the virtual device may be chosen (R343). -/
def bestOf (s : State) (die v : Nat) : Option (Nat × Job) :=
  if mayIssue s die v then
    ((offered s die).filter fun p => p.2.vd = v).foldl (fun best p => match best with
      | none => some p
      | some b => if beforeJob s p.2 b.2 then some p else some b) none
  else none

/-- The candidates that a dispatcher chooses in turn: one of each virtual device, by the ratio of R343 and then the lowest number. A virtual
device whose job waits for its cores leaves the next ones to be chosen (R344). -/
def choices (s : State) (die : Nat) : List (Nat × Job) :=
  let vs := (offered s die).foldl (fun l p => setAdd p.2.vd l) []
  (sortBy (fun a b => ratioAbove s die a b || (!ratioAbove s die b a && decide (a ≤ b))) vs).filterMap (bestOf s die)

/-! ### Where a job may stand (R132, R386, R387, R393) -/

/-- A cluster belongs to the guaranteed, or the margin, clusters of a partition. -/
def inGcl (s : State) (p u : Nat) : Bool := p / 16 = u / 48 && bitAt (partField s p 0 48) (u % 48)
def inMcl (s : State) (p u : Nat) : Bool := p / 16 = u / 48 && bitAt (partField s p 48 48) (u % 48)
/-- LENDOK of a partition. -/
def lends (s : State) (p : Nat) : Bool := partField s p 224 1 = 1

/-- A core holds no job, or one that is to be taken from it. -/
def coreFree (s : State) (taken : List Nat) (c : Nat) : Bool :=
  match (coreAt s c).job with | none => true | some n => taken.contains n

/-- A margin cluster that its own partition may use: at home, or among those that are to be taken back. -/
def marginOwn (s : State) (back : List Nat) (u : Nat) : Bool :=
  match tabGet .home s.margins u with | .home => true | .lent .. => back.contains u | _ => false

/-- A change of a partition's record waits for its jobs, so its margin is not lent anew (R384, R393). -/
def changeWaits (s : State) (p : Nat) : Bool := (tabGet none s.partsNew p).isSome

/-- A cluster that may be lent to a partition (R393). -/
def marginLendable (s : State) (p u : Nat) : Bool :=
  (upFrom (u / 48 * 16) 16).any fun q => q ≠ p && inMcl s q u && lends s q && !changeWaits s q &&
    match tabGet .home s.margins u with
    | .home => (upFrom (u * 8) 8).all fun c => (coreAt s c).job.isNone
    | .lent b _ => b = p
    | _ => false

/-- How a virtual device may use a cluster: `some false` as its own, `some true` as lent; none when it may not. -/
def clusterUse (s : State) (back : List Nat) (v u : Nat) : Option Bool :=
  let d := u / 48
  let p := vdPartOn s v d
  if !vdUsesDie s v d || s.fenced.contains u || dieTripped s d then none
  else if inGcl s p u then some false
  else if inMcl s p u then if marginOwn s back u then some false else none
  else if marginLendable s p u then some true else none

/-- The clusters of some cores. -/
def clustersOf (cores : List Nat) : List Nat := (cores.map clusterOf).eraseDups

/-- The DIES coordinates of a rank (R132). -/
def diesKey (j : Job) (q : Nat) : List Nat :=
  ((upFrom 0 j.kern.levels.length).zip j.kern.levels).filterMap fun p => if p.2.1 = .dies then some (coordAt j q p.1) else none

/-- Ranks stand on one die exactly when their DIES coordinates agree (R132). -/
def diesAgree (j : Job) (rs : List (Nat × Nat)) : Bool :=
  rs.all fun a => rs.all fun b => decide (diesKey j a.1 = diesKey j b.1) == decide (dieOf a.2 = dieOf b.2)

/-- The ranks on one die, in rank order, fill clusters in lanes 0 to 7 (R132). -/
def laneRuns : List Nat → Bool
  | a :: b :: c :: d :: e :: f :: g :: h :: rest =>
    laneOf a = 0 && b = a + 1 && c = a + 2 && d = a + 3 && e = a + 4 && f = a + 5 && g = a + 6 && h = a + 7 && laneRuns rest
  | l => l.isEmpty

/-- The cores on a die that a virtual device's jobs hold, but for those to be taken (R386). -/
def vdHolds (s : State) (taken : List Nat) (v d : Nat) : Nat :=
  ((upFrom (d * 384) 384).filter fun c => !coreFree s taken c && (ctxAt s (coreAt s c).ctx).vd = v).length

/-- A core of a lent margin cluster that its own partition takes back (R393). -/
def takenBack (s : State) (back : List Nat) (v c : Nat) : Bool :=
  let u := clusterOf c
  let p := vdPartOn s v (u / 48)
  back.contains u && !inGcl s p u && inMcl s p u && isLent s u

/-- The cores may be granted to the ranks of a job in a context (R132, R363, R386, R387, R393). -/
def placeOk (s : State) (v k : Nat) (j : Job) (cores : List Nat) : Bool :=
  let rs := (upFrom 0 cores.length).zip cores
  let dies := (cores.map dieOf).eraseDups
  let lent := (clustersOf cores).filter fun u => clusterUse s [] v u = some true
  cores.length = jobSize j && (cores.eraseDups = cores) && cores.all (fun c => decide (c < coreCount) && coreFree s [] c) &&
  (clustersOf cores).all (fun u => (clusterUse s [] v u).isSome) && diesAgree j rs &&
  dies.all (fun d =>
    let here := cores.filter fun c => dieOf c = d
    decide (here.length + vdHolds s [] v d ≤ vdCoreLimit s v d) && (here.length % 8 ≠ 0 || laneRuns here)) &&
  decide (2 * lent.length ≤ bitField (ctxAt s k).saven.toNat 16 7)

/-- A job of one die starts on the home die (R387; log 79). -/
def onHome (s : State) (j : Job) (cores : List Nat) : Bool := decide (1 < kindExtent j .dies) || cores.all fun c => dieOf c = vdHome s j.vd

/-- The ranks that a cluster can take: whole clusters only where the ranks on a die are a multiple of 8 (R132). `taken` jobs give up their cores, and
`back` clusters are taken back. -/
def clusterRoom (s : State) (taken back : List Nat) (v : Nat) (whole : Bool) (u : Nat) : Nat :=
  let n := ((upFrom (u * 8) 8).filter fun c => coreFree s taken c || takenBack s back v c).length
  if whole then if n = 8 then 8 else 0 else n

/-- The least number of lent clusters with which a die can take so many ranks; none where it cannot (R132, R386, R387, R393). -/
def dieNeeds (s : State) (taken back : List Nat) (v r d : Nat) : Option Nat :=
  let us := upFrom (d * 48) 48
  let room := clusterRoom s taken back v (decide (r % 8 = 0))
  let own := ((us.filter fun u => clusterUse s back v u = some false).map room).sum
  let lent := sortBy (fun a b => decide (b ≤ a)) ((us.filter fun u => clusterUse s back v u = some true).map room)
  if r + vdHolds s taken v d ≤ vdCoreLimit s v d then (upFrom 0 (lent.length + 1)).find? fun n => decide (r ≤ own + (lent.take n).sum) else none

/-- The dies on which a new job may be placed: its home die, or those that its virtual device may use (R387). -/
def jobDies (s : State) (j : Job) : List Nat := if 1 < kindExtent j .dies then (upFrom 0 4).filter (vdUsesDie s j.vd) else [vdHome s j.vd]

/-- The candidate can be placed on some cores once `taken` jobs have given up theirs and `back` clusters have been taken back (R344). -/
def placeableWith (s : State) (taken back : List Nat) (j : Job) : Bool :=
  match contextFor s j with
  | none => false
  | some k =>
    let n := kindExtent j .dies
    let needs := sortBy (fun a b => decide (a ≤ b)) ((jobDies s j).filterMap (dieNeeds s taken back j.vd (jobSize j / max 1 n)))
    decide (n ≤ needs.length ∧ 2 * (needs.take n).sum ≤ bitField (ctxAt s k).saven.toNat 16 7)

/-- The candidate can be placed now on some cores, without pre-emption and without revocation (R344). -/
def placeable (s : State) (j : Job) : Bool := placeableWith s [] [] j

/-- The job that a dispatcher places next: the first of its choices that can be placed (R343, R344). -/
def chosenJob (s : State) (die : Nat) : Option (Nat × Job) := (choices s die).find? fun p => placeable s p.2

/-- The chosen jobs that wait for their cores (R344). -/
def waitingJobs (s : State) (die : Nat) : List (Nat × Job) := (choices s die).filter fun p => !placeable s p.2

/-- The chosen jobs of a virtual device that wait for their cores, at its home die's dispatcher and at the package's (R344). -/
def waitersOf (s : State) (v : Nat) : List (Nat × Job) := [vdHome s v, 4].flatMap fun die => (waitingJobs s die).filter fun p => p.2.vd = v

/-- Some of the cores are held for a job that waits on their die, so a SAVED job is not resumed on them (R344). -/
def heldBack (s : State) (v : Nat) (cores : List Nat) : Bool := (waitersOf s v).any fun p => cores.any fun c => (jobDies s p.2).contains (dieOf c)

/-- Some of the cores are held for another job of the virtual device, which is chosen and waits (R344; log 77). -/
def heldFrom (s : State) (n : Nat) (j : Job) (cores : List Nat) : Bool :=
  (waitersOf s j.vd).any fun p => p.1 ≠ n && cores.any fun c => (jobDies s p.2).contains (dieOf c)

/-- A cluster lent to a partition, with the margin ways of the partition that lends it (R393). -/
def lendCluster (s : State) (part u : Nat) : State :=
  (marginOwner s u).elim s fun owner => lendWays { s with margins := tabSet .home s.margins u (.lent part owner) } owner part

/-- The lent clusters of a placement pass to the borrowing partition (R393). -/
def lendUnits (s : State) (v : Nat) (cores : List Nat) : State :=
  (clustersOf cores).foldl (fun s u => if clusterUse s [] v u = some true then lendCluster s (vdPartOn s v (u / 48)) u else s) s

/-! ### Revocation (R393 to R395) -/

/-- The jobs on the cores of a cluster. -/
def jobsOn (s : State) (u : Nat) : List Nat := ((upFrom (u * 8) 8).filterMap fun c => (coreAt s c).job).eraseDups

/-- Revoke of a lent unit: its borrowing jobs are pre-empted, and the scrub follows (R394). -/
def revokeUnit (s : State) (u : Nat) : State :=
  match tabGet .home s.margins u with
  | .lent .. => (jobsOn s u).foldl revokeJob s
  | _ => s

/-! ### The start of a job (R127, R128) -/

/-- Descriptor registers from their images (R127). -/
def descsFrom : Nat → List Byte → Nat → Tab DescWord → Tab DescWord
  | 0, _, _, t => t
  | n + 1, bs, k, t => descsFrom n (bs.drop 32) (k + 1) (tabSet 0 t k (BitVec.ofNat 256 (leNat (bs.take 32))))

/-- A stream at the start of a job (R79, R127). -/
def startStream (j : Job) (st : StreamName) : Stream :=
  let t := setRegOf { Stream.reset with state := .run } 1 j.rcd.args
  if st = .c then setRegOf t 2 (BitVec.ofNat 64 j.rcd.kobj) else t

/-- A core at the start of a job (R127). -/
def startCore (n : Nat) (j : Job) (k rank : Nat) (descs data : List Byte) : Core :=
  let c : Core := { Core.reset with job := some n, ctx := k, jobRank := rank, descs := descsFrom (min j.kern.descN 32) descs 0 [],
                                    c := startStream j .c, d := startStream j .d, v := startStream j .v, x := startStream j .x }
  putSpad c j.kern.dataSpad data

/-- Every core of a gang starts (R132). -/
def startJob (s : State) (n : Nat) (j : Job) (k : Nat) (cores : List Nat) (descs data : List Byte) : State :=
  let s := lendUnits s j.vd cores
  let s := ((upFrom 0 cores.length).zip cores).foldl (fun s p => putCore s p.2 (startCore n j k p.1 descs data)) s
  let s := setCtx s k { ctxAt s k with state := .running, job := some n }
  setJob s n { j with state := .running, asked := [], ctx := k, cores := cores, resident := 0, sliceAt := 0, drainAt := none }

/-- The page of an address that an image lacks is requested (R128). -/
def requestPage (s : State) (k va : Nat) : State :=
  match walk s k va with
  | .ok l => postPageRequest s k va l none
  | r => absorb s r

/-- The descriptor images and the data image as the placement reads them, through the queue's context (R128, R342). -/
def readImages (s : State) (k : Nat) (j : Job) : Res (Except Nat (List Byte × List Byte)) :=
  match agentLoad s k (j.rcd.kobj + j.kern.descOff) 3 (32 * min j.kern.descN 32) with
  | .error e => .error e
  | .ok (.error va) => .ok (.error va)
  | .ok (.ok ds) =>
    match agentLoad s k (j.rcd.kobj + j.kern.dataOff) 10 j.kern.dataLen with
    | .error e => .error e
    | .ok (.error va) => .ok (.error va)
    | .ok (.ok bs) => .ok (.ok (ds, bs))

/-- A job placed on cores in a context: its images are reached through the queue's context (R342); an absent page of them is requested and the
placement waits (R128). Images that cannot be read otherwise, or a queue without a context by now, kill the job before it starts (log 110). -/
def placeJob (s : State) (n : Nat) (j : Job) (k : Nat) (cores : List Nat) : State :=
  match queueContext s j.vd j.queue with
  | none => killJob s n (causeCode .noMapping)
  | some q =>
    match readImages s q j with
    | .ok (.ok (ds, bs)) => startJob s n j k cores ds bs
    | .ok (.error va) => requestPage (setJob s n { j with asked := [(q, va / 65536)] }) q va
    | .error (.trap t) => killJob (absorb s (.error (.trap t) : Res Unit)) n (causeCode t.cause)
    | .error _ => s

/-- JOB_PLACE of the job that its dispatcher has chosen, on cores that it may have (R132, R343). -/
def placeChosen (s : State) (n : Nat) (cores : List Nat) : State :=
  match jobAt s n with
  | none => s
  | some j =>
    match contextFor s j with
    | none => s
    | some k =>
      if (chosenJob s (dispatcherOf s j)).any (fun p => p.1 = n) && placeOk s j.vd k j cores && onHome s j cores && !heldFrom s n j cores then
        placeJob s n j k cores
      else s

/-! ### Dispatch and urgency (R343, R344, R362) -/

/-- The jobs that may be pre-empted for a chosen one, in the order of R344: of its virtual device, of lower EffPrio, on dies where it may stand. -/
def victims (s : State) (j : Job) : List Nat :=
  let rank (a b : Nat × Job) : Bool :=
    let ea := effPrio s a.2; let eb := effPrio s b.2
    decide (ea < eb) || (ea = eb && (decide (b.2.arrival < a.2.arrival) || (a.2.arrival = b.2.arrival && decide (b.2.queue ≤ a.2.queue))))
  let ok := (jobList s).filter fun p => p.2.state = .running && p.2.vd = j.vd && decide (effPrio s p.2 < effPrio s j) &&
    p.2.cores.any fun c => (jobDies s j).contains (dieOf c)
  (sortBy rank ok).map (·.1)

/-- The clusters of its own margin, lent, that a chosen job may take back (R386, R393). -/
def ownLent (s : State) (j : Job) : List Nat :=
  (jobDies s j).flatMap fun d => (upFrom (d * 48) 48).filter fun u =>
    let p := vdPartOn s j.vd d
    !inGcl s p u && inMcl s p u && isLent s u

/-- The runs of a list from its start, the shortest first. -/
def runsOf (l : List Nat) : List (List Nat) := (upFrom 0 (l.length + 1)).map l.take

/-- The jobs that yield to a chosen one, and the lent clusters that are taken back for it: the first of the plans that suffices, of the lent
clusters alone, and then with the victims in their order; and all of them where equals or jobs of other virtual devices hold the rest (R344, R393;
log 77). -/
def yielding (s : State) (j : Job) : Option (List Nat × List Nat) :=
  let vs := victims s j
  let us := ownLent s j
  let plans := (runsOf us).map (fun b => ([], b)) ++ (runsOf vs).map fun t => (t, us)
  match plans.find? fun p => placeableWith s p.1 p.2 j with
  | some p => some p
  | none => if placeableWith s ((jobList s).map (·.1)) us j then some (vs, us) else none

/-- Urgency: the jobs that stand in the way of a chosen one yield their cores, and lent clusters are revoked (R344, R362, R393). -/
def urge (s : State) (j : Job) : State :=
  match yielding s j with
  | none => s
  | some p => p.2.foldl revokeUnit (p.1.foldl (fun s m => preemptJob s m (effPrio s j = 7)) s)

/-- DISPATCH (R343, R344): the chosen job is to be placed next on the cores proposed, or the jobs that stand in the way of one that waits yield
them. -/
def dispatchOn (s : State) (die : Nat) (cores : List Nat) : State :=
  match (choices s die).find? fun p => placeable s p.2 || (yielding s p.2).isSome with
  | none => s
  | some (n, j) =>
    if placeable s j then
      if (contextFor s j).any (fun k => placeOk s j.vd k j cores) && onHome s j cores && !heldFrom s n j cores then
        { s with pin := some (.event (.jobPlace n cores)) }
      else s
    else urge s j

/-- The SAVED jobs of a virtual device may be resumed: it is enabled, neither paused nor being reset (R343, R348, R362). -/
def mayResume (s : State) (v : Nat) : Bool := !(vdAt s v).paused && !inReset s v && vdField s v 31 1 = 1

/-- A SAVED job resumed on cores that it may have, with as many lent vaults as were saved (R132, R344, R363, R366). -/
def resumeOn (s : State) (n : Nat) (cores : List Nat) : State :=
  match jobAt s n with
  | none => s
  | some j =>
    let t := lendUnits s j.vd cores
    if j.state = .saved && mayResume s j.vd && !heldBack s j.vd cores && placeOk s j.vd j.ctx j cores &&
        decide (j.lent ≤ (lentVaults t cores).length) then
      (restoreJob t n j cores).elim s fun u => cores.foldl returnMargin u
    else s

/-- A lent cluster that has been fenced has left the lending partition's record, which revokes it (R393, R396). -/
def revokeFenced (s : State) : State := s.fenced.foldl (fun s u => if unitKind u = 0 then revokeUnit s u else s) s

/-! ### YIELD (R381) -/

/-- A candidate of a job's virtual device cannot be placed, and waits for units that the job holds on its dies. -/
def candidateWaits (s : State) (j : Job) : Bool :=
  (jobList s).any fun p => isCandidate s p.1 p.2 && p.2.vd = j.vd && (contextFor s p.2).isSome && !placeable s p.2 &&
    j.cores.any fun c => (jobDies s p.2).contains (dieOf c)

end Sys2Proof.Machine
end

