-- ==== Sys2Proof/Machine/System.lean ====
section
/-! DEFINITION. The instructions of class P: TRAP, RTE, the CSRs, ICIV, BRK and YIELD (R372 to R381). -/

namespace Sys2Proof.Machine

/-! ### CSRs (R43, R44, R319, R372, R373) -/

/-- CTXID of a context slot (R373). -/
def ctxidOf (s : State) (k : Nat) : Nat := let c := ctxAt s k; k % 512 + c.world % 256 * 2 ^ 16 + c.vd % 512 * 2 ^ 24

/-- The value of a CSR as the executing core reads it (R372). -/
def csrRead (s : State) (n : Nat) : Word :=
  let c := s.core
  let x := curCtx s
  match n with
  | 0x000 => c.vstat
  | 0x001 => c.vctlLo
  | 0x002 => c.vctlSeed
  | 0x003 => x.waitctl
  | 0x008 => c.cycle
  | 0x009 => c.tcmp
  | 0x010 => x.hall.getD 0 0
  | 0x011 => x.hall.getD 1 0
  | 0x012 => x.hall.getD 2 0
  | 0x013 => x.hall.getD 3 0
  | 0x014 => x.policy
  | 0x018 => BitVec.ofNat 64 (ctxidOf s c.ctx)
  | 0x100 => x.tvec
  | 0x101 => x.tvlen
  | 0x102 => x.tdel0
  | 0x103 => x.tdel1
  | 0x104 => c.tepc
  | 0x105 => c.tstat
  | 0x106 => c.tscr0
  | 0x107 => c.tscr1
  | 0x108 => x.savebase
  | 0x109 => x.saven
  | _ => 0

/-- Some bits of a word replaced. -/
def mergeBits (old new mask : Word) : Word := (old &&& ~~~mask) ||| (new &&& mask)

/-- VCTL.LO written: 6 and 7 are not performed in RM (R44). -/
def vctlWritten (old new : Word) : Word :=
  mergeBits old new (if 6 ≤ bitField new.toNat 0 3 then 0xF8 else 0xFF)

/-- WAITCTL written: WEXP holds 10 to 40 (R319). -/
def waitctlWritten (old new : Word) : Word :=
  let e := bitField new.toNat 0 6
  if 10 ≤ e ∧ e ≤ 40 then mergeBits old new 0x3F else old

/-- TVEC written: a value with [2:0] or [63:55] non-zero is not performed (R373). -/
def tvecWritten (old new : Word) : Word :=
  if bitField new.toNat 0 3 = 0 ∧ bitField new.toNat 55 9 = 0 then new else old

/-- TVLEN written: a multiple of 4, up to 2^24 (R373). -/
def tvlenWritten (old new : Word) : Word :=
  let n := bitField new.toNat 0 25
  if n % 4 = 0 ∧ n ≤ 2 ^ 24 then BitVec.ofNat 64 n else old

/-- The executing core with a CSR's RW fields given a new value, each unless its map refuses it (R372, R376). -/
def csrWrite (s : State) (n : Nat) (new : Word) : State :=
  let c := s.core
  let x := curCtx s
  match n with
  | 0x001 => { s with core := { c with vctlLo := vctlWritten c.vctlLo new } }
  | 0x002 => { s with core := { c with vctlSeed := new } }
  | 0x003 => setCurCtx s { x with waitctl := waitctlWritten x.waitctl new }
  | 0x009 => { s with core := { c with tcmp := new } }
  | 0x100 => setCurCtx s { x with tvec := tvecWritten x.tvec new }
  | 0x101 => setCurCtx s { x with tvlen := tvlenWritten x.tvlen new }
  | 0x102 => setCurCtx s { x with tdel0 := new }
  | 0x103 => setCurCtx s { x with tdel1 := mergeBits x.tdel1 new 0xFFFFFFFF }
  | 0x104 => { s with core := { c with tepc := new } }
  | 0x105 => { s with core := { c with tstat := mergeBits c.tstat new 0xFF0F00 } }
  | 0x106 => { s with core := { c with tscr0 := new } }
  | 0x107 => { s with core := { c with tscr1 := new } }
  | _ => s

/-- The W1C fields of a CSR cleared where a value has 1: only VSTAT has any (R43). -/
def csrClear (s : State) (n : Nat) (v : Word) : State :=
  if n = 0 then { s with core := { s.core with vstat := s.core.vstat &&& ~~~(v &&& 0xFF) } } else s

/-- A CSR instruction of a level: those from 0x100 up need level P (R372). A number without a register is a reserved code. -/
def onCsr (s : State) (n : Nat) (r : Outcome) : Outcome :=
  if !csrOk n then .next (trapCur s { cause := .reservedField })
  else if csrPriv n then atLevelP s r else r

/-- CSRR (R376). -/
def execCsrr (gd csr : Nat) (s : State) : Outcome := onCsr s csr (finish (writeReg s gd (csrRead s csr)))

/-- CSRW (R376). -/
def execCsrw (gd ga csr : Nat) (s : State) : Outcome :=
  let v := readReg s ga
  onCsr s csr (finish (writeReg (csrClear (csrWrite s csr v) csr v) gd (csrRead s csr)))

/-- CSRS (R376): W1C fields keep their value. -/
def execCsrs (gd ga csr : Nat) (s : State) : Outcome :=
  let v := readReg s ga
  onCsr s csr (finish (writeReg (csrWrite s csr (csrRead s csr ||| v)) gd (csrRead s csr)))

/-- CSRC (R376). -/
def execCsrc (gd ga csr : Nat) (s : State) : Outcome :=
  let v := readReg s ga
  onCsr s csr (finish (writeReg (csrClear (csrWrite s csr (csrRead s csr &&& ~~~v)) csr v) gd (csrRead s csr)))

/-! ### TRAP, RTE, BRK (R377, R378, R380) -/

/-- The step mark of a stream whose TRAP completes: STEP_DONE is due at the PC after it, once SYSCALL has been returned from (R368, R377;
log 91). -/
def stepOver : StepMark → StepMark
  | .armed l => .due l
  | x => x

/-- TRAP (R377): it completes, and SYSCALL is raised at its own address, to resume at the next PC. -/
def execTrap (ga code : Nat) (s : State) : Outcome :=
  let t := curStream s
  let done := advance (setCur s { t with step := stepOver t.step })
  .next (raiseTrap done ⟨s.focus, s.cur, 0, false, t.pc, wordsOf s.words, (curStream done).pc⟩
    { cause := .syscall, esw := code, va := (readReg s ga).toNat })

/-- REL of an engine stream (R373). -/
def relOf (c : Core) (st : StreamName) : Bool := c.tstat.getLsbD (7 + streamNum st)

/-- The engine streams that RTE returns (R378). -/
def returnStreams (s : State) : State :=
  [StreamName.d, .v, .x].foldl (fun s st =>
    if relOf s.core st && tstatPend s.core st then
      returnStream { s with core := setPend s.core st false } s.focus st
    else s) s

/-- The return from an exception (R378): the position and status come back from the C record and TEPC, and the level is U. -/
def returnFrom (s : State) : State :=
  let s := returnStreams s
  let s := { s with core := { s.core with tstat := BitVec.ofNat 64 (setField s.core.tstat.toNat 8 3 0) } }
  let r := s.core.c.record
  let s := clearRecord s s.focus .c
  let mark := if s.core.c.step = .armed true then StepMark.armed false else s.core.c.step
  let s := { s with core := setInh { s.core with c := { s.core.c with loops := r.loops, rets := r.rets, step := mark } } false }
  completeAt s s.core.tepc

/-- RTE (R378). -/
def execRte (s : State) : Outcome :=
  atLevelP s <| .next <|
    if s.core.tstat.getLsbD 11 then
      let k := bitField s.core.tstat.toNat 16 8
      match s.core.job with
      | some n => killJob s n (if k ≠ 0 then k else causeCode .syscall)
      | none => s
    else returnFrom s

/-- BRK (R380). -/
def execBrk (code : Nat) (s : State) : Outcome := .next (trapCur s { cause := .brkHit, esw := code })

/-! ### ICIV and YIELD (R379, R381) -/

/-- The words of a range, or all, invalidated in a context's instruction caches (R379). -/
def dropCode (c : Context) (lo n : Nat) : Context :=
  { c with icache := if n = 0 then [] else c.icache.filter fun p => p.1 + 4 ≤ lo || lo + n ≤ p.1 }

/-- ICIV (R379). Every earlier store of the C stream has been performed (log 7). -/
def execIciv (ga gb : Nat) (s : State) : Outcome :=
  let lo := (readReg s ga).toNat
  let n := (readReg s gb).toNat
  run s (if n ≠ 0 ∧ lo + n > 2 ^ 55 then faultVa .noMapping lo else .ok (setCurCtx s (dropCode (curCtx s) lo n)))

/-- YIELD (R381): it completes, and the job is checkpointed when a candidate waits for its units. -/
def execYield (s : State) : Outcome :=
  let t := advance s
  .next <| match s.core.job.bind fun n => (jobAt s n).map fun j => (n, j) with
    | some (n, j) => if permCheckpoint j && !tstatInh s.core && candidateWaits s j then checkpointJob t n (causeCode .yielded) else t
    | none => t

end Sys2Proof.Machine
end

