-- ==== Sys2Proof/Machine/Page.lean ====
section
/-! DEFINITION. TLBINV and PMIG, and the steps of a migration (R410 to R412, R422 to R424). -/

namespace Sys2Proof.Machine

/-! ### TLBINV (R423) -/

/-- The translations of a context for some pages removed from every TLB; a translation of 512 MiB goes with any page it covers. -/
def dropPages (c : Context) (hit : Nat → Bool) (large : Nat → Bool) : Context :=
  { c with tlb := c.tlb.filter fun p => match p.2 with
      | none => false
      | some t => !(hit p.1 || (t.large && large (p.1 / 8192))) }

/-- TLBINV.PAGE (R423). -/
def execTlbinvPage (ga : Nat) (s : State) : Outcome :=
  let p := (readReg s ga).toNat / 65536
  atLevelP s (finish (setCurCtx s (dropPages (curCtx s) (fun q => q = p) fun q => q = p / 8192)))

/-- TLBINV.RANGE (R423). -/
def execTlbinvRange (ga gb : Nat) (s : State) : Outcome :=
  let lo := (readReg s ga).toNat
  let n := (readReg s gb).toNat
  let meets (size q : Nat) : Bool := decide (0 < n) && decide (q * size < lo + n) && decide (lo < (q + 1) * size)
  atLevelP s <| run s <|
    if n ≠ 0 ∧ lo + n > 2 ^ 55 then faultVa .noMapping lo
    else .ok (setCurCtx s (dropPages (curCtx s) (meets 65536) (meets (2 ^ 29))))

/-- TLBINV.CTX (R423). -/
def execTlbinvCtx (s : State) : Outcome := atLevelP s (finish (setCurCtx s { curCtx s with tlb := [] }))

/-! ### Migrations (R411) -/

/-- Step 1 of R411: MIG is set, the old frame is MIGRATING, and its translations are gone. -/
def startMigration (s : State) (k va : Nat) (l : Leaf) (frame : Option Nat) : State :=
  let old := pteFrame l.entry
  let e := setField l.entry 12 1 1
  let s := writeEntry s k l.place e
  let s := movePot s old { potAt s old with state := 3 }
  { s with migs := s.migs ++ [⟨k, va / 65536, l.place, e, old, frame, s.now, (ctxAt s k).vd, ctxConf (ctxAt s k)⟩] }

/-! ### PMIG (R424) -/

/-- The tier of an operation's pool. -/
def pmigTier : PmigOp → Nat
  | .toHbm => 0 | _ => 1

/-- The page stands where an operation wants it (R424). -/
def inPlaceFor (op : PmigOp) (e : Nat) : Bool :=
  match op with
  | .toHbm => !pteAbs e && pteTier e = 0
  | .toCxl => !pteAbs e && pteTier e = 1
  | .evict => pteAbs e

/-- PMIG on the leaf that the walk has found (R424). -/
def pmigOn (s : State) (op : PmigOp) (gd va : Nat) (l : Leaf) : Outcome :=
  let k := s.core.ctx
  let e := l.entry
  let status (n : Nat) := finish (writeNat s gd n)
  if l.large || pteClass e = 3 then status 3
  else if pteMig e then status 2
  else if inPlaceFor op e then status 0
  else match op with
  | .evict => .next (waitOn (startMigration s k va l none) (.page va))
  | _ =>
    if pteAbs e then .next (waitOn (postPageRequest s k va l (some (pmigTier op))) (.page va))
    else match takeFrame s (curCtx s).vd (pmigTier op) with
    | none => status 1
    | some (s, f) => .next (waitOn (startMigration s k va l (some f)) (.page va))

/-- The page ownership check of the frame that a leaf names: a frame that a migration holds passes where the leaf says BUSY, and otherwise holds the walk,
so no second migration of it begins (R404, R412, R424). -/
def leafFrame (s : State) (k va : Nat) (l : Leaf) : Res Unit :=
  if pteAbs l.entry then .ok ()
  else match checkPot s (leafPa l va) (ctxAt s k).world true (pteClass l.entry = 1) va with
  | .error .busy => if pteMig l.entry then .ok () else .error .busy
  | r => r

/-- PMIG (R424). -/
def execPmig (op : PmigOp) (gd ga : Nat) (s : State) : Outcome :=
  let va := (readReg s ga).toNat
  atLevelP s <|
    match walk s s.core.ctx va with
    | .error e => .next (settle s (.error e))
    | .ok l => match inTurn (leafWorld s s.core.ctx va l) (leafFrame s s.core.ctx va l) with
      | .error e => .next (settle s (.error e))
      | .ok () => pmigOn s op gd va l

/-- A stream that waits on a PMIG of a page completes it with a status (R424). -/
def completePmig (s : State) (core status : Nat) : State :=
  let s := { focusOn s core with cur := .c }
  match (curStream s).pending with
  | none => s
  | some p => advanceBy (writeNat s (bitField p.words.toNat 16 6) status) 4

/-- The cores of a context whose C stream waits on the end of a request or migration of a page. -/
def pmigWaiters (s : State) (k page : Nat) : List Nat :=
  match (ctxAt s k).job.bind (jobAt s) with
  | none => []
  | some j => j.cores.filter fun c => match (coreAt s c).c.pending with
    | some p => (match p.on with | .page va => va / 65536 = page | _ => false)
    | none => false

end Sys2Proof.Machine
end

