-- ==== Sys2Proof/Machine/Records.lean ====
section
/-! DEFINITION. Reading launch records, the checks of a launch, completion words and events, and the steps that stop or start jobs (R123 to R130,
R134, R135, R336 to R347, R362, R363, R366, R386). -/

namespace Sys2Proof.Machine

/-! ### Records and kernel objects as bytes (R123 to R125, R340) -/

/-- A field of `n` bytes at an offset. -/
def fieldAt (bs : List Byte) (off n : Nat) : Nat := leNat ((bs.drop off).take n)
/-- `n` bytes at an offset are zero. -/
def zeroAt (bs : List Byte) (off n : Nat) : Bool := ((bs.drop off).take n).all (· = 0)

/-- A launch record (R340). -/
def recordOf (bs : List Byte) : LaunchRec :=
  { kobj := fieldAt bs 0 8, args := BitVec.ofNat 64 (fieldAt bs 8 8), exts := (upFrom 0 6).map fun l => fieldAt bs (0x10 + 4 * l) 4,
    vdn := fieldAt bs 0x28 2, prio := bitField (fieldAt bs 0x2A 1) 0 3, perm := bitField (fieldAt bs 0x2B 1) 0 3, est := fieldAt bs 0x2C 4,
    csem := fieldAt bs 0x30 8, user := fieldAt bs 0x38 8, clean := fieldAt bs 0x2A 1 < 8 && fieldAt bs 0x2B 1 < 8 }

/-- A record within the terms of R340 and of its queue's virtual device (R341). -/
def recordFits (r : LaunchRec) (v : Nat) : Bool := r.clean && r.perm ≠ 0 && r.kobj % 256 = 0 && r.csem % 4 = 0 && r.vdn = v

/-- The kind of a loop-table level. -/
def levelKind : Nat → LevelKind
  | 0 => .temporal | 1 => .cores | _ => .dies

/-- A kernel object's header, without its plan (R123, R124). -/
def kernelOf (h : List Byte) : Kernel :=
  { got := .header, array := bitAt (fieldAt h 6 2) 0, fabric := bitAt (fieldAt h 6 2) 1, codeOff := (upFrom 0 4).map fun s => fieldAt h (0x10 + 16 * s) 8,
    codeLen := (upFrom 0 4).map fun s => fieldAt h (0x18 + 16 * s) 4,
    levels := (upFrom 0 (min 6 (fieldAt h 0x50 1))).map fun l => (levelKind (fieldAt h (0x58 + 8 * l) 1), fieldAt h (0x5C + 8 * l) 4),
    descOff := fieldAt h 0x88 8, descN := fieldAt h 0x90 4, dataOff := fieldAt h 0x98 8, dataLen := fieldAt h 0xA0 4, dataSpad := fieldAt h 0xA4 4,
    planAt := fieldAt h 0xA8 8, planN := fieldAt h 0xB0 2, plan := [] }

/-- The plan's entries (R125). -/
def planOf (bs : List Byte) : Nat → List (Nat × Nat)
  | 0 => []
  | n + 1 => (fieldAt bs 0 4, fieldAt bs 4 4) :: planOf (bs.drop 8) n

/-- The header's fields and reserved bytes (R123, R124, R128); an empty data image lies within the scratchpad too (log 83). -/
def headerFits (h : List Byte) : Bool :=
  let n := fieldAt h 0x50 1
  fieldAt h 0 4 = 0x314E524B && fieldAt h 4 2 = 1 && fieldAt h 6 2 < 4 && zeroAt h 8 8 && zeroAt h 0x51 7 && zeroAt h 0x94 4 && zeroAt h 0xB2 78 &&
  ((upFrom 0 4).all fun s =>
    let len := fieldAt h (0x18 + 16 * s) 4
    zeroAt h (0x1C + 16 * s) 4 && fieldAt h (0x10 + 16 * s) 8 % 8 = 0 && len % 4 = 0 && decide (4 ≤ len) && decide (len ≤ 2 ^ 24)) &&
  decide (1 ≤ n) && decide (n ≤ 6) &&
  ((upFrom 0 n).all fun l => decide (fieldAt h (0x58 + 8 * l) 1 ≤ 2) && zeroAt h (0x59 + 8 * l) 3 && fieldAt h (0x5C + 8 * l) 4 ≠ 0) &&
  fieldAt h 0x88 8 % 32 = 0 && decide (fieldAt h 0x90 4 ≤ 4096) && fieldAt h 0x98 8 % 64 = 0 && decide (fieldAt h 0xA0 4 ≤ 524288) &&
  fieldAt h 0xA4 4 % 64 = 0 && decide (fieldAt h 0xA4 4 + fieldAt h 0xA0 4 ≤ 524288) && fieldAt h 0xA8 8 % 8 = 0 && decide (fieldAt h 0xB0 2 ≤ 64)

/-- The plan's entries, and the data image within the planned scratchpad (R125). -/
def planFits (k : Kernel) : Bool :=
  (k.plan.all fun p => p.1 % 4096 = 0 && p.2 % 4096 = 0 && decide (p.1 + p.2 ≤ 524288)) &&
  (k.dataLen = 0 || k.plan.isEmpty ||
    (upFrom (k.dataSpad / 4096) ((k.dataSpad + k.dataLen + 4095) / 4096 - k.dataSpad / 4096)).all fun b =>
      k.plan.any fun p => decide (p.1 ≤ b * 4096) && decide (b * 4096 < p.1 + p.2))

/-! ### The checks of a launch (R128, R341) -/

/-- What the checks of a record find. -/
inductive Finding where
  /-- The checks pass, and the job keeps what was read of its object. -/
  | pass (k : Kernel)
  /-- LAUNCH_BAD, and what a fault of the hardware does (R420). -/
  | refuse (hw : List HwEffect)
  /-- Pages that are SOFT-ABSENT, with what has been read of the object. -/
  | absent (k : Kernel) (vas : List Nat)
  /-- A page is held by a migration. -/
  | later (k : Kernel)
  deriving DecidableEq, Repr

/-- The pages of an image. -/
def imagePages (va n : Nat) : List Nat := if n = 0 then [] else (upFrom (va / 65536) ((va + n + 65535) / 65536 - va / 65536)).map (· * 65536)

/-- The pages of an image are mapped with read permission; those that are absent. -/
def pagesRead (s : State) (k : Nat) : List Nat → Res (List Nat)
  | [] => .ok []
  | va :: vs =>
    match translate s ⟨k, false, none, 0⟩ .read va with
    | .error e => .error e
    | .ok (.absent _) => (pagesRead s k vs).map fun r => va :: r
    | .ok (.here ..) => pagesRead s k vs

/-- The code images, the descriptor table, the data image and the plan of an object. -/
def objectPages (base : Nat) (k : Kernel) : List Nat :=
  ((k.codeOff.zip k.codeLen).flatMap fun p => imagePages (base + p.1) p.2) ++ imagePages (base + k.descOff) (32 * k.descN) ++
  imagePages (base + k.dataOff) k.dataLen ++ imagePages (base + k.planAt) (8 * k.planN)

/-- The dies that a virtual device may use. -/
def diesOf (s : State) (v : Nat) : List Nat := (upFrom 0 4).filter (vdUsesDie s v)

/-- The extents, dies, cores, array time and fabric of a launch (R128, R386). -/
def unitsFit (s : State) (j : Job) : Bool :=
  let v := j.vd
  let d := kindExtent j .dies
  let idle (kind : Nat) : Bool := purseFill (pcfg s v kind) = 0 && !purseBorrow (pcfg s v kind)
  ((j.rcd.exts.zip j.kern.levels).all fun p => decide (p.1 ≤ p.2.2)) && decide (d ≤ (diesOf s v).length) &&
  decide (d ≤ ((diesOf s v).filter fun x => decide (kindExtent j .cores ≤ vdCoreLimit s v x)).length) &&
  !(j.kern.array && idle 1) && !(j.kern.fabric && idle 5)

/-- A context of the queue may take the job at all (R341). -/
def contextFits (s : State) (j : Job) : Bool :=
  let q := queueAt s j.vd j.queue
  let takes (k : Nat) : Bool := (ctxAt s k).state ≠ .free && (ctxAt s k).vd = j.vd && decide (jobSize j ≤ bitField (ctxAt s k).saven.toNat 0 11)
  if queueBound q then takes (queueCtxField q) else s.ctxs.any fun p => takes p.1


/-- The images and the plan of an object whose header and plan have been read, or whose plan's page is absent (R128). -/
def checkImages (s : State) (k : Nat) (j : Job) (kern : Kernel) : Finding :=
  match pagesRead s k (objectPages j.rcd.kobj kern) with
  | .error .busy => .later kern
  | .error e => .refuse (hwOf (.error e : Res Unit))
  | .ok gone =>
    let j := { j with kern := kern }
    if !gone.isEmpty then .absent kern gone
    else if planFits kern && unitsFit s j && contextFits s j then .pass kern else .refuse []

/-- The plan of an object, read once (R128); a plan on an absent page is awaited together with the images. -/
def checkPlan (s : State) (k : Nat) (j : Job) (kern : Kernel) : Finding :=
  if kern.got = .all then checkImages s k j kern
  else match agentLoad s k (j.rcd.kobj + kern.planAt) 2 (8 * kern.planN) with
    | .ok (.ok bs) => checkImages s k j { kern with got := .all, plan := planOf bs kern.planN }
    | .ok (.error va) =>
      match checkImages s k j kern with
      | .pass _ => .absent kern [va]
      | r => r
    | .error .busy => .later kern
    | r => .refuse (hwOf r)

/-- The object of a record, read and checked (R128): its header with the loop table is read once, and then its plan. -/
def checkObject (s : State) (k : Nat) (j : Job) : Finding :=
  if j.kern.got ≠ .nothing then checkPlan s k j j.kern
  else match agentLoad s k j.rcd.kobj 2 256 with
    | .ok (.ok h) => if headerFits h then checkPlan s k j (kernelOf h) else .refuse []
    | .ok (.error va) => .absent j.kern [va]
    | .error .busy => .later j.kern
    | r => .refuse (hwOf r)

/-- The access to a completion word as it is checked (R128): a SOFT-ABSENT page is accepted. -/
def wordAccess (s : State) (k csem : Nat) : Res Unit :=
  if csem = 0 then .ok ()
  else if csem % 4 ≠ 0 then fault .launchBad
  else match translate s ⟨k, false, none, 0⟩ .atomic csem with
    | .error (.trap t) => .error (.trap t)
    | _ => .ok ()

/-- The checks of a record that has been read (R128, R341). The Boolean says that its completion word may be incremented. -/
def checkLaunch (s : State) (j : Job) : Finding × Bool :=
  match queueContext s j.vd j.queue with
  | none => (.refuse [], false)
  | some k =>
    let word := wordAccess s k j.rcd.csem
    if !recordFits j.rcd j.vd || !word.isOk then (.refuse (hwOf word), word.isOk) else (checkObject s k j, true)

/-- A record refused with LAUNCH_BAD (R341). -/
def refuseLaunch (s : State) (n : Nat) (j : Job) (word : Bool) : State :=
  finishAs s n (if word then j else { j with rcd := { j.rcd with csem := 0 } }) .refused (causeCode .launchBad)

/-- A record that has been read is checked: it becomes a QUEUED job, is refused, or waits for absent pages (R128). A job of no core retires at once
(R130, R344). -/
def settleRecord (s : State) (n : Nat) (j : Job) : State :=
  match checkLaunch s j with
  | (.refuse hw, word) => refuseLaunch (standHw s hw) n j word
  | (.later kern, _) => setJob s n { j with kern := kern }
  | (.absent kern vas, _) =>
    match queueContext s j.vd j.queue with
    | none => s
    | some k =>
      vas.foldl (fun s va => requestIfAbsent s k va) (setJob s n { j with kern := kern, asked := vas.map fun va => (k, va / 65536) })
  | (.pass kern, _) =>
    let j := { j with kern := kern, state := .queued, asked := [] }
    if jobSize j = 0 then finishJob s n j true 0 else setJob s n j

/-- The records of a queue that are read and not yet checked, checked again. -/
def settleReading (s : State) (v q : Nat) : State :=
  (jobList s).foldl (fun s p => if p.2.state = .reading && p.2.vd = v && p.2.queue = q then settleRecord s p.1 p.2 else s) s

/-! ### Reading a record (R341) -/

/-- A ring slot that cannot be read (R341): EN is cleared, FETCH is set, and the fetch event is posted. -/
def fetchFailed (s : State) (v q cause : Nat) : State :=
  let x := queueAt s v q
  let s := setQueue s v q { x with qctl := BitVec.ofNat 64 (setField x.qctl.toNat 6 1 0), qsts := BitVec.ofNat 64 (setField x.qsts.toNat 2 1 1) }
  postEvent s v ⟨(Config.fetchUser s.tick).toNat, x.prog, q, 2, cause, (vdAt s v).rgen⟩

/-- A record read: PROG passes it, and it is checked (R341). -/
def takeRecord (s : State) (v q : Nat) (r : LaunchRec) : State :=
  let x := queueAt s v q
  let j : Job := { state := .reading, vd := v, queue := q, index := x.prog, rgen := (vdAt s v).rgen, arrival := s.now, rcd := r,
                   kern := { kernelOf [] with got := .nothing }, ctx := 0, cores := [], resident := 0, sliceAt := 0, drainAt := none, image := [], lent := 0,
                   savedAt := none, ending := none, via := none, asked := [] }
  let n := s.nextJob
  settleRecord { setJob (setQueue s v q { x with prog := (x.prog + 1) % 2 ^ 32 }) n j with nextJob := n + 1 } n j

/-- The next record of a resident queue read through the queue's context (R341, R342). A record of a queue without a context is refused, its USER a
free value; a slot on an absent page cannot be read (log 30). -/
def readRecord (s : State) (v q : Nat) : State :=
  let x := queueAt s v q
  if !x.resident || !x.qctl.getLsbD 6 || x.tail = x.prog then s
  else match queueContext s v q with
  | none => takeRecord s v q { recordOf [] with user := (Config.fetchUser s.tick).toNat }
  | some k =>
    match agentLoad s k (x.qbase.toNat + 64 * (x.prog % 2 ^ qlog x)) 2 64 with
    | .ok (.ok bs) => takeRecord s v q (recordOf bs)
    | .ok (.error _) => fetchFailed s v q (causeCode .noMapping)
    | .error (.trap t) => fetchFailed (standHw s t.hw) v q (causeCode t.cause)
    | .error _ => s

/-- RECORD_READ (R341): records that wait for their object's pages are checked again, and the next record is read. -/
def execRecordRead (vd queue : Nat) (s : State) : Outcome :=
  .next (if (vdAt s vd).paused || (vdAt s vd).stopped || inReset s vd then s else readRecord (settleReading s vd queue) vd queue)

/-! ### Placement (R132, R343, R344) -/

/-- DISPATCH (R343, R344). -/
def execDispatch (die : Nat) (cores : List Nat) (s : State) : Outcome := .next (dispatchOn s die cores)

/-- JOB_PLACE (R132). -/
def execJobPlace (job : Nat) (cores : List Nat) (s : State) : Outcome := .next (placeChosen s job cores)

/-! ### Completion words and events (R135, R345 to R347) -/

/-- The completion of a job whose word has been incremented, or could not be (R135): a RETIRED job's event carries the cause of a failure. -/
def completeJob (s : State) (n : Nat) (j : Job) (failure : Nat) : State :=
  let cause := j.ending.getD 0
  let s := setJob s n { j with ending := none }
  postCompletion s j (statusOf j.state) (if j.state = .retired then failure else cause)

/-- The context through which a completion word is reached: its queue's, as it was before a reset of the queue's registers (R135, R342, R348). -/
def wordContext (s : State) (j : Job) : Option Nat := if j.via.isSome then j.via else queueContext s j.vd j.queue

/-- COMPLETION_WORD_INCREMENT (R135): as AMO.4.ADD through the translation of the queue's context. An absent page is requested and awaited. -/
def execCompletionWordIncrement (job : Nat) (s : State) : Outcome :=
  .next <| match jobAt s job with
    | none => s
    | some j =>
      if j.ending.isNone then s
      else match wordContext s j with
      | none => completeJob s job j (causeCode .noMapping)
      | some k =>
        let a : Accessor := ⟨k, false, none, vdHome s j.vd⟩
        match translate s a .atomic j.rcd.csem with
        | .ok (.absent l) => postPageRequest (setJob s job { j with asked := [(k, j.rcd.csem / 65536)] }) k j.rcd.csem l none
        | _ =>
          match memAtomic s a j.rcd.csem 4 with
          | .ok (s, pa, old) => completeJob (physWrite s pa (natLe 4 (old + 1)) (tagOf s a pa)) job j 0
          | .error (.trap t) => completeJob (standHw s t.hw) job j (causeCode t.cause)
          | .error (.short kind inst vd die) => shortAccess s kind inst vd die
          | .error _ => s

/-- The 16 bytes of an event entry (R346). -/
def eventBytes (d : VDev) (e : HeldEvent) : List Byte :=
  let log := bitField d.evctl.toNat 0 5
  natLe 8 e.user ++ natLe 4 e.seq ++ natLe 1 (e.queue + e.status * 8 + (1 - d.evtail / 2 ^ log % 2) * 128) ++ natLe 1 e.cause ++ natLe 2 e.rgen

/-- EWF set (R345, R347). -/
def eventFailed (s : State) (v : Nat) : State :=
  let d := vdAt s v
  setVd s v { d with evctl := BitVec.ofNat 64 (setField d.evctl.toNat 6 1 1) }

/-- The first event of a virtual device is written when it can be (R347), through the virtual device's lowest-numbered context (log 31); else it
is held. The Boolean says that it left the list. -/
def writeEvent (s : State) (v : Nat) : State × Bool :=
  let d := vdAt s v
  match d.held with
  | [] => (s, false)
  | e :: rest =>
    if e.rgen ≠ d.rgen then (setVd s v { d with held := rest }, true)
    else if !d.scheduled || d.paused || inReset s v || decide (2 ^ bitField d.evctl.toNat 0 5 ≤ (d.evtail + 2 ^ 32 - d.evhead) % 2 ^ 32) then (s, false)
    else match firstContext s v with
    | none => (eventFailed s v, false)
    | some k =>
      let va := d.evbase.toNat + 16 * (d.evtail % 2 ^ bitField d.evctl.toNat 0 5)
      let a : Accessor := ⟨k, false, none, vdHome s v⟩
      match translate s a .write va with
      | .error (.trap t) => (eventFailed (standHw s t.hw) v, false)
      | .error _ => (s, false)
      | .ok (.absent l) => (postPageRequest s k va l none, false)
      | .ok (.here _ pa) =>
        let r := inTurn (checkTag s pa 16 (ctxAt s k).world va false) (storeErrors s pa 16 va)
        if (paTier pa).isNone || !r.isOk then (eventFailed (absorb s r) v, false)
        else
          let s := physWrite s pa (eventBytes d e) (tagOf s a pa)
          let s := setVd s v { d with held := rest, evtail := (d.evtail + 1) % 2 ^ 32 }
          (if d.evctl.getLsbD 5 then s else sendMsix s v 0, true)

/-- Events written, in the order in which they arose, as far as they can be. -/
def writeEvents (s : State) (v : Nat) : Nat → State
  | 0 => s
  | n + 1 => let r := writeEvent s v; if r.2 then writeEvents r.1 v n else r.1

/-- Every event of a virtual device that can be written. -/
def writeHeld (s : State) (v : Nat) : State := writeEvents s v (vdAt s v).held.length

/-- The events that follow where a program has advanced EVHEAD (R347, R402). -/
def writeAdvanced (s : State) : State :=
  (s.vds.filter fun p => p.2.advanced).foldl (fun s p => writeHeld (setVd s p.1 { vdAt s p.1 with advanced := false }) p.1) s

/-- EVENT_WRITE (R347). -/
def execEventWrite (vd : Nat) (s : State) : Outcome := .next (writeEvent s vd).1

/-! ### Stopping and starting jobs (R134, R362, R363, R366, R386) -/

/-- The reason of a checkpoint: one that R362 names, else PREEMPT_CHECKPOINT. -/
def checkpointReason (r : Nat) : Nat :=
  if r = causeCode .migrationPause ∨ r = causeCode .marginRevoked ∨ r = causeCode .yielded then r else causeCode .preemptCheckpoint

/-- CHECKPOINT (R363) of a job that permits it (R362). -/
def execCheckpoint (job reason : Nat) (s : State) : Outcome :=
  .next <| match jobAt s job with
    | some j => if permCheckpoint j then checkpointJob s job (checkpointReason reason) else s
    | none => s

/-- RESUME (R366). -/
def execResume (job : Nat) (cores : List Nat) (s : State) : Outcome := .next (resumeOn s job cores)

/-- KILL (R134): a job that is all met retires (R136). -/
def execKill (job cause : Nat) (s : State) : Outcome := .next (if cause < 96 then killJob (retireIfMet s job) job cause else s)

/-- A job of another virtual device of the partition waits for units that a job holds (R386). -/
def othersWait (s : State) (j : Job) : Bool :=
  (jobList s).any fun p =>
    p.2.vd ≠ j.vd && ((p.2.state = .saved && mayResume s p.2.vd) || (isCandidate s p.1 p.2 && (contextFor s p.2).isSome)) &&
    j.cores.any fun c => let d := dieOf c
      vdUsesDie s p.2.vd d && vdPartOn s p.2.vd d = vdPartOn s j.vd d && (p.2.state = .saved || dispatcherOf s p.2 = 4 || dispatcherOf s p.2 = d)

/-- SLICE_END (R362, R386). -/
def execSliceEnd (job : Nat) (s : State) : Outcome :=
  .next <| match jobAt s job with
    | none => s
    | some j =>
      let slice := vdField s j.vd 6 16
      if slice ≠ 0 && jobRuns s job && decide (slice * 1024 + j.sliceAt ≤ j.resident) && othersWait s j then preemptJob s job false else s

/-- DRAIN_TIMEOUT (R362). -/
def execDrainTimeout (job : Nat) (s : State) : Outcome := .next (endDrain s job)

/-! ### Queues (R336 to R339) -/

/-- Every queue of a virtual device changed. -/
def mapQueues (s : State) (v : Nat) (f : Queue → Queue) : State := (upFrom 0 8).foldl (fun s q => setQueue s v q (f (queueAt s v q))) s

/-- QUEUE_SWITCH_OUT (R339): PROG and DONE are frozen as they read. -/
def execQueueSwitchOut (vd : Nat) (s : State) : Outcome :=
  let d := vdAt s vd
  .next <| if !d.scheduled then s
    else mapQueues (setVd s vd { d with scheduled := false }) vd fun q => { q with resident := false, stale := true, savedProg := q.prog, savedDone := q.done }

/-- The virtual devices that a die's dispatcher holds. -/
def scheduledOn (s : State) (die : Nat) : Nat := (s.vds.filter fun p => p.2.scheduled && vdHome s p.1 = die).length

/-- QUEUE_SWITCH_IN (R336, R338, R347, R386): the record as written comes into force but for its purses, which change at the next refill, and held
events are written. -/
def execQueueSwitchIn (vd : Nat) (s : State) : Outcome :=
  let d := vdAt s vd
  let r := setField d.rcdNew 512 384 (bitField d.rcd 512 384)
  let die := bitField r 0 6 / 16
  .next <| if d.scheduled || d.paused || inReset s vd || !bitAt r 31 || decide (384 ≤ vd) || decide (32 ≤ scheduledOn s die) then s
    else writeHeld (mapQueues (setVd s vd { d with scheduled := true, rcd := r }) vd fun q => { q with resident := true, stale := false }) vd

end Sys2Proof.Machine
end

