-- ==== Sys2Proof/Machine/PagePort.lean ====
section
/-! DEFINITION. The firmware's page service and migrations, and the security processor's writes of the page ownership table and the keys (R407,
R410, R411, R415, R424). -/

namespace Sys2Proof.Machine

/-! ### The end of a page request (R175, R410, R424) -/

/-- A DPREQ has requested a page. -/
def preqAsked (e : QEntry) (page : Nat) : Bool :=
  match e.instr, e.part with
  | .dpreq .., .pages asked _ => asked.any fun i => match tensorVa (operandAt e 0 2) i with | .ok va => va / 65536 = page | .error _ => false
  | _, _ => false

/-- The failure of a page's request at each DPREQ of a core of the context that waits on it (R410). -/
def failPreq (k page : Nat) (c : Core) : Core :=
  if c.job.isSome && c.ctx = k then
    { c with qdata := c.qdata.map fun e =>
        if preqAsked e page then { e with part := .pages (requested e).1 ((requested e).2 ++ [page]) } else e }
  else c

/-- The same at every core, resident or saved. -/
def failPreqs (s : State) (k page : Nat) : State :=
  { s with core := failPreq k page s.core, others := s.others.map fun p => (p.1, failPreq k page p.2),
           jobs := s.jobs.map fun p => (p.1, p.2.map fun j => { j with image := j.image.map (failPreq k page) }) }

/-- The jobs that wait for a page of a context. -/
def jobsAsking (s : State) (k page : Nat) : List Nat := ((jobList s).filter fun p => p.2.asked.contains (k, page)).map (·.1)

/-- A job whose page cannot be had (R128, R135): its record is refused, its placement kills it, or its completion word is not incremented. -/
def failJob (s : State) (n : Nat) : State :=
  match jobAt s n with
  | none => s
  | some j =>
    match j.state with
    | .reading => refuseLaunch s n j (checkLaunch s j).2
    | .queued => killJob s n (causeCode .noMapping)
    | _ => if j.ending.isSome then completeJob s n j (causeCode .noMapping) else s

/-- Jobs no longer wait for a page of a context. -/
def clearAsked (s : State) (k page : Nat) : State :=
  { s with jobs := s.jobs.map fun p => (p.1, p.2.map fun j => { j with asked := j.asked.filter (· ≠ (k, page)) }) }

/-- Every PMIG that waits on a page completes with a status (R424). -/
def endPmigs (s : State) (k page status : Nat) : State := (pmigWaiters s k page).foldl (fun s c => completePmig s c status) s

/-- A page request fails; `status` is that of a waiting PMIG: 1 NOFRAME, 4 ABANDONED (R410, R424). -/
def failRequest (s : State) (k page status : Nat) : State :=
  clearAsked ((jobsAsking s k page).foldl failJob (endPmigs (failPreqs s k page) k page status)) k page

/-- A frame filled with a page's bytes, under new counters: no line of it is cached or in error (R410, R417). -/
def fillFrame (s : State) (frame : Nat) (bs : List Byte) : State :=
  let lo := frame * 512
  let s := stepLines s (linesOf (frame * 65536) 65536)
  { s with mem := tabSetRange 0 (tabClear s.mem (frame * 65536) 65536) (frame * 65536) bs, l2 := tabClear s.l2 lo 512,
           lineErr := tabClear s.lineErr lo 512 }

/-- The owner and state of a frame that holds a page of a world (R407). -/
def frameOwner (world : Nat) : PotEntry := if world = 0 then ⟨0, 2⟩ else ⟨world, 1⟩

/-- A page's contents placed in a frame and its leaf rewritten RESIDENT by compare-and-swap; the Boolean says that the swap succeeded (R410). -/
def installPage (s : State) (r : PageRequest) (frame tier : Nat) (bs : List Byte) : State × Bool :=
  let va := r.page * 65536
  match walk s r.ctx va with
  | .ok l =>
    if l.entry = r.leaf then
      let s := changePot (fillFrame s frame bs) frame (frameOwner (pteWorld r.leaf))
      (writeEntry s r.ctx l.place (setField (setField (setField r.leaf 8 1 0) 9 1 tier) 16 36 frame), true)
    else (s, false)
  | w => (absorb s w, false)

/-- The contents that the host driver has sent, opened and checked for a confidential world (R410). -/
def openContents (r : PageRequest) (contents : Option (List Byte)) : Option (List Byte) :=
  (contents.bind fun bs => if r.conf then Config.openPage (pteWorld r.leaf) (pteFrame r.leaf) bs else some bs).bind fun bs =>
    if bs.length = 65536 then some bs else none

/-- The end of a page request (R410): `contents` is what the host driver sends under the tag, or none for ABANDON. A frame that has been quarantined
meanwhile, or is not FREE any more, is none (R420). -/
def serveRequest (s : State) (r : PageRequest) (contents : Option (List Byte)) : State :=
  let vd := r.vd
  let s := { s with pageReqs := s.pageReqs.filter fun q => q ≠ r }
  match r.frame with
  | none => failRequest s r.ctx r.page 1
  | some (frame, tier) =>
    if (potAt s frame).state ≠ 0 then failRequest s r.ctx r.page 1
    else match openContents r contents with
    | none => failRequest (giveFrame s vd tier frame) r.ctx r.page 4
    | some bs =>
      let i := installPage s r frame tier bs
      if i.2 then writeHeld (clearAsked (endPmigs i.1 r.ctx r.page 0) r.ctx r.page) vd
      else clearAsked (giveFrame s vd tier frame) r.ctx r.page

/-- PAGE_REQUEST_DONE (R410); a table of the page's walk that migrates holds it where it has come from (`requestHeld`, R412). -/
def execPageRequestDone (ctx page : Nat) (contents : Option (List Byte)) (s : State) : Outcome :=
  .next <| match s.pageReqs.find? fun r => r.ctx = ctx && r.page = page with
    | some r => if (isBusy (walk s ctx (page * 65536))) then s else serveRequest s r contents
    | none => s

/-! ### The end of a migration (R411, R412, R424) -/

/-- The tier of a frame. -/
def tierOf (frame : Nat) : Nat := (rangeTier (frame * 65536)).getD 0

/-- A page copied from a frame to another under the new frame's counters, its dirty lines written back first, with what its lines hold of errors: a
line that cannot be read intact is poison in the copy, and a dirty one is charged and reported (R411, R419). -/
def copyFrame (s : State) (old new : Nat) : State :=
  let s := stepLines (flushFrame s old) (linesOf (new * 65536) 65536)
  { s with mem := tabPaste s.mem (new * 65536) 65536 (tabSlice s.mem (old * 65536) 65536 (new * 65536)),
           l2 := tabClear s.l2 (new * 512) 512,
           lineErr := tabPaste s.lineErr (new * 512) 512 ((tabSlice s.lineErr (old * 512) 512 (new * 512)).map fun p => (p.1, 3)),
           touched := tabSet none s.touched new (tabGet none s.touched old) }

/-- An old frame scrubbed and given back to its pool; nothing is known of it any more (R411). -/
def scrubFrame (s : State) (vd frame : Nat) : State :=
  giveFrame { s with l2 := tabClear s.l2 (frame * 512) 512 } vd (tierOf frame) frame

/-- A page's bytes to the host driver under a tag, sealed for a confidential world (R410, R411). -/
def sendPage (s : State) (conf : Bool) (vd frame world tag : Nat) : State :=
  let bs := physBytes s (frame * 65536) 65536
  { s with outbox := s.outbox ++ [.pageOut vd tag (if conf then Config.sealPage world tag bs else bs)] }

/-- Step 4 of R411 when the compare-and-swap succeeds. -/
def finishMigration (s : State) (m : Migration) : State :=
  let vd := m.vd
  let world := pteWorld m.leaf
  let s := match m.frame with
    | some f =>
      let s := movePot (copyFrame s m.old f) f (frameOwner world)
      writeEntry s m.ctx m.leafAt (setField (setField (setField m.leaf 12 1 0) 9 1 (tierOf f)) 16 36 f)
    | none =>
      let tag := Config.hostTag s.tick % 2 ^ 36
      let s := sendPage s m.conf vd m.old world tag
      writeEntry s m.ctx m.leafAt (setField (setField (setField m.leaf 12 1 0) 8 1 1) 16 36 tag)
  endPmigs (scrubFrame s vd m.old) m.ctx m.page 0

/-- The entry holds what a migration wanted: a resident page of the new frame's tier, or an absent page (R424). -/
def reached (m : Migration) (e : Nat) : Bool :=
  match m.frame with
  | some f => !pteAbs e && pteTier e = tierOf f
  | none => pteAbs e

/-- A migration abandoned, because software has changed the leaf or a frame has been quarantined (R411, R421): the new frame is freed, MIG is
cleared if it is left set, and the old frame is its owner's again. A quarantined frame stays so. -/
def abandonMigration (s : State) (m : Migration) : State :=
  let vd := m.vd
  let s := match m.frame with | some f => if (potAt s f).state = 0 then giveFrame s vd (tierOf f) f else s | none => s
  let e := leNat (physBytes s m.leafAt 8)
  let s := if bitAt e 0 && pteLeaf e && pteMig e then writeEntry s m.ctx m.leafAt (setField e 12 1 0) else s
  let s := if (potAt s m.old).state = 3 then changePot s m.old (frameOwner (potAt s m.old).owner) else s
  let w := walk s m.ctx (m.page * 65536)
  let status := match w with | .ok l => if reached m l.entry then 0 else 2 | .error _ => 2
  endPmigs (absorb s w) m.ctx m.page status

/-- Both frames of a migration are as it left them, and can be reached (R421, R432). -/
def framesSound (s : State) (m : Migration) : Bool :=
  (potAt s m.old).state = 3 && !cxlLost s (m.old * 65536) && m.frame.all fun f => (potAt s f).state = 0 && !cxlLost s (f * 65536)

/-- A leaf or node in error above a frame, met as its lines are read or written, quarantines what is under it (R418, R420). -/
def meetErrors (s : State) (f : Nat) : State := (metaErrorAt s (f * 65536) 65536).elim s fun b => quarantineBlock s b.1

/-- The page can leave the package: none of its lines is in error. A page with one stays, so that its poison is not lost (R419; log 96). -/
def evictable (s : State) (m : Migration) : Bool := m.frame.isSome || (linesOf (m.old * 65536) 65536).all fun l => tabGet 0 s.lineErr l = 0

/-- Steps 3 and 4 of R411. -/
def endMigration (s : State) (m : Migration) : State :=
  let s := (m.old :: m.frame.toList).foldl meetErrors (flushFrame { s with migs := s.migs.filter fun q => q ≠ m } m.old)
  if framesSound s m && evictable s m && decide (leNat (physBytes s m.leafAt 8) = m.leaf) then finishMigration s m else abandonMigration s m

/-- MIGRATION_COMPLETE (R411). -/
def execMigrationComplete (ctx page : Nat) (s : State) : Outcome :=
  .next <| match s.migs.find? fun m => m.ctx = ctx && m.page = page with
    | none => s
    | some m => endMigration s m

/-! ### The security processor (R407, R415) -/

/-- PAGE_OWNERSHIP_CHANGE (R407): an entry of the table is written; the frame's lines have left the L2s and its translations are gone (R405, R409). -/
def execPageOwnershipChange (frame owner state : Nat) (s : State) : Outcome :=
  .next (if owner < 256 ∧ state < 6 ∧ (rangeTier (frame * 65536)).isSome ∧ frameMapped s frame then changePot s frame ⟨owner, state⟩ else s)

/-- WORLD_KEY_INSTALL (R415). -/
def execWorldKeyInstall (world : Nat) (s : State) : Outcome := .next (if world < 256 then { s with keys := setAdd world s.keys } else s)

end Sys2Proof.Machine
end

