-- ==== Sys2Proof/Machine/Power.lean ====
section
/-! DEFINITION. The refill of purses, the power governor, the thermal trip and the ageing measurement (R390, R447 to R450). -/

namespace Sys2Proof.Machine

/-! ### The refill (R388, R390) -/

/-- The arbiters of a kind (R388). -/
def arbiterCount : Nat → Nat
  | 0 => 1536 | 1 => 192 | 2 => 4 | 3 => 16 | 4 => 4 | 5 => 32 | _ => 0

/-- The die of an arbiter; the ports stand on the I/O die and serve every virtual device. -/
def arbiterDie (kind inst : Nat) : Option Nat :=
  match kind with
  | 0 => some (inst / 384) | 1 => some (inst / 48) | 2 => some inst | 3 => some (inst / 4) | _ => none

/-- The virtual devices that an arbiter serves (R387, R388). -/
def servedVds (s : State) (kind inst : Nat) : List Nat :=
  (upFrom 0 384).filter fun v => match arbiterDie kind inst with | some d => vdUsesDie s v d | none => true

/-- The purse field of a kind taken over from the record as it was last written (R386). -/
def adoptPcfg (kind : Nat) (s : State) (v : Nat) : State :=
  let d := vdAt s v
  let lo := 512 + 64 * kind
  setVd s v { d with rcd := setField d.rcd lo 64 (bitField d.rcdNew lo 64) }

/-- A purse with its configuration. -/
structure Served where
  vd : Nat
  cfg : Nat
  purse : Purse
  deriving DecidableEq, Repr

/-- The balance after the fill, and what of it goes to the pool (R390). -/
def filled (x : Served) : Served := { x with purse := { x.purse with bor := 0, bal := min (purseDepth x.cfg : Int) (x.purse.bal + purseFill x.cfg) } }
def lendsAll (x : Served) : Bool := purseLend x.cfg && x.purse.idle && decide (0 < x.purse.bal)

/-- What a purse receives of the pool (R390). -/
def shareOf (pool w n : Nat) (x : Served) : Nat :=
  if purseBorrow x.cfg && x.purse.short then min (purseDepth x.cfg) (if 0 < w then pool * purseFill x.cfg / w else pool / n) else 0

/-- The refill of the purses of one arbiter (R390). -/
def refill (l : List Served) : List Served :=
  let l := l.map filled
  let pool := l.foldl (fun n x => if lendsAll x then n + x.purse.bal.toNat else n) 0
  let b := l.filter fun x => purseBorrow x.cfg && x.purse.short
  let w := b.foldl (fun n x => n + purseFill x.cfg) 0
  l.map fun x => { x with purse := { bal := if lendsAll x then 0 else x.purse.bal, bor := shareOf pool w b.length x, idle := true, short := false } }

/-- Some refills, one after another. -/
def refillTimes : Nat → List Served → List Served
  | 0, l => l
  | n + 1, l => refillTimes n (refill l)

/-- Refills after which further ones without a request change nothing: a balance rises by at least 1 in each, from no less than -65,535 to no more than
65,535. -/
def refillEnough : Nat := 2 ^ 17

/-- The refills of an arbiter, one for each period of 1,024 cycles that has begun since the last (R390). -/
def refillArbiter (s : State) (kind inst : Nat) : State :=
  let key := kind * 2048 + inst
  let last := tabGet 0 s.refills key
  if arbiterCount kind ≤ inst ∨ s.now / 1024 ≤ last then s
  else
    let vs := servedVds s kind inst
    let s := vs.foldl (adoptPcfg kind) { s with refills := tabSet 0 s.refills key (s.now / 1024) }
    (refillTimes (min refillEnough (s.now / 1024 - last)) (vs.map fun v => ⟨v, pcfg s v kind, purseAt s kind inst v⟩)).foldl
      (fun s x => setPurse s kind inst x.vd x.purse) s

/-- PURSE_REFILL (R390). -/
def execPurseRefill (kind inst : Nat) (s : State) : Outcome := .next (refillArbiter s kind inst)

/-! ### The governor (R447) -/

def healthAt (s : State) (die : Nat) : Nat := (tabGet healthReset s.health die).toNat
def setHealth (s : State) (die h : Nat) : State := { s with health := tabSet healthReset s.health die (BitVec.ofNat 64 h) }
/-- VSTEP and CSTEP (R449). -/
def vstepOf (h : Nat) : Nat := bitField h 40 3
def cstepOf (h : Nat) : Nat := bitField h 43 8
/-- The clock's lowest step: 1.0 GHz is 30 steps of 25 MHz below 1.75 GHz. -/
def cstepMax : Nat := 30

/-- Every die's health register changed. -/
def mapHealth (s : State) (f : Nat → Nat) : State := (upFrom 0 4).foldl (fun s d => setHealth s d (f (healthAt s d))) s

/-- The clock lowered by 25 MHz. -/
def slower (h : Nat) : Nat := setField h 43 8 (min cstepMax (cstepOf h + 1))

/-- Above the limit (R447 steps 1 and 2): the vector engine gives way first, and the clock once it has. -/
def throttle (s : State) : State :=
  let n := vstepOf (healthAt s 0)
  if n < 7 then mapHealth s fun h => setField h 40 3 (n + 1) else mapHealth s slower

/-- A recovery step (R447 step 3): the clock first, and the vector engine once it is restored. -/
def recover (s : State) : State :=
  if (upFrom 0 4).any fun d => cstepOf (healthAt s d) ≠ 0 then mapHealth s fun h => setField h 43 8 (cstepOf h - 1)
  else mapHealth s fun h => setField h 40 3 (vstepOf h - 1)

/-- GOVERNOR_MEASURE (R447): one measurement. A run of 100 µs below 2,250 W, its eleventh measurement, is followed at once by a recovery step. -/
def execGovernorMeasure (watts : Nat) (s : State) : Outcome :=
  let s := if 2400 < watts then throttle s else s
  let run := if watts < 2250 then s.govRun + 1 else 0
  .next { s with govRun := run, pin := if 11 ≤ run then some (.event .governorRecoveryStep) else s.pin }

/-- GOVERNOR_RECOVERY_STEP (R447 step 3): the count starts again. -/
def execGovernorRecoveryStep (s : State) : Outcome := .next (if 11 ≤ s.govRun then { recover s with govRun := 1 } else s)

/-! ### Temperature (R448) -/

/-- A job has a core on a die, or had one when a checkpoint saved it in this very cycle (R448). -/
def onDie (s : State) (die : Nat) (j : Job) : Bool :=
  (j.state = .running && j.cores.any fun c => dieOf c = die) ||
  (j.state = .saved && j.savedAt.any fun t => decide (t.1 = s.now) && t.2.any fun c => dieOf c = die)

/-- A die's trip: the jobs with a core on it are killed, and the driver is told (R448). -/
def tripDie (s : State) (die : Nat) : State :=
  let s := setHealth { s with tripped := setAdd die s.tripped } die (setField (healthAt s die) 51 1 1)
  let s := ((jobList s).filter fun p => onDie s die p.2).foldl (fun s p => killJob s p.1 (causeCode .thermalTrip)) s
  { s with outbox := s.outbox ++ [.error (causeCode .thermalTrip) 0 0 die] }

/-- A tripped die issues again once its TJ is below 90 °C and TRIP is clear (R448). -/
def settleTrip (s : State) (die : Nat) : State :=
  if bitField (healthAt s die) 32 8 < 90 ∧ !bitAt (healthAt s die) 51 then { s with tripped := s.tripped.filter (· ≠ die) } else s

/-- What the governor does on a die's temperature: the strongest row that holds (R448). -/
def actOnTemperature (s : State) (die tj : Nat) (coolantLost : Bool) : State :=
  if 4 ≤ die then s
  else
    let s := setHealth s die (setField (healthAt s die) 32 8 (min 255 tj))
    if 110 ≤ tj || coolantLost then tripDie s die
    else if 100 ≤ tj then setHealth s die (slower (healthAt s die))
    else settleTrip s die

/-- THERMAL_CLOCK_STEP (R448). -/
def execThermalClockStep (die tj : Nat) (s : State) : Outcome := .next (actOnTemperature s die tj false)
/-- THERMAL_TRIP (R448). -/
def execThermalTrip (die tj : Nat) (coolantLost : Bool) (s : State) : Outcome := .next (actOnTemperature s die tj coolantLost)

/-! ### Ageing (R449, R450) -/

/-- The cycles of an hour (R2). -/
def hourCycles : Nat := 3600000000 * usCycles

/-- The shift of a monitor from its frequency at first boot, in parts of 10^9. -/
def monitorShift (first now : Nat) : Nat := if first = 0 then 0 else ((first : Int) - now).natAbs * 10 ^ 9 / first

/-- The frequency of each monitor of a die at first boot: what its first measurement finds. -/
def bootFreqs (s : State) (die : Nat) (freqs : List Nat) : Tab Nat :=
  ((upFrom 0 64).zip freqs).foldl (fun t p => if tabGet 0 t (64 * die + p.1) = 0 then tabSet 0 t (64 * die + p.1) p.2 else t) s.firstBoot

/-- The largest of some shifts: its monitor, the lowest among equals, and the shift. -/
def largestShift (l : List Nat) : Nat × Nat := ((upFrom 0 l.length).zip l).foldl (fun b p => if b.2 < p.2 then p else b) (0, l.headD 0)

/-- The hours in which a shift, growing as it has over some cycles, reaches 5 % (R450). -/
def hoursToEnd (was now cycles : Nat) : Nat :=
  if 5 * 10 ^ 7 ≤ now then 0
  else if now ≤ was then 0xFFFFFFFF
  else min 0xFFFFFFFF ((5 * 10 ^ 7 - now) * cycles / ((now - was) * hourCycles))

/-- What the controller finds of the lanes and stacks, by number (R450). -/
def keepMargins (t : Tab Nat) (margins : List Nat) : Tab Nat := ((upFrom 0 216).zip margins).foldl (fun t p => tabSet 0 t p.1 p.2) t

/-- AGEING_MEASURE (R450): the frequencies of a die's 64 monitors give EOLH and WORST, and the controller keeps what it finds of lanes and stacks
(log 39). -/
def execAgeingMeasure (die : Nat) (freqs margins : List Nat) (s : State) : Outcome :=
  .next <| if 4 ≤ die ∨ freqs.length ≠ 64 then s
    else
      let boot := bootFreqs s die freqs
      let shifts := ((upFrom 0 64).zip freqs).map fun p => monitorShift (tabGet 0 boot (64 * die + p.1)) p.2
      let past := (tabGet [] s.ageing die).filter fun m => decide (s.now ≤ m.1 + 1000 * hourCycles)
      let old := past.headD (s.now, shifts)
      let w := largestShift shifts
      let hours := hoursToEnd (old.2.getD w.1 0) w.2 (s.now - old.1)
      let h := setField (setField (healthAt s die) 0 32 hours) 52 6 w.1
      { setHealth s die h with firstBoot := boot, ageing := tabSet [] s.ageing die (past ++ [(s.now, shifts)]),
                               margin := keepMargins s.margin margins }

/-- The host driver reads a die's health register; margins and corrected errors are reported with it (R449, R450). -/
def readHealth (s : State) (die : Nat) : State :=
  if 4 ≤ die then s else { s with outbox := s.outbox ++ [.health die (healthAt s die) s.margin] }

end Sys2Proof.Machine
end

