-- ==== Sys2Proof/Machine/HostPort.lean ====
section
/-! DEFINITION. The host port: what a request to a virtual function's BARs and configuration space does, the debug commands, the memory window,
TDISP, and the function-level reset (R5, R337, R338, R345, R348, R367 to R369, R397, R426 to R431). -/

namespace Sys2Proof.Machine

/-! ### Which requests are accepted (R430) -/

/-- A BAR request is accepted by its function's state, its TEE bit and its page's marking (R430); one with TEE = 1 only in the stream bound at the lock
(R428). -/
def barAccepts (s : State) (v : Nat) (tee : Option Nat) (priv : Bool) : Bool :=
  match (vdAt s v).tdisp, tee with
  | .unlocked, t => t.isNone
  | .locked, t => t.isNone
  | .run, none => !priv
  | .run, some k => priv && (vdAt s v).ide = some k
  | .error, t => t.isNone && !priv

/-- The fields marked RW-L may be written (R5). -/
def unlocked (s : State) (v : Nat) : Bool := (vdAt s v).tdisp = .unlocked

/-! ### Jobs of a virtual device -/

/-- A job that has not ended. -/
def standing (j : Job) : Bool := match j.state with | .reading | .queued | .running | .saved => true | _ => false

/-- The standing jobs of a virtual device. -/
def vdJobs (s : State) (v : Nat) : List (Nat × Job) := (jobList s).filter fun p => p.2.vd = v && standing p.2

/-- Every standing job of a virtual device killed. -/
def killVd (s : State) (v cause reason : Nat) : State := (vdJobs s v).foldl (fun s p => killJobFor s p.1 cause reason) s

/-- A frozen write or an integrity failure of the bound stream (R429). -/
def tdispError (s : State) (v : Nat) : State :=
  let d := vdAt s v
  match d.tdisp with
  | .unlocked => s
  | .run => killVd (setVd s v { d with tdisp := .error, stopped := true }) v (causeCode .tdispError) 1
  | _ => setVd s v { d with tdisp := .error }

/-- A write of RW-L fields: performed while the interface is unlocked; afterwards a write that would change one is a frozen write, and one that
would not is performed in its other fields (R5, R429; log 34). -/
def lockedWrite (s : State) (v : Nat) (changes : Bool) (open_ frozen : State) : State :=
  if unlocked s v then open_ else if changes then tdispError s v else frozen

/-! ### Queue and event registers (R337, R338, R345) -/

/-- A host write of TAIL (R338). -/
def writeTail (s : State) (v q value : Nat) : State :=
  let x := queueAt s v q
  let t := value % 2 ^ 32
  if x.qctl.getLsbD 5 then setQueue s v q { x with qsts := x.qsts ||| 2 }
  else if (t + 2 ^ 32 - progSeen x) % 2 ^ 32 ≤ 2 ^ qlog x then setQueue s v q { x with tail := t }
  else setQueue s v q { x with qsts := x.qsts ||| 1 }

/-- QCTL as written: QLOG only from 4 to 16; reserved bits 0 (R337). -/
def qctlWritten (old : Word) (v : Nat) : Nat :=
  let log := bitField v 0 5
  (if 4 ≤ log ∧ log ≤ 16 then log else bitField old.toNat 0 5) + bitField v 5 2 * 2 ^ 5 + bitField v 16 26 * 2 ^ 16

/-- The fields of QCTL marked RW-L: all but EN. -/
def qctlLocked (v : Nat) : Nat := setField (bitField v 0 42) 6 10 0

/-- A host write of a register of a queue's window. -/
def writeQueueReg (s : State) (v q off value : Nat) : State :=
  let x := queueAt s v q
  match off with
  | 0x00 =>
    let ok := bitField value 0 6 = 0 && bitField value 55 9 = 0
    lockedWrite s v (value ≠ x.qbase.toNat) (if ok then setQueue s v q { x with qbase := BitVec.ofNat 64 value } else s) s
  | 0x08 =>
    lockedWrite s v (qctlLocked value ≠ qctlLocked x.qctl.toNat) (setQueue s v q { x with qctl := BitVec.ofNat 64 (qctlWritten x.qctl value) })
      (setQueue s v q { x with qctl := BitVec.ofNat 64 (setField x.qctl.toNat 6 1 (bitField value 6 1)) })
  | 0x10 => writeTail s v q value
  | 0x28 => setQueue s v q { x with qsts := x.qsts &&& ~~~(BitVec.ofNat 64 (value % 8)) }
  | _ => s

/-- A host write of EVCTL: EVLOG is RW-L, MSK RW and EWF W1C (R345). -/
def writeEvctl (s : State) (v value : Nat) : State :=
  let d := vdAt s v
  let old := d.evctl.toNat
  let log := bitField value 0 5
  let put (log : Nat) : State :=
    setVd s v { d with evctl := BitVec.ofNat 64 (log + bitField value 5 1 * 2 ^ 5 + (if bitAt value 6 then 0 else bitField old 6 1 * 2 ^ 6)) }
  lockedWrite s v (log ≠ bitField old 0 5) (put (if 4 ≤ log ∧ log ≤ 16 then log else bitField old 0 5)) (put (bitField old 0 5))

/-- A host write of EVHEAD: held events follow (R345, R347). -/
def hostEvhead (s : State) (v value : Nat) : State := writeHeld (writeEvhead s v (value % 2 ^ 32)) v

/-! ### The debug window (R367, R368) -/

/-- The stream that the window addresses changed. -/
def onDbgStream (s : State) (v : Nat) (f : StreamName → Stream → Stream) : State :=
  match dbgTarget s v with
  | some (c, st) => updStream s c st (f st)
  | none => s

/-- A host write of a register of the debug window, but for DBGCMD. -/
def writeDbgReg (s : State) (v off value : Nat) : State :=
  let d := vdAt s v
  let st := streamOfNum (bitField d.dbgsel.toNat 32 2)
  let w := BitVec.ofNat 64 value
  match off with
  | 0x00 =>
    let attach := if bitAt value 0 ∧ !dbgPermits s v then bitField d.dbgctl.toNat 0 1 else bitField value 0 1
    setVd s v { d with dbgctl := BitVec.ofNat 64 (attach + bitField value 2 1 * 4) }
  | 0x08 => setVd s v { d with dbgsel := BitVec.ofNat 64 (value % 2 ^ 34) }
  | 0x10 => onDbgStream s v fun _ t => { t with pc := w }
  | 0x18 => if st ≠ .c ∧ bitField value 0 6 > 15 then s else setVd s v { d with dbgreg := BitVec.ofNat 64 (value % 64) }
  | 0x20 => onDbgStream s v fun st t => if st ≠ .c ∧ d.dbgreg.toNat > 15 then t else setRegOf t d.dbgreg.toNat w
  | 0x28 => setVd s v { d with dbgx := w }
  | 0x38 => if bitAt value 16 then setVd s v { d with dbgsts := BitVec.ofNat 64 (setField d.dbgsts.toNat 16 1 0) } else s
  | _ => s

/-- RETURN of the addressed stream at DBGPC (R368); `f` prepares a stream that runs on. -/
def dbgReturnWith (s : State) (v : Nat) (f : Stream → Stream) : State :=
  match dbgTarget s v with
  | none => s
  | some (c, st) => updStream (returnStream s c st) c st fun t => if t.state = .run then f t else t

/-- A command of the debug window (R368). -/
def debugCommand (s : State) (v cmd : Nat) : State :=
  match cmd with
  | 1 => dbgReturnWith s v id
  | 2 => dbgReturnWith s v fun t => { t with step := .armed t.record.level }
  | 3 =>
    let x := (vdAt s v).dbgx
    dbgReturnWith s v fun t => { t with displaced := some (t.record.level, x.setWidth 32, (x >>> 32).setWidth 32) }
  | 4 =>
    match dbgTarget s v with
    | some (c, st) => match (coreAt s c).job with
      | some n => killJob s n (streamOf (coreAt s c) st).record.cause
      | none => s
    | none => s
  | 5 =>
    let k := dbgContext s v
    if (ctxAt s k).state ≠ .free ∧ (ctxAt s k).vd = v ∧ userDebug s k then setCtx s k { ctxAt s k with icache := [] } else s
  | _ => s

/-! ### The memory window and MSI-X (R426, R427) -/

/-- A host write of WINCTL (R427). -/
def writeWinctl (s : State) (v value : Nat) : State :=
  let d := vdAt s v
  let old := d.winctl.toNat
  setVd s v { d with winctl := BitVec.ofNat 64 (setField (setField old 0 10 (bitField value 0 10)) 10 1 (if bitAt value 10 then 0 else bitField old 10 1)) }

def msixEntry (d : VDev) (k : Nat) : MsixEntry := if k = 0 then d.msix0 else d.msix1
def setMsix (d : VDev) (k : Nat) (m : MsixEntry) : VDev := if k = 0 then { d with msix0 := m } else { d with msix1 := m }

/-- A pending message of an unmasked vector is sent (log 33). -/
def flushMsix (s : State) (v k : Nat) : State :=
  let d := vdAt s v
  let m := msixEntry d k
  if m.pending && !m.masked && !d.msixMask && d.msixOn then sendMsix (setVd s v (setMsix d k { m with pending := false })) v k else s

/-- A host write of an MSI-X entry: its address, or its data and mask (R426). -/
def writeMsix (s : State) (v k : Nat) (hi : Bool) (value : Nat) : State :=
  let d := vdAt s v
  let m := msixEntry d k
  let put (m : MsixEntry) : State := setVd s v (setMsix d k m)
  if hi then
    let mask := bitAt value 32
    let data := BitVec.ofNat 32 value
    flushMsix (lockedWrite s v (data ≠ m.data) (put { m with data := data, masked := mask }) (put { m with masked := mask })) v k
  else lockedWrite s v (BitVec.ofNat 64 value ≠ m.addr) (put { m with addr := BitVec.ofNat 64 value }) s

/-- A host write of the 64-bit register at an offset of BAR 0 (R426; log 89). -/
def writeBar (s : State) (v off value : Nat) : State :=
  let d := vdAt s v
  if 0x1000 ≤ off ∧ off < 0x1200 then writeQueueReg s v ((off - 0x1000) / 0x40) (off % 0x40) value
  else if off = 0x1200 then
    let ok := bitField value 0 4 = 0 && bitField value 55 9 = 0
    writeHeld (lockedWrite s v (value ≠ d.evbase.toNat) (if ok then setVd s v { d with evbase := BitVec.ofNat 64 value } else s) s) v
  else if off = 0x1208 then writeEvctl s v value
  else if off = 0x1210 then hostEvhead s v value
  else if off = 0x1430 then debugCommand s v (bitField value 0 3)
  else if 0x1400 ≤ off ∧ off < 0x1440 then writeDbgReg s v (off - 0x1400) value
  else if off = 0x1600 then writeWinctl s v value
  else if off = 0x1608 then setVd s v { d with winbase := BitVec.ofNat 64 (bitField value 32 23 * 2 ^ 32) }
  else if off = 0x2000 then writeMsix s v 0 false value
  else if off = 0x2008 then writeMsix s v 0 true value
  else if off = 0x2010 then writeMsix s v 1 false value
  else if off = 0x2018 then writeMsix s v 1 true value
  else s

/-- The bits of the 64-bit register at an offset of BAR 0 that a write of 1 clears (R337, R345, R367, R427). -/
def barW1c (off : Nat) : Nat :=
  if 0x1000 ≤ off ∧ off < 0x1200 ∧ off % 0x40 = 0x28 then 7 else if off = 0x1208 then 2 ^ 6 else if off = 0x1438 then 2 ^ 16
  else if off = 0x1600 then 2 ^ 10 else 0

/-- The upper half of the 64-bit register at an offset of BAR 0 holds a field that a host writes. -/
def barUpper (off : Nat) : Bool :=
  (decide (0x1000 ≤ off ∧ off < 0x1200) && decide (off % 0x40 < 0x10)) ||
  [0x1200, 0x1408, 0x1410, 0x1420, 0x1428, 0x1608, 0x2000, 0x2008, 0x2010, 0x2018].contains off

/-- A host write of 4 bytes of BAR 0 (R5, R426; log 89): the other half of the register keeps its value. -/
def writeBarHalf (s : State) (v off value : Nat) : State :=
  let reg := off / 8 * 8
  let now := barWord s v reg
  if off % 8 = 0 then writeBar s v reg (setField now 0 32 (bitField value 0 32))
  else if off % 8 = 4 ∧ barUpper reg then writeBar s v reg (setField (now - (now &&& barW1c reg)) 32 32 (bitField value 0 32))
  else s

/-- The page of BAR 0 is private (R426). -/
def barPrivate (off : Nat) : Bool := off / 4096 = 1 || off / 4096 = 2

/-- A virtual function that is there: it appears at step 6 of the bring-up (R426, R453). -/
def vfPresent (s : State) (v : Nat) : Bool := decide (6 ≤ s.phase) && decide (v < 384)

/-- A host write to BAR 0, discarded unless R430 accepts it, and during a function-level reset (R397). -/
def hostWrite (s : State) (v off : Nat) (tee : Option Nat) (r : State) : State :=
  if vfPresent s v ∧ !inReset s v ∧ barAccepts s v tee (barPrivate off) then r else s

/-- A message that leaves the package. -/
def send (s : State) (m : Message) : State := { s with outbox := s.outbox ++ [m] }

/-- A host read of `n` bytes of a register of BAR 0 (R426, R430): Unsupported Request unless it is accepted, and 0 during a function-level reset
(R397). -/
def hostRead (s : State) (v off n : Nat) (tee : Option Nat) : State :=
  if !vfPresent s v ∨ 65536 ≤ off ∨ n = 0 ∨ 8 < off % 8 + n then s
  else if inReset s v then send s (.data (natLe n 0))
  else if !barAccepts s v tee (barPrivate off) then send s (.completion 1)
  else send s (.data (natLe n (bitField (barWord s v (off / 8 * 8)) (off % 8 * 8) (8 * n))))

/-- The functions that a change of the VF BAR 0 base finds locked. -/
def lockedFns (s : State) : List Nat := (s.vds.filter fun p => p.2.tdisp ≠ .unlocked).map (·.1)

/-- A configuration write (R429): 0 Memory Space Enable, 1 Bus Master Enable, 2 MSI-X Enable, 3 Function Mask of a function, 4 the VF BAR 0 base
(log 32). -/
def writeConfig (s : State) (v off value : Nat) : State :=
  let d := vdAt s v
  let b := bitAt value 0
  match off with
  | 0 => lockedWrite s v (b ≠ d.memOn) (setVd s v { d with memOn := b }) s
  | 1 => lockedWrite s v (b ≠ d.busOn) (setVd s v { d with busOn := b }) s
  | 2 => lockedWrite s v (b ≠ d.msixOn) (setVd s v { d with msixOn := b }) s
  | 3 => lockedWrite s v (b ≠ d.msixMask) (flushMsix (flushMsix (setVd s v { d with msixMask := b }) v 0) v 1) s
  | 4 => if s.phase < 6 then s else if (lockedFns s).isEmpty then { s with barBase := value } else if value = s.barBase then s else (lockedFns s).foldl tdispError s
  | _ => s

/-- A read of an item of configuration space (R397, R429, R453; log 32): physical function 0 answers from the end of step 1 of the bring-up, with the
VF BAR 0 base from step 6 on; a virtual function answers once it is there, but not during its reset. -/
def readConfig (s : State) (fn : Option Nat) (off : Nat) : State :=
  let bit (b : Bool) : State := send s (.data (natLe 4 (b2n b)))
  let open_ : State := send s (.data (natLe 4 (Config.configData fn off).toNat))
  match fn with
  | none => if off = 4 ∧ 6 ≤ s.phase then send s (.data (natLe 8 s.barBase)) else open_
  | some v =>
    let d := vdAt s v
    if !vfPresent s v ∨ inReset s v then s
    else match off with
    | 0 => bit d.memOn
    | 1 => bit d.busOn
    | 2 => bit d.msixOn
    | 3 => bit d.msixMask
    | _ => open_

/-! ### The debug agent's window (R369) -/

/-- The core and stream that the debug agent addresses, in a halted context (R369). -/
def agentTarget (s : State) : Option (Nat × StreamName) :=
  if (ctxAt s s.agentCtx).state ≠ .halted then none
  else (coreOfRank s s.agentCtx (bitField s.agentSel.toNat 0 32)).map fun c => (c, streamOfNum (bitField s.agentSel.toNat 32 2))

/-- The addressed stream changed. -/
def onAgentStream (s : State) (f : StreamName → Stream → Stream) : State := (agentTarget s).elim s fun p => updStream s p.1 p.2 (f p.2)

/-- A register of the agent's window: the context selector at 0, and from 0x40 the layout of R367, whose control, command and status read 0
(log 36). -/
def agentReg (s : State) (off : Nat) : Nat :=
  match off with
  | 0x00 => s.agentCtx
  | 0x48 => s.agentSel.toNat
  | 0x50 => (agentTarget s).elim 0 fun p => (streamOf (coreAt s p.1) p.2).pc.toNat
  | 0x58 => s.agentReg.toNat
  | 0x60 => (agentTarget s).elim 0 fun p =>
      if p.2 ≠ .c ∧ s.agentReg.toNat > 15 then 0 else (regOf (streamOf (coreAt s p.1) p.2) s.agentReg.toNat).toNat
  | 0x68 => s.agentX.toNat
  | _ => 0

/-- A write of the debug agent to its window (R369; log 36). -/
def writeAgent (s : State) (off value : Nat) : State :=
  let w := BitVec.ofNat 64 value
  match off with
  | 0x00 => { s with agentCtx := bitField value 0 9 }
  | 0x48 => { s with agentSel := BitVec.ofNat 64 (value % 2 ^ 34) }
  | 0x50 => onAgentStream s fun _ t => { t with pc := w }
  | 0x58 => if streamOfNum (bitField s.agentSel.toNat 32 2) ≠ .c ∧ bitField value 0 6 > 15 then s else { s with agentReg := BitVec.ofNat 64 (value % 64) }
  | 0x60 => onAgentStream s fun st t => if st ≠ .c ∧ s.agentReg.toNat > 15 then t else setRegOf t s.agentReg.toNat w
  | 0x68 => { s with agentX := w }
  | _ => s

/-! ### Health registers (R448, R449) -/

/-- A host write of a health register: TRIP is W1C (R449). -/
def writeHealth (s : State) (die value : Nat) : State :=
  if die < 4 ∧ bitAt value 51 then settleTrip (setHealth s die (setField (healthAt s die) 51 1 0)) die else s

/-- REGISTER_WRITE (R5). -/
def execRegisterWrite (site : RegSite) (off value : Nat) (s : State) : Outcome :=
  .next <| match site with
    | .bar v tee => hostWrite s v off tee (writeBar s v off (value % 2 ^ 64))
    | .config v => if off = 4 ∨ (vfPresent s v ∧ !inReset s v) then writeConfig s v off value else s
    | .agent => if s.phase = 7 then writeAgent s off value else s
    | .health die => if off = 0 ∧ s.phase = 7 then writeHealth s die value else s

/-- QTAIL_WRITE (R338). -/
def execQtailWrite (vd queue value : Nat) (tee : Option Nat) (s : State) : Outcome :=
  .next (if queue < 8 then hostWrite s vd 0x1000 tee (writeTail s vd queue value) else s)

/-- EVHEAD_WRITE (R345). -/
def execEvheadWrite (vd value : Nat) (tee : Option Nat) (s : State) : Outcome := .next (hostWrite s vd 0x1000 tee (hostEvhead s vd value))

/-- DBG_RETURN (R368). -/
def execDbgReturn (vd : Nat) (tee : Option Nat) (s : State) : Outcome := .next (hostWrite s vd 0x1000 tee (debugCommand s vd 1))
/-- DBG_STEP (R368). -/
def execDbgStep (vd : Nat) (tee : Option Nat) (s : State) : Outcome := .next (hostWrite s vd 0x1000 tee (debugCommand s vd 2))
/-- DBG_DISPLACED (R368). -/
def execDbgDisplaced (vd : Nat) (tee : Option Nat) (s : State) : Outcome := .next (hostWrite s vd 0x1000 tee (debugCommand s vd 3))
/-- DBG_KILL (R368). -/
def execDbgKill (vd : Nat) (tee : Option Nat) (s : State) : Outcome := .next (hostWrite s vd 0x1000 tee (debugCommand s vd 4))
/-- DBG_INVAL (R368). -/
def execDbgInval (vd : Nat) (tee : Option Nat) (s : State) : Outcome := .next (hostWrite s vd 0x1000 tee (debugCommand s vd 5))

/-! ### The memory window (R427) -/

/-- A failed access through the window: ERR, with the cause of the first failure. -/
def windowFailed (s : State) (v : Nat) (cause : Option Nat) : State :=
  let d := vdAt s v
  let n := d.winctl.toNat
  let n' := match cause with | some c => if bitAt n 10 then n else setField n 11 8 c | none => n
  setVd s v { d with winctl := BitVec.ofNat 64 (setField n' 10 1 1) }

/-- The context that the open window reaches. -/
def windowContext (s : State) (v : Nat) : Option Nat :=
  let w := (vdAt s v).winctl.toNat
  let k := bitField w 0 9
  if bitAt w 9 ∧ (ctxAt s k).state ≠ .free ∧ (ctxAt s k).vd = v then some k else none

/-- The physical address of an access through the window, its checks made (R427). -/
def windowSpot (s : State) (k va n : Nat) (stores : Bool) : Res Nat :=
  let a : Accessor := ⟨k, false, none, 0⟩
  match translate s a (if stores then .write else .read) va with
  | .error e => .error e
  | .ok (.absent l) => if pteClass l.entry = 3 then fault .deviceAccessSize else fault (if stores then .absentStore else .noMapping)
  | .ok (.here l pa) =>
    if pteClass l.entry = 3 then fault .deviceAccessSize
    else if pteClass l.entry = 2 && tenureStops s a stores va n then fault (if stores then .tenureConflictStore else .tenureTimeout)
    else (inTurn (checkTag s pa n (ctxAt s k).world va (!stores)) (if stores then storeErrors s pa n va else readErrors s pa n va)).map fun _ => pa

/-- A window access of `n` bytes that lies in one 4 KiB page (log 38), in a request that R430 accepts; a page under migration holds it where it has come
from (`requestHeld`, R412), and during a function-level reset it is not performed (R397). -/
def windowAccess (s : State) (v off n : Nat) (tee : Option Nat) (stores : Bool) (f : State → Nat → Nat → State) (refused failed : State → State) :
    State :=
  if !vfPresent s v ∨ 2 ^ 32 ≤ off ∨ n = 0 ∨ 4096 < off % 4096 + n then s
  else if inReset s v then (if stores then s else send s (.data (natLe n 0)))
  else if !barAccepts s v tee true then refused s
  else match windowContext s v with
  | none => failed (windowFailed s v none)
  | some k =>
    match windowSpot s k ((vdAt s v).winbase.toNat + off) n stores with
    | .ok pa => f s k pa
    | .error (.trap t) => failed (windowFailed (standHw s t.hw) v (some (causeCode t.cause)))
    | .error _ => s

/-- WINDOW_READ (R427). -/
def execWindowRead (vd off n : Nat) (tee : Option Nat) (s : State) : Outcome :=
  .next (windowAccess s vd off n tee false (fun s _ pa => send s (.data (physBytes s pa n))) (fun s => send s (.completion 1))
    fun s => send s (.completion 2))

/-- WINDOW_WRITE (R427). -/
def execWindowWrite (vd off : Nat) (bytes : List Byte) (tee : Option Nat) (s : State) : Outcome :=
  .next (windowAccess s vd off bytes.length tee true (fun s k pa => physWrite s pa bytes (ownerTag s k pa)) id id)

/-! ### The order of the host's requests (R412, R427) -/

/-- The function whose memory window an event reaches, or whose BAR 0 it writes. -/
def hostFunction : Turn → Option Nat
  | .event (.windowRead vd ..) | .event (.windowWrite vd ..) | .event (.qtailWrite vd ..) | .event (.evheadWrite vd ..)
  | .event (.registerWrite (.bar vd _) ..) | .event (.dbgReturn vd _) | .event (.dbgStep vd _) | .event (.dbgDisplaced vd _)
  | .event (.dbgKill vd _) | .event (.dbgInval vd _) | .act (.barWrite4 vd ..) => some vd
  | _ => none

/-- A window access of a function is held by a migration: it would be performed but for the page (R427). -/
def windowHeld (s : State) (v off n : Nat) (tee : Option Nat) (stores : Bool) : Bool :=
  vfPresent s v && decide (off < 2 ^ 32) && decide (n ≠ 0) && decide (off % 4096 + n ≤ 4096) && !inReset s v && barAccepts s v tee true &&
    (windowContext s v).any fun k => isBusy (windowSpot s k ((vdAt s v).winbase.toNat + off) n stores)

/-- A request of the host is held by a migration (R412). -/
def requestHeld (s : State) : Turn → Bool
  | .event (.windowRead vd off n tee) => windowHeld s vd off n tee false
  | .event (.windowWrite vd off bytes tee) => windowHeld s vd off bytes.length tee true
  | .event (.hallmarkContent slot _ va n) => s.phase = 7 && (ctxAt s slot).state = .idle && isBusy (agentLoad s slot va (n / 65536 + 2) n)
  | .event (.pageRequestDone ctx page _) => (s.pageReqs.any fun r => r.ctx = ctx && r.page = page) && isBusy (walk s ctx (page * 65536))
  | _ => false

/-- A request of a function waits behind an earlier one that is held (R427). -/
def waitsBehind (earlier : List Turn) (w : Turn) : Bool := (hostFunction w).any fun v => earlier.any fun u => hostFunction u = some v

/-- The first of the held requests that can be carried out now, in the order of each function. -/
def requestDue (s : State) : List Turn → List Turn → Option Turn
  | _, [] => none
  | before, w :: ws => if !waitsBehind before w && !requestHeld s w then some w else requestDue s (before ++ [w]) ws

/-! ### The function-level reset (R348, R397) -/

/-- The vaults of a virtual device's share (R143, R387). -/
def shareVaults (s : State) (v : Nat) : List Nat :=
  (upFrom 0 384).filter fun u =>
    let d := u / 96
    if d = vdHome s v then bitAt (vdField s v 64 96) (u % 96) else vdSpan s v d && bitAt (vdField s v (1040 + 128 * d) 96) (u % 96)


/-- Records read and not yet placed are dropped, with neither event nor completion word (R348). -/
def dropUnplaced (s : State) (v : Nat) : State :=
  { s with jobs := s.jobs.filter fun p => match p.2 with | some j => !(j.vd = v && unplaced j) | none => true }

/-- The contexts of a virtual device. -/
def vdContexts (s : State) (v : Nat) : List Nat := (s.ctxs.filter fun p => p.2.state ≠ .free && p.2.vd = v).map (·.1)

/-- A context at a function-level reset (R264, R286, R355, R397): IDLE, without tenures, handles or translations. -/
def resetContext (c : Context) : Context := { freeHandles c with state := .idle, tlb := [], haltPending := false }

/-- The registers of R337 and R345 at reset, RGEN raised, and a pause for migration discarded (R348, R398). -/
def resetRegisters (d : VDev) : VDev :=
  { d with queues := [], scheduled := false, evbase := 0, evctl := 0x24, evhead := 0, evtail := 0, rgen := (d.rgen + 1) % 2 ^ 16, held := [],
           paused := false, stopped := false, resetting := none }

/-- The completion words that are still to be incremented are reached through their queues' contexts as they stand (R135, R342, R348). -/
def keepVia (s : State) (v : Nat) : State :=
  { s with jobs := s.jobs.map fun p => (p.1, p.2.map fun j => if j.vd = v ∧ j.ending.isSome then { j with via := wordContext s j } else j) }

/-- Steps 3 to 6 of R397; the function's migrations end before step 5 (R421). -/
def resetFunction (s : State) (v : Nat) : State :=
  let s := keepVia (killVd s v (causeCode .flrKilled) 2) v
  let s := (s.migs.filter fun m => m.vd = v).foldl endMigration s
  let ks := vdContexts s v
  let s := ks.foldl (fun s k => deadFlows (dropHeld (setCtx s k (resetContext (ctxAt s k))) k) k) s
  let s := zeroVaults s (shareVaults s v)
  let s := (s.l2.filter fun p => p.2.any fun t => ks.contains t.ctx).foldl (fun s p => writeBackLine s p.1) s
  setVd s v (resetRegisters (vdAt s v))

/-- A function-level reset begins (R348, R397): the streams and queues of the virtual device stop, and records not yet placed are dropped. -/
def beginReset (s : State) (v : Nat) (stop : Bool) : State :=
  let s := dropUnplaced s v
  setVd s v { vdAt s v with resetting := some (s.now, stop) }

/-- FUNCTION_LEVEL_RESET (R397): a second one before the first completes is ignored (R398). -/
def execFunctionLevelReset (vd : Nat) (s : State) : Outcome := .next (if vfPresent s vd ∧ !inReset s vd then beginReset s vd false else s)

/-! ### TDISP (R428, R429, R431) -/

/-- A response of the security processor to a TDISP message: 0 error, 1 done, 2 the report, 16 and above the state (log 37). -/
def tdispAnswer (s : State) (v code : Nat) (r : Option Report) : State := { s with outbox := s.outbox ++ [.tdisp v code r] }

/-- The MMIO ranges of every report (R431). -/
def reportRanges : List MmioRange :=
  [⟨0, 0, 1, false, false, none⟩, ⟨0, 1, 2, true, false, some (2, 0x800)⟩, ⟨0, 3, 13, false, true, none⟩, ⟨2, 0, 2 ^ 20, true, false, none⟩]

/-- The interface report of a function (R431). -/
def reportOf (s : State) (v stream : Nat) : Report :=
  { noUpdate := true, noPasid := true, noAts := true, ranges := reportRanges, vd := v, part := vdPart s v,
    digests := (vdContexts s v).map fun k => (k, (ctxAt s k).hall), stream := stream }

/-- A stream may be bound: one that is, or fewer than 64 are (R428). -/
def streamFree (s : State) (stream : Nat) : Bool :=
  let bound := (s.vds.filterMap fun p => p.2.ide).eraseDups
  bound.contains stream || decide (bound.length < 64)

/-- The requests that a function-level reset lets run to completion (R397): engine instructions of the virtual device's jobs that no fault has
stopped. -/
def outstandingOn (s : State) (v : Nat) : Bool :=
  (vdJobs s v).any fun p => p.2.cores.any fun n =>
    let c := coreAt s n
    (c.qdata ++ c.qvec ++ c.qmat ++ c.qgrp).any fun e => !e.stopped

/-- A function-level reset goes on once nothing is outstanding, or 200 µs after its start (R397); the function is CONFIG_UNLOCKED, and a stop is
answered (R429). -/
def endReset (s : State) (v : Nat) : State :=
  match (vdAt s v).resetting with
  | none => s
  | some (t, stop) =>
    if outstandingOn s v && decide (s.now < t + 200 * usCycles) then s
    else
      let s := resetFunction s v
      let s := setVd s v { vdAt s v with tdisp := .unlocked, ide := none, report := none }
      if stop then tdispAnswer s v 1 none else s

/-- Every reset that may go on does. -/
def endResets (s : State) : State := (s.vds.map (·.1)).foldl endReset s

/-- LOCK_INTERFACE_REQUEST (R429): the RW-L fields are frozen, the stream bound and the report fixed. -/
def execLockInterfaceRequest (vd stream : Nat) (s : State) : Outcome :=
  let d := vdAt s vd
  .next <| if !vfPresent s vd then s
    else if d.tdisp = .unlocked ∧ !inReset s vd ∧ streamFree s stream then
      tdispAnswer (setVd s vd { d with tdisp := .locked, ide := some stream, report := some (reportOf s vd stream) }) vd 1 none
    else tdispAnswer s vd 0 none

/-- START_INTERFACE_REQUEST (R429). -/
def execStartInterfaceRequest (vd : Nat) (s : State) : Outcome :=
  let d := vdAt s vd
  .next <| if !vfPresent s vd then s
    else if d.tdisp = .locked ∧ !inReset s vd then tdispAnswer (setVd s vd { d with tdisp := .run }) vd 1 none
    else tdispAnswer s vd 0 none

/-- STOP_INTERFACE_REQUEST (R429): from any state but CONFIG_UNLOCKED, steps 1 to 6 of R397 run, and the answer follows them. -/
def execStopInterfaceRequest (vd : Nat) (s : State) : Outcome :=
  let d := vdAt s vd
  .next <| if !vfPresent s vd then s else match d.resetting with
    | some r => setVd s vd { d with resetting := some (r.1, true) }
    | none => if d.tdisp = .unlocked then tdispAnswer s vd 1 none else beginReset s vd true

/-- GET_DEVICE_INTERFACE_STATE (R429); a function that is not there yet answers nothing (R453). -/
def execGetDeviceInterfaceState (vd : Nat) (s : State) : Outcome :=
  .next (if vfPresent s vd then tdispAnswer s vd (16 + tdispNum (vdAt s vd).tdisp) none else s)

/-- GET_DEVICE_INTERFACE_REPORT (R429, R431). -/
def execGetDeviceInterfaceReport (vd : Nat) (s : State) : Outcome :=
  let d := vdAt s vd
  .next <| if !vfPresent s vd then s else match d.tdisp with
    | .locked | .run => tdispAnswer s vd 2 d.report
    | _ => tdispAnswer s vd 0 none

/-- IDE_FAILURE (R428, R429): every function bound to the stream moves to ERROR. -/
def execIdeFailure (stream : Nat) (s : State) : Outcome :=
  .next (((s.vds.filter fun p => p.2.ide = some stream).map (·.1)).foldl tdispError s)

end Sys2Proof.Machine
end

