-- ==== Sys2Proof/Machine/Waits.lean ====
section
/-! DEFINITION. When a pending wait is released, and the conditions of the local deadlock detector (R81, R317, R318). -/

namespace Sys2Proof.Machine

/-! ### Conditions of waits -/

/-- A tenure request of a context that meets no tenure, no seal and no earlier request (R272). -/
def requestReady (x : Context) (id : Nat) : Bool :=
  (x.requests.find? fun r => r.id = id).any fun r =>
    (tileAt x (handleIndex r.handle)).any fun t =>
      grantable x (handleIndex r.handle) t r.holder r.write (x.requests.takeWhile fun q => q.id ≠ id)

/-- A stream of a core as the accessor whose tenures its loads use (R283). -/
def loadAccessor (c : Core) : Accessor := ⟨c.ctx, false, c.job.map fun j => ⟨j, c.jobRank⟩, 0⟩

/-- The page of an address has no request and no migration of the context (R410, R411). -/
def pageSettled (s : State) (ctx va : Nat) : Bool :=
  !pageRequested s ctx va && !s.migs.any fun m => m.ctx = ctx && m.page = va / 65536

/-- The condition of a pending wait holds (R158, R272, R283, R299, R307, R314, R316, R317, R325, R328). -/
def waitHolds (s : State) (c : Core) (st : StreamName) (w : Wait) : Bool :=
  match w with
  | .takes ks => takesHold c (streamOf c st) ks
  | .sem k t => wrapGE (semAt c k) t
  | .pb k limit => decide (pbAt c k ≤ limit)
  | .ring n producer w => decide (w ≤ if producer then ringFree (ringAt c n) else ringFill (ringAt c n))
  | .tenure id => let x := ctxAt s c.ctx; requestReady x id || !x.requests.any fun r => r.id = id
  | .access va n => !tenureStops s (loadAccessor c) false va n
  | .lease => c.lease ≠ .reclaim
  | .group k => let g := groupAt c k; g.state = 1 && groupReady s g.key
  | .leave k => slotQuiet c k
  | .engines all bound => enginesDone c (if all then none else some st) bound
  | .sealing h bound => sealReady { s with core := c } h bound
  | .result _ => false
  | .page va => pageSettled s c.ctx va

/-- The words of a pending wait as a list, for the executing instruction. -/
def wordList (w : Word) : List Word32 := if w.toNat < 2 ^ 32 then [w.setWidth 32] else [w.setWidth 32, (w >>> 32).setWidth 32]

/-- A stream released from its wait issues its held instruction at the next step (R80, R81). -/
def releaseStream (s : State) (core : Nat) (st : StreamName) : State :=
  { updStream s core st (fun t => { t with state := .run, pending := none }) with pin := some (.stream core st) }

/-- An instruction past step 4 of R165 goes on with what it has sampled: to its ring claims and its queue, or to the next of these waits (R158,
R243). -/
def resumeReady (s : State) (p : Pending) (r : Ready) : State :=
  match claimAndQueue s r with
  | .ok t => advanceBy t 8
  | .error (.claim w _) => setCur (if w = .lease then postReclaim s else s) { curStream s with pending := some { p with on := w } }
  | .error _ => s

/-- A request that may be granted takes effect: the tenure is recorded and its TACQ completes, or it breaks a limit of R270 by now and its TACQ faults
(R270, R272, R276). -/
def grantRequest (s : State) (ctx id : Nat) : State :=
  let x := ctxAt s ctx
  match x.requests.find? fun r => r.id = id with
  | none => s
  | some r =>
    match tileAt x (handleIndex r.handle) with
    | none => s
    | some t =>
      if !requestReady x id then s
      else
        let x := { x with requests := x.requests.filter fun q => q.id ≠ id }
        if holdsTile t r.holder || decide (64 ≤ tenuresHeld x r.holder) then
          let s := setCtx s ctx x
          let w := streamOf (coreAt s r.core) r.stream
          raiseTrap s ⟨r.core, r.stream, 0, false, w.pc, heldWords w, w.pc⟩ { cause := .tileTooMany }
        else advanceBy { focusOn (setCtx s ctx (grantTenure x (handleIndex r.handle) t r.holder r.write)) r.core with cur := r.stream, words := [] } 4

/-- A pending wait whose condition holds is released: an instruction past its issue checks goes on, a fence completes, a TSEAL.DET takes effect, a
tenure is granted, a group forms, and any other instruction issues again. -/
def releaseWait (s : State) (core : Nat) (st : StreamName) (p : Pending) : State :=
  let at_ := { focusOn s core with cur := st, words := wordList p.words }
  match p.ready with
  | some r => resumeReady at_ p r
  | none =>
    match p.on with
    | .engines .. => advanceBy at_ 4
    | .sealing h _ => settle at_ ((sealHeld at_ h).map fun s => advanceBy s 4)
    | .tenure id =>
      let ctx := (coreAt s core).ctx
      if requestReady (ctxAt s ctx) id then grantRequest s ctx id else releaseStream s core st
    | .group k => formGroup s (groupAt (coreAt s core) k).key
    | _ => releaseStream s core st

/-! ### The watchdog (R319) -/

/-- The wait of a stream has lasted its watchdog's period, and its condition does not hold (R317, R319). -/
def watchdogDue (s : State) (core : Nat) (st : StreamName) : Bool :=
  let c := coreAt s core
  match (streamOf c st).state, (streamOf c st).pending with
  | .wait, some p => coreRuns s core && !waitHolds s c st p.on && decide (p.since + 2 ^ p.wexp ≤ s.now)
  | _, _ => false

/-! ### The deadlock detector (R318) -/

/-- A waiting tenure request that only its own core's tenures and requests hold back. -/
def tenureLocal (x : Context) (id : Nat) : Bool :=
  match x.requests.find? fun r => r.id = id with
  | none => false
  | some r =>
    match tileAt x (handleIndex r.handle) with
    | none => false
    | some t =>
      (x.tiles.all fun p => match p.2 with
        | none => true
        | some u => !((p.1 = handleIndex r.handle || tilesOverlap t u) && tenureConflicts r.holder r.write u) ||
            (u.readers ++ u.writer.toList).all (· = r.holder)) &&
      grantable { x with tiles := x.tiles.map fun p => (p.1, p.2.map fun u => { u with state := .none }) } (handleIndex r.handle) t r.holder r.write
        (x.requests.takeWhile fun q => q.id ≠ id)

/-- A pending wait is local (R318). -/
def waitLocal (s : State) (c : Core) (w : Wait) : Bool :=
  match w with
  | .takes _ | .sem .. | .pb .. | .ring .. | .engines .. | .sealing .. | .page _ => true
  | .tenure id => tenureLocal (ctxAt s c.ctx) id
  | .access .. | .lease | .group _ | .leave _ | .result _ => false

/-- A stream is MET, or waits on a local condition that does not hold. -/
def streamStuck (s : State) (c : Core) (st : StreamName) : Bool :=
  let t := streamOf c st
  match t.state, t.pending with
  | .met, _ => true
  | .wait, some p => waitLocal s c p.on && !waitHolds s c st p.on
  | _, _ => false

/-- The conditions of the detector on one core (R318). -/
def coreStuck (s : State) (c : Core) : Bool :=
  ticking s c && (allQueued c).isEmpty && engineStreams.all (streamStuck s c) && engineStreams.any fun st => (streamOf c st).state = .wait

/-- The detector of a core is due: its conditions have held for 1,024 cycles. -/
def detectorDue (s : State) (c : Core) : Bool := (c.stuckSince.any fun t => decide (t + 1024 ≤ s.now)) && coreStuck s c

/-- The cycle since which a core's detector has found its conditions. -/
def noteCore (s : State) (c : Core) : Core :=
  if c.job.isNone then c else { c with stuckSince := if coreStuck s c then some (c.stuckSince.getD s.now) else none }

/-- The detectors look at every core. -/
def noteStuck (s : State) : State :=
  { s with core := noteCore s s.core, others := s.others.map fun p => (p.1, noteCore s p.2) }

end Sys2Proof.Machine
end

