-- ==== Sys2Proof/Machine/LinkPort.lean ====
section
/-! DEFINITION. The fabric ports: parts that arrive from other packages, what comes back for the parts sent, and the limits of flows and links
(R302, R310, R311, R369, R413, R414, R432, R433, R436 to R439, R442). -/

namespace Sys2Proof.Machine

/-! ### The sender: outstanding parts (R311, R437) -/

/-- A core that owns parts replaced. -/
def setPortCore (s : State) (n : Nat) (c : Core) : State :=
  if n < coreCount then putCore s n c
  else match jobAt s (n / coreCount - 1) with
    | none => s
    | some j => setJob s (n / coreCount - 1) { j with image := j.image.set (n % coreCount) c }

/-- What a step on the executing core does, done on a core that owns parts: a saved core stands in for it meanwhile. -/
def withPort (s : State) (n : Nat) (f : State → State) : State :=
  if n < coreCount then focusOn (f (focusOn s n)) s.focus
  else match portCore s n with
  | none => s
  | some c =>
    let t := f { s with core := c, others := tabInsert s.others s.focus s.core }
    setPortCore { t with core := tabGet Core.reset t.others s.focus, others := tabErase t.others s.focus } n t.core


/-- The instruction and the number of the part of a flow with a sequence number: `part` is flow × 2^24 + sequence number. The parts of a flow in
ERROR have been abandoned (R435). -/
def findPart (c : Core) (part : Nat) : Option (QEntry × Nat) :=
  if flowState (flowAt c (part / 2 ^ 24)) = 2 then none
  else c.qdata.findSome? fun e =>
    if linkFlow e.instr = some (part / 2 ^ 24) then
      ((partsOf e).find? fun p => partStands p.2 && p.2.seq = part % 2 ^ 24).map fun p => (e, p.1)
    else none

/-- An entry of the data queue with a part replaced. -/
def putPart (c : Core) (e : QEntry) (p : Nat) (x : Part) : Core :=
  { c with qdata := c.qdata.map fun q => if q.seq = e.seq then { q with part := .parts (setPart (partsOf q) p x) } else q }

/-- A response that records a part performed on a core: a write lowers its counter, and the bytes of a read or an atomic await the local result
(R310, R441); for a saved core the port keeps the record until the resumption (R311). -/
def performedOn (saved : Bool) (c : Core) (part : Nat) (payload : List Byte) : Core :=
  match findPart c part with
  | none => c
  | some (e, p) =>
    let x := partAt (partsOf e) p
    if returnsBytes e then if payload.length = partSize e p then putPart c e p { x with back := some payload } else c
    else if saved then putPart c e p { x with back := some [] }
    else putPart (lowerPb c (flowAt c (part / 2 ^ 24)) (partSize e p)) e p (donePart e x)

/-- A held step of a context that is halted waits for its Unhalt (R369). -/
def holdFor (s : State) (k : Nat) (i : HeldStep) (r : State) : State :=
  if (ctxAt s k).state = .halted then { s with holding := s.holding ++ [(k, i)] } else r

/-- A step on a core that owns parts; the step is held while its job is halted. -/
def onPort (s : State) (n : Nat) (i : HeldStep) (f : State → Core → State) : State :=
  match portCore s n with
  | none => s
  | some c => if c.job.isNone then s else holdFor s c.ctx i (f s c)

/-- A part performed at its destination. -/
def partDone (s : State) (core part : Nat) (payload : List Byte) : State :=
  onPort s core (.performed core part payload) fun s c => setPortCore s core (performedOn (decide (coreCount ≤ core)) c part payload)

/-- A flow of a port's core in error (R311, R435). -/
def errorPort (s : State) (n : Nat) (flow : Nat) (seq : Option Nat) (cause : Cause) : State :=
  withPort s n fun s => if n < coreCount then errorFlow s flow seq cause .flowError else recordError s flow cause


/-- A part sent again from its port's copy (R437); a retransmission on a failed CRC is charged and does not wait (log 95). -/
def resend (s : State) (n : Nat) (c : Core) (e : QEntry) (p : Nat) (refusals crc : Nat) : State :=
  let flow := (linkFlow e.instr).getD 0
  let x := { partAt (partsOf e) p with state := .sent refusals crc, sentAt := s.now }
  let ms := partMessages s.package c (flowAt c flow) flow e p x
  let s := setPortCore s n (putPart c e p x)
  chargeSend { s with outbox := s.outbox ++ ms } (ctxAt s c.ctx).vd (flowPeer (flowAt c flow)) ms.length

/-- A refusal of a part (R437): without a hint, 0, it is final; 1 to 65,535 is a hint in microseconds; 65,536 says that the part's end-to-end CRC
failed. -/
def refusedOn (s : State) (n : Nat) (c : Core) (part hint : Nat) : State :=
  match findPart c part with
  | none => s
  | some (e, p) =>
    let flow := part / 2 ^ 24
    let x := partAt (partsOf e) p
    match x.state with
    | .sent refusals crc =>
      if hint = 0 then errorPort s n flow (some e.seq) .flowError
      else if hint < finalStatus then
        if refusals + 1 = 16 then errorPort s n flow (some e.seq) .remoteRefusedLimit
        else setPortCore s n (putPart c e p { x with state := .refused (s.now + hint * usCycles) (refusals + 1) })
      else if crc + 1 = 4 then errorPort s n flow (some e.seq) .linkDataCorrupt
      else resend s n c e p refusals (crc + 1)
    | _ => s

/-- A part refused. -/
def partRefusal (s : State) (core part hint : Nat) : State :=
  onPort s core (.refused core part hint) fun s c => refusedOn s core c part hint

/-- A part that has never been sent goes in its turn: within the window, behind the lower ones of an ORDERED flow, and against credits; a refused one has
kept its credits (R436, R445). -/
def mayGo (s : State) (c : Core) (flow : Nat) (e : QEntry) (p refusals : Nat) : Bool :=
  decide (refusals ≠ 0) ||
    (inWindow e p && !heldBefore c flow (partAt (partsOf e) p).seq && credited s (flowAt c flow) (partSize e p))

/-- A part that its port holds is sent: a refused one when its hint is over, one not yet sent when it may go (R436, R437, R445). -/
def resendOn (s : State) (n : Nat) (c : Core) (part : Nat) : State :=
  match findPart c part with
  | none => s
  | some (e, p) =>
    match (partAt (partsOf e) p).state with
    | .refused until_ refusals =>
      let flow := part / 2 ^ 24
      let port := sendingPort s (flowPeer (flowAt c flow))
      let vd := (ctxAt s c.ctx).vd
      if !decide (until_ ≤ s.now) || !mayGo s c flow e p refusals || !reachable s (flowPeer (flowAt c flow)) then s
      else if funded s 5 port vd then resend s n c e p refusals 0
      else shortPurse s 5 port vd
    | _ => s

/-- A port's core whose job is not halted. -/
def portRuns (s : State) (c : Core) : Bool := c.job.isSome && (ctxAt s c.ctx).state ≠ .halted

/-- A step of a port's core that a halt stops. -/
def whilePort (s : State) (n : Nat) (f : Core → State) : State :=
  match portCore s n with
  | none => s
  | some c => if portRuns s c then f c else s

/-- A part of a flow has had no response for 2 ms since its last sending (R437). -/
def partLate (now flow : Nat) (e : QEntry) : Bool :=
  linkFlow e.instr = some flow && (partsOf e).any fun p => match p.2.state with
    | .sent .. => p.2.back.isNone && decide (p.2.sentAt + 2000 * usCycles ≤ now)
    | _ => false

/-- A flow whose part is late ends in REMOTE_TIMEOUT (R437). -/
def timeoutOn (s : State) (n flow : Nat) (c : Core) : State :=
  (c.qdata.find? (partLate s.now flow)).elim s fun e => errorPort s n flow (some e.seq) .remoteTimeout

/-- An open frame whose fill time has passed is sent (R439). -/
def fillTimeout (s : State) (core flow : Nat) : State :=
  let s' := focusOn s core
  let f := flowAt s'.core flow
  if enginesRun s core && decide (flowRows f ≠ 0) && decide (f.since + flowFtim f * usCycles ≤ s.now) then closeFrame s' flow else s

/-- The wait of a DFENCEF for earlier writes passes its limit (R442). -/
def flagLateOn (s : State) (core : Nat) : State :=
  let s' := focusOn s core
  match workEntry s' .data with
  | none => s
  | some e =>
    let limit := ((e.hvals.drop 1).headD 0).toNat
    match e.instr, e.stall with
    | .dfencef .., some t =>
      if enginesRun s core && !e.stopped && decide (limit ≠ 0) && decide (t.1 + limit * usCycles ≤ s.now) then
        engineFault s' .data e { cause := .flagLate }
      else s
    | _, _ => s

/-! ### Links down (R326, R432, R433, R435) -/

/-- Every flow of a core to a package ends in LINK_DOWN. -/
def downFlows (pkg : Nat) (s : State) (n : Nat) : State :=
  (upFrom 0 16).foldl (fun s flow =>
    match portCore s n with
    | none => s
    | some c => let f := flowAt c flow; if flowState f = 1 ∧ flowPeer f = pkg then errorPort s n flow none .linkDown else s) s

/-- The keys of the groups of this package's members, with the other members' packages, that list a package. -/
def groupsWith (s : State) (pkg : Nat) : List (Nat × List Nat) :=
  ((portCores s).flatMap fun n => match portCore s n with
    | none => []
    | some c => c.groups.filterMap fun p =>
        if (p.2.state = 1 ∨ p.2.state = 2) ∧ p.2.members.contains pkg then some (p.2.key, p.2.members) else none).eraseDups

/-- A peer that no route reaches: its flows are in error, its parts held behind a gap are discarded, and its groups abort with reason 6 (R326,
R433, R435, R446). -/
def peerDown (s : State) (pkg : Nat) : State :=
  let s := { s with peersDown := setAdd pkg s.peersDown,
                    rxFlows := s.rxFlows.map fun p => (p.1, if keyPkg p.1 = pkg then { p.2 with held := [] } else p.2) }
  let s := (portCores s).foldl (downFlows pkg) s
  (groupsWith s pkg).foldl (fun s g => abortGroup s g.1 6 g.2) s

/-- The packages that flows and groups of this package name. -/
def peersNamed (s : State) : List Nat :=
  ((portCores s).flatMap fun n => match portCore s n with
    | none => []
    | some c => c.flows.map (fun p => flowPeer p.2) ++ c.groups.flatMap fun p => p.2.members).eraseDups.filter (· ≠ s.package)

/-- Peers that no route reaches any more are down (R433). -/
def dropUnreached (s : State) : State :=
  if s.portsDown.isEmpty && s.routes.isEmpty then s
  else ((peersNamed s).filter fun p => !s.peersDown.contains p && !reachable s p).foldl peerDown s

/-! ### The destination: accesses of a part (R302, R413, R437) -/

/-- What the port answers to an access: its result, or a status: a hint in microseconds, 65,536 for a final refusal, or `notYet`. -/
abbrev Landed (α : Type) := State × Except Nat α

/-- The status of an access whose request is not eligible yet: it waits, and nothing is answered (R391). -/
def notYet : Nat := 65537

/-- The frames that the walk of an address reaches: of its tables, and of its leaf (R404). -/
def walkFrames (s : State) (va t : Nat) : Nat → Nat → List Nat
  | 0, _ => []
  | fuel + 1, lv =>
    let at_ := t + 8 * bitField va (42 - 13 * lv) 13
    let e := leNat (physBytes s at_ 8)
    t / 65536 ::
      if !bitAt e 0 || pteBad e lv then []
      else if pteLeaf e then [leafPa ⟨e, at_, lv = 1⟩ va / 65536]
      else walkFrames s va (pteFrame e * 65536) fuel (lv + 1)

/-- The time left of the 40 µs of the migration that holds an access, of its page or of a frame that its walk reaches, rounded up and never 0
(R411, R413). -/
def migrationHint (s : State) (k va : Nat) : Nat :=
  let frames := walkFrames s va (ctxAt s k).table 3 0
  match s.migs.find? fun m => (m.ctx = k && m.page = va / 65536) || frames.contains m.old || m.frame.any frames.contains with
  | some m => max 1 (ceilDiv (m.since + 40 * usCycles - s.now) usCycles)
  | none => 40

/-- A final refusal; what a fault of the hardware does stands. -/
def refuseFinally {α : Type} (s : State) (t : TrapInfo) : Landed α := (standHw s t.hw, .error finalStatus)

/-- The physical address of an access of `n` bytes of one page, its checks made in the peer context (R413, R434, R437). -/
def landSpot (s : State) (k va n : Nat) (kind : Access) : Landed Nat :=
  let vd := (ctxAt s k).vd
  let a : Accessor := ⟨k, false, none, vdHome s vd⟩
  match translate s a kind va with
  | .error .busy => (s, .error (migrationHint s k va))
  | .error (.trap t) => refuseFinally s t
  | .error _ => (s, .error finalStatus)
  | .ok (.absent l) => if pteClass l.entry = 3 then (s, .error finalStatus) else (postPageRequest s k va l none, .error 100)
  | .ok (.here l pa) =>
    if pteClass l.entry = 3 then (s, .error finalStatus)
    else match classRule s a l va with
    | .error (.trap t) => refuseFinally s t
    | .error _ => (s, .error finalStatus)
    | .ok (s, tiled) =>
      if tiled && tenureStops s a (kind ≠ .read) va n then (s, .error (if kind = .read then 10 else finalStatus))
      else match inTurn (checkTag s pa n (ctxAt s k).world va (kind = .read))
          (if kind = .write then storeErrors s pa n va else readErrors s pa n va) with
      | .error (.trap t) => refuseFinally s t
      | .error _ => (s, .error finalStatus)
      | .ok () => match requestLines s vd a.die (linesOf pa n) with
        | .ok s => (s, .ok pa)
        | .error (.short kind inst vd die) => (shortAccess s kind inst vd die, .error notYet)
        | .error _ => (s, .error finalStatus)

/-- The physical pieces, address and length, of `n` bytes: every page passes before any byte is reached. -/
def landRange (s : State) (k : Nat) (kind : Access) : Nat → Nat → Nat → Landed (List (Nat × Nat))
  | 0, _, _ => (s, .ok [])
  | fuel + 1, va, n =>
    if n = 0 then (s, .ok []) else
    let here := min n (65536 - va % 65536)
    match landSpot s k va here kind with
    | (s, .error h) => (s, .error h)
    | (s, .ok pa) =>
      match landRange s k kind fuel (va + here) (n - here) with
      | (s, .ok r) => (s, .ok ((pa, here) :: r))
      | r => r

/-- Bytes written to physical pieces. -/
def writePieces (s : State) (k : Nat) : List (Nat × Nat) → List Byte → State
  | [], _ => s
  | (pa, n) :: r, bs => writePieces (physWrite s pa (bs.take n) (ownerTag s k pa)) k r (bs.drop n)

/-- The bytes of physical pieces. -/
def readPieces (s : State) (ps : List (Nat × Nat)) : List Byte := ps.flatMap fun p => physBytes s p.1 p.2

/-- A write of a part (R302). -/
def landWrite (s : State) (k va : Nat) (bs : List Byte) : Landed (List Byte) :=
  match landRange s k .write 2 va bs.length with
  | (s, .error h) => (s, .error h)
  | (s, .ok ps) => (writePieces s k ps bs, .ok [])

/-- A read of a part (R302). -/
def landRead (s : State) (k va n : Nat) : Landed (List Byte) :=
  match landRange s k .read 2 va n with
  | (s, .error h) => (s, .error h)
  | (s, .ok ps) => (s, .ok (readPieces s ps))

/-- A remote atomic of `n` bytes: an addition, or a comparison with an expected value (R414, R441). -/
def landAtomic (s : State) (k va n : Nat) (expected : Option (List Byte)) (value : List Byte) : Landed (List Byte) :=
  match landRange s k .atomic 2 va n with
  | (s, .error h) => (s, .error h)
  | (s, .ok ps) =>
    let old := readPieces s ps
    match expected with
    | none => (writePieces s k ps (natLe n (leNat old + leNat value)), .ok old)
    | some e => (if old = e then writePieces s k ps value else s, .ok old)

/-! ### Rows (R438) -/

/-- A 64-byte batch header's fields. -/
structure Batch where
  slotVa : Nat
  rb : Nat
  cap : Nat
  closed : Bool
  ovfCap : Nat
  ovfVa : Nat
  ovfCnt : Nat
  statVa : Nat
  deriving DecidableEq, Repr

def batchOf (bs : List Byte) : Batch :=
  let f (off n : Nat) := leNat ((bs.drop off).take n)
  ⟨f 0 8, f 8 4, f 0xC 4, f 0x10 4 ≠ 0, f 0x14 4, f 0x18 8, f 0x20 4, f 0x28 8⟩

/-- The first 16 bytes of an overflow entry (R438). -/
def overflowHead (slot pkg flow : Nat) : List Byte := natLe 4 slot ++ natLe 2 pkg ++ natLe 1 (flow % 16) ++ List.replicate 9 0

/-- A row placed when its first part arrives (R438): LANDED in its slot, or OVERFLOW in an entry taken by a fetch-add. A hint at the entry is
answered before the entry is taken (log 40). -/
def placeRow (s : State) (k pkg flow header slot rowLen : Nat) : Landed (Batch × Nat × Nat) :=
  match landRead s k header 64 with
  | (s, .error h) => (s, .error h)
  | (s, .ok bs) =>
    let b := batchOf bs
    if rowLen ≠ b.rb then (s, .error finalStatus)
    else if !b.closed && decide (slot < b.cap) then (s, .ok (b, b.slotVa + slot * b.rb, 1))
    else
      let entry := b.ovfVa + b.ovfCnt * (b.rb + 16)
      let early : Option (State × Nat) :=
        if b.ovfCnt < b.ovfCap then
          match landRange s k .write 2 entry 16 with
          | (s, .error h) => if h < finalStatus then some (s, h) else none
          | _ => none
        else none
      match early with
      | some (s, h) => (s, .error h)
      | none =>
        match landAtomic s k (header + 0x20) 4 none (natLe 4 1) with
        | (s, .error h) => (s, .error h)
        | (s, .ok _) =>
          if b.ovfCap ≤ b.ovfCnt then (s, .error finalStatus)
          else match landWrite s k entry (overflowHead slot pkg flow) with
          | (s, .error h) => (s, .error h)
          | (s, .ok _) => (s, .ok (b, entry + 16, 3))

/-- The bytes of a part of a row at their place; the last part of a row also writes its status byte (R438). -/
def landPiece (s : State) (k : Nat) (r : RxRow) (piece : Nat) (bs : List Byte) : Landed (List Byte) :=
  let status := r.left ≤ 1 && decide (r.statva ≠ 0) && decide (r.slot < r.cap)
  match (if status then landRange s k .write 2 (r.statva + r.slot) 1 else (s, .ok [])) with
  | (s, .error h) => (s, .error h)
  | (s, .ok _) =>
    match landWrite s k (r.va + piece * 224) bs with
    | (s, .error h) => (s, .error h)
    | (s, .ok x) => if status then ((landWrite s k (r.statva + r.slot) [BitVec.ofNat 8 r.status]).1, .ok x) else (s, .ok x)

/-- The place of a run in its part, how many there are, and what the part says (log 28). -/
def runPlace (p : RxPart) : Nat := p.arg % 2 ^ 16
def runCount (p : RxPart) : Nat := p.arg / 2 ^ 16 % 2 ^ 16 + 1
def partArg (p : RxPart) : Nat := p.arg / 2 ^ 64

/-- A part of a row lands (R438). A row refused before any part of it landed in its slot is placed anew when it is resent. -/
def landRow (s : State) (k key : Nat) (p : RxPart) : Landed (List Byte) :=
  let slot := bitField (partArg p) 1 32
  let piece := bitField (partArg p) 33 32
  let rowLen := partArg p / 2 ^ 65
  let first := (p.seq + 2 ^ 24 - piece) % 2 ^ 24
  let placed : Landed RxRow :=
    match s.rxRows.find? fun r => r.flow = key && r.first = first with
    | some r => (s, .ok r)
    | none =>
      match placeRow s k (keyPkg key) (keyFlow key) p.va slot rowLen with
      | (s, .error h) => (s, .error h)
      | (s, .ok (b, va, st)) =>
        let r : RxRow := ⟨key, first, va, slot, b.cap, b.statVa, st, ceilDiv rowLen 224⟩
        ({ s with rxRows := s.rxRows ++ [r] }, .ok r)
  match placed with
  | (s, .error h) => (s, .error h)
  | (s, .ok r) =>
    match landPiece s k r piece p.payload with
    | (s, .error h) =>
      if r.status = 1 && r.left = ceilDiv rowLen 224 then ({ s with rxRows := s.rxRows.filter fun q => q ≠ r }, .error h) else (s, .error h)
    | (s, .ok x) =>
      let others := s.rxRows.filter fun q => q ≠ r
      ({ s with rxRows := if r.left ≤ 1 then others else others ++ [{ r with left := r.left - 1 }] }, .ok x)

/-! ### Arrival (R302, R433, R436) -/

/-- A flow that no peer has opened here. -/
def RxFlow.fresh : RxFlow := ⟨false, 0, false, [], false⟩
def rxFlowAt (s : State) (key : Nat) : RxFlow := tabGet RxFlow.fresh s.rxFlows key
def setRxFlow (s : State) (key : Nat) (f : RxFlow) : State := { s with rxFlows := tabSet RxFlow.fresh s.rxFlows key f }

/-- The context of this package that is paired with a peer's (R434). -/
def localContext (s : State) (pkg ctx : Nat) : Option Nat := (s.pairings.find? fun p => p.2.1 = pkg && p.2.2 = ctx).map (·.1)


/-- The pieces of every run of a part: all of them pass before any byte is reached. -/
def landRuns (s : State) (k : Nat) (kind : Access) (len : RxPart → Nat) : List RxPart → Landed (List (List (Nat × Nat)))
  | [] => (s, .ok [])
  | p :: ps =>
    match landRange s k kind 2 p.va (len p) with
    | (s, .error h) => (s, .error h)
    | (s, .ok r) =>
      match landRuns s k kind len ps with
      | (s, .error h) => (s, .error h)
      | (s, .ok rs) => (s, .ok (r :: rs))

/-- A part, in its runs, performed in the peer context (R302, R433, R441). -/
def landPart (s : State) (k key : Nat) (ps : List RxPart) : Landed (List Byte) :=
  let p := ps.headD default
  match p.type with
  | 0 =>
    if partArg p % 2 = 1 then landRow s k key p
    else match landRuns s k .write (fun p => p.payload.length) ps with
    | (s, .error h) => (s, .error h)
    | (s, .ok rs) => ((ps.zip rs).foldl (fun s r => writePieces s k r.2 r.1.payload) s, .ok [])
  | 1 =>
    match landRuns s k .read partArg ps with
    | (s, .error h) => (s, .error h)
    | (s, .ok rs) => (s, .ok (rs.flatMap (readPieces s)))
  | _ =>
    let n := partArg p % 256
    if partArg p < 256 then landAtomic s k p.va n none p.payload
    else landAtomic s k p.va n (some (p.payload.drop n)) (p.payload.take n)


/-- The type of the response to a part that was performed: data of a read, the result of an atomic, or no more than that (R433). -/
def responseType (p : RxPart) : Nat := match p.type with | 1 => 2 | 3 => 4 | _ => 5

/-- A response sent for a virtual device, charged at its port (R388). -/
def reply (s : State) (k key seq type status : Nat) (bs : List Byte) : State :=
  respond (chargeSend s (ctxAt s k).vd (keyPkg key) (flitsOf bs.length)) key seq type status bs

/-- A part performed or refused, and its response, with its status: 0 says that it was performed. One whose access is not eligible changes nothing but
the purses, and waits at the port (R391). -/
def answerPart (s : State) (k key : Nat) (ps : List RxPart) : State × Nat :=
  let p := ps.headD default
  match landPart s k key ps with
  | (s, .ok bs) => (reply s k key p.seq (responseType p) 0 bs, 0)
  | (t, .error h) =>
    if h = notYet then
      ({ s with purses := t.purses,
                holding := s.holding ++ ps.map fun p => (k, .arrive (keyPkg key) (keyCtx key) (keyFlow key) p) }, h)
    else (reply t k key p.seq 5 h [], h)

/-- The runs of a part that a flow holds, in their order, once all are there. -/
def wholePart (f : RxFlow) (seq : Nat) : Option (List RxPart) :=
  let ps := sortBy (fun a b => decide (runPlace a ≤ runPlace b)) (f.held.filter fun p => p.seq = seq)
  match ps with
  | [] => none
  | p :: _ => if ps.length = runCount p then some ps else none

/-- Parts that are whole are performed, of an ORDERED flow in order up to the first that is refused; a final refusal discards what is held (R302, R435,
R436). -/
def drainFlow (k key : Nat) : Nat → State → State
  | 0, s => s
  | n + 1, s =>
    let f := rxFlowAt s key
    match (f.held.find? fun p => (!f.ordered || p.seq = f.next) && (wholePart f p.seq).isSome).bind fun p => wholePart f p.seq with
    | none => s
    | some ps =>
      let seq := (ps.headD default).seq
      let s := setRxFlow s key { f with held := f.held.filter fun p => p.seq ≠ seq }
      match answerPart s k key ps with
      | (s, 0) => drainFlow k key n (setRxFlow s key (let f := rxFlowAt s key; if f.ordered then { f with next := (seq + 1) % 2 ^ 24 } else f))
      | (s, h) => if h = finalStatus && f.ordered then setRxFlow s key { rxFlowAt s key with held := [] } else s

/-- A part, or a run of one, that reaches its destination's reorder buffer, or is performed on arrival. A peer sends against the credits of the port's
buffer, so no part is lost there (R436, log 117); one that has been performed before is not performed again. -/
def receivePart (s : State) (k key : Nat) (p : RxPart) : State :=
  let f := rxFlowAt s key
  if f.ordered && decide (2 ^ 23 ≤ (p.seq + 2 ^ 24 - f.next) % 2 ^ 24) then s
  else drainFlow k key (f.held.length + 1)
    (setRxFlow s key { f with held := (f.held.filter fun q => !(q.seq = p.seq && runPlace q = runPlace p)) ++ [p] })

/-- A control message of a peer's flow (R435): it is opened, with its mode, closed, or reset; on an error, 4, what is held behind a gap is
discarded. -/
def flowControl (s : State) (key what : Nat) : State :=
  let s := { s with rxRows := s.rxRows.filter fun r => r.flow ≠ key }
  setRxFlow s key (if what = 4 then { rxFlowAt s key with held := [] }
    else if what < 2 then { RxFlow.fresh with opened := true, ordered := what = 1 } else RxFlow.fresh)

/-- A message of a part arrives (R433): types 0, 1 and 3 are parts, 6 is control. A part without a pairing, for a context that is FREE or whose function is
being reset, or of a flow whose job here was killed is refused finally (R397, R437). -/
def arrive (s : State) (pkg ctx flow seq type va arg : Nat) (payload : List Byte) : State :=
  let key := rxKey pkg ctx (argRank arg) flow
  if type = 6 then flowControl s key (arg / 2 ^ 64 % 8)
  else if type ≠ 0 ∧ type ≠ 1 ∧ type ≠ 3 then s
  else match localContext s pkg ctx with
  | none => respond s key seq 5 finalStatus []
  | some k =>
    if (ctxAt s k).state = .free || inReset s (ctxAt s k).vd || (rxFlowAt s key).dead then respond s key (seq % 2 ^ 24) 5 finalStatus []
    else
      let p : RxPart := ⟨seq % 2 ^ 24, type, va, arg, payload⟩
      holdFor s k (.arrive pkg ctx flow p) (receivePart s k key p)

/-- A notice of an abandoned row (R438): its status byte is MISSING. It names the flow with the rank of its core, 16 × rank + flow (log 28). A function
that is being reset is not written (R397). -/
def rowMissing (s : State) (pkg ctx flow header slot : Nat) : State :=
  let key := rxKey pkg ctx (flow / 16) flow
  match localContext s pkg ctx with
  | none => s
  | some k =>
    if inReset s (ctxAt s k).vd then s else
    holdFor s k (.missing pkg ctx flow header slot) <|
      let later (p : Tab Purse) : State := { s with purses := p, holding := s.holding ++ [(k, .missing pkg ctx flow header slot)] }
      let t := { s with rxRows := s.rxRows.filter fun r => !(r.flow = key && r.slot = slot) }
      match landRead t k header 64 with
      | (t, .error h) => if h = notYet then later t.purses else t
      | (t, .ok bs) =>
        let b := batchOf bs
        if b.statVa ≠ 0 ∧ slot < b.cap then
          match landWrite t k (b.statVa + slot) [2] with
          | (t, .error h) => if h = notYet then later t.purses else t
          | (t, .ok _) => t
        else t

/-! ### Held steps (R369) -/

/-- A step for a context that has been held is performed. -/
def performHeld (s : State) (k : Nat) (i : HeldStep) : State :=
  match i with
  | .frame kill va n img =>
    match pasteRegion s k kill img 2 va 0 n with
    | .ok t => t
    | .error t => kill.elim t fun p => killJob t p.1 p.2
  | .arrive pkg ctx flow p => arrive s pkg ctx flow p.seq p.type p.va p.arg p.payload
  | .missing pkg ctx flow header slot => rowMissing s pkg ctx flow header slot
  | .performed core part payload => partDone s core part payload
  | .refused core part hint => partRefusal s core part hint

/-- What is held for contexts that are not halted is performed, in order of arrival (R369, R391). -/
def releaseHolding (s : State) : State :=
  let waits (p : Nat × HeldStep) : Bool := decide ((ctxAt s p.1).state = .halted) && !isFrame p.2
  let due := s.holding.filter fun p => !waits p
  if due.isEmpty then s else due.foldl (fun s p => performHeld s p.1 p.2) { s with holding := s.holding.filter waits }

/-! ### The steps -/

/-- REMOTE_PART_ARRIVE (R302, R436). -/
def execRemotePartArrive (pkg ctx flow seq type va arg : Nat) (payload : List Byte) (s : State) : Outcome :=
  .next (arrive s pkg ctx flow seq type va arg payload)
/-- ROW_MISSING_NOTICE (R438). -/
def execRowMissingNotice (pkg ctx flow header slot : Nat) (s : State) : Outcome := .next (rowMissing s pkg ctx flow header slot)
/-- PART_PERFORMED (R310, R311). -/
def execPartPerformed (core part : Nat) (payload : List Byte) (s : State) : Outcome := .next (partDone s core part payload)
/-- PART_REFUSED (R437). -/
def execPartRefused (core part hint : Nat) (s : State) : Outcome := .next (partRefusal s core part hint)
/-- PART_RESEND (R437). -/
def execPartResend (core part : Nat) (s : State) : Outcome := .next (whilePort s core fun c => resendOn s core c part)
/-- REMOTE_TIMEOUT (R437). -/
def execRemoteTimeout (core flow : Nat) (s : State) : Outcome := .next (whilePort s core fun c => timeoutOn s core flow c)
/-- FRAME_FILL_TIMEOUT (R439). -/
def execFrameFillTimeout (core flow : Nat) (s : State) : Outcome := .next (fillTimeout s core flow)
/-- FLAG_LATE (R442). -/
def execFlagLate (core : Nat) (s : State) : Outcome := .next (flagLateOn s core)
/-- LINK_DOWN (R433, R435). -/
def execLinkDown (pkg : Nat) (s : State) : Outcome := .next (peerDown s pkg)
/-- A fabric port goes down, after 8 retransmissions or on loss of lock; it counts as an uncorrectable error of the port (R433, R451). -/
def portDown (s : State) (port : Nat) : State :=
  if port < 32 then noteError { s with portsDown := setAdd port s.portsDown } (3072 + port) else s

/-- FLIT_CRC_FAIL (R433): after 8 retransmissions the port is down. -/
def execFlitCrcFail (port count : Nat) (s : State) : Outcome := .next (if 8 < count then portDown s port else s)
/-- CXL_LINK_DOWN (R432). -/
def execCxlLinkDown (port : Nat) (s : State) : Outcome :=
  .next (if port < 4 then { s with cxlDown := setAdd port s.cxlDown, outbox := s.outbox ++ [.error (causeCode .poisonCxl) 0 0 port] } else s)

/-! ### Groups (R325, R326, R331) -/


/-- The join of a member elsewhere arrives (R325): it is refused where a member here still holds the key, and it is compared when it is rank 0's. -/
def joinArrives (s : State) (pkg : Nat) (j : JoinRec) : State :=
  if keyStands s j.key then { s with outbox := s.outbox ++ [.group pkg j.key j.rank 3 4] }
  else if s.joins.any fun i => i.key = j.key && i.rank = j.rank then { s with outbox := s.outbox ++ [.group pkg j.key j.rank 3 2] }
  else compareJoins { s with joins := s.joins ++ [{ j with place := none }] } { j with place := none }

/-- The join of a member elsewhere is withdrawn (R326). -/
def joinWithdrawn (s : State) (key rank : Nat) : State :=
  { s with joins := s.joins.filter fun j => !(j.key = key && j.rank = rank && j.place.isNone) }

/-- A member elsewhere refuses the join of a member here (R325). -/
def joinRefused (s : State) (key rank reason : Nat) : State :=
  (s.joins.find? fun j => j.key = key && j.rank = rank && j.place.isSome).elim s fun j => abortGroup (refuseMember s reason j) key 7 j.members

/-- GROUP_FORMED (R325). -/
def execGroupFormed (key : Nat) (s : State) : Outcome := .next (formGroup s key)

/-- ABORT_NOTICE (R326). -/
def execAbortNotice (key reason : Nat) (s : State) : Outcome := .next (abortGroup s key reason [])

/-- GROUP_CONTRIBUTION_ARRIVE (R330, R331): a member's contribution stands in the staging areas of the members here. -/
def execGroupContributionArrive (c : Contribution) (s : State) : Outcome :=
  .next <| if keyHeld s c.key && !s.contribs.any (fun x => sameEntry x c && (x.sent || !c.sent)) then
      { s with contribs := (s.contribs.filter fun x => !sameEntry x c) ++ [c] } else s

end Sys2Proof.Machine
end

