-- ==== Sys2Proof/Machine/Manage.lean ====
section
/-! DEFINITION. Management requests of the host driver and of the system debug agent through the physical function, and the security processor's
bring-up and measurements (R247 to R254, R355, R362, R369 to R371, R383 to R389, R410, R420, R434, R451 to R453). -/

namespace Sys2Proof.Machine

/-! ### Answers (R249, R355, R453) -/

/-- An answer of the physical function. -/
def answer (s : State) (what value : Nat) : State := { s with outbox := s.outbox ++ [.answer what value] }
/-- A request that changes nothing, answered REFUSED. -/
def refused (s : State) : State := answer s 0 0
/-- A request answered DONE. -/
def done (s : State) : State := answer s 1 0
/-- A management request is accepted only after step 7 of the bring-up (R453). -/
def managed (s : State) (r : State) : Outcome := .next (if s.phase = 7 then r else s)
/-- A request whose conditions hold is carried out and answered DONE. -/
def onRequest (s : State) (ok : Bool) (r : State) : Outcome := managed s (if ok then done r else refused s)

/-! ### Hallmarks (R371) -/

/-- The bytes of a hallmark. -/
def hallmark (kind index data : Nat) (value : List Byte) : List Byte :=
  natLe 2 kind ++ natLe 2 0 ++ natLe 4 index ++ natLe 8 data ++ padTo 64 value

/-- The digest of a list of hallmarks. -/
def digestOf (marks : List (List Byte)) : List Word :=
  let d := marks.foldl (fun d m => sha256 (d ++ m)) (List.replicate 32 0)
  (upFrom 0 4).map fun n => BitVec.ofNat 64 (leNat ((d.drop (8 * n)).take 8))

/-- The record that opens the list of every context (R453 step 3). -/
def firmwareMark (s : State) : List Byte := hallmark 1 0 (bitField s.fwVersion 0 32) s.fwHash

/-- The record made at Create. -/
def contextMark (world vd part policy : Nat) : List Byte := hallmark 2 1 (world + vd * 2 ^ 8 + part * 2 ^ 17 + policy % 8 * 2 ^ 23) []

/-! ### Contexts (R353, R355, R369, R370) -/

/-- POLICY of a new context: without CONF, debug and halt are permitted (R370). -/
def policyOf (p : Nat) : Nat := if bitAt p 2 then p % 8 else 3

/-- What a Create names is in range (R353, R355, R373, R404). -/
def createFits (s : State) (slot vd world table savebase saven : Nat) : Bool :=
  decide (slot < 512) && (ctxAt s slot).state = .free && decide (vd < 384) && decide (world < 256) && table % 65536 = 0 && decide (table < 2 ^ 52) &&
  savebase % 2 ^ 20 = 0 && decide (savebase < 2 ^ 55) && decide (1 ≤ bitField saven 0 11) && decide (bitField saven 0 11 ≤ 1536) &&
  decide (bitField saven 16 7 ≤ 96) && bitField saven 11 5 = 0 && decide (saven < 2 ^ 23) &&
  s.ctxs.all fun p => p.2.state = .free || p.2.vd ≠ vd || p.2.world = world

/-- The frame of a virtual device's register view (R402). -/
def viewFrame (vd : Nat) : Nat := 0x800000000 + vd

/-- CONTEXT_CREATE (R355, R371): the register view of the virtual device belongs to its world (R402), and the firmware writes the CSRs of level P, each by
its map (R354, R373). -/
def execContextCreate (slot vd world table policy savebase : Nat) (regs : PrivRegs) (s : State) : Outcome :=
  let p := policyOf policy
  let marks := [firmwareMark s, contextMark world vd (vdPart s vd) p]
  let word (n : Nat) : Word := BitVec.ofNat 64 n
  onRequest s (createFits s slot vd world table savebase regs.saven) <|
    setCtx (changePot s (viewFrame vd) ⟨world, 1⟩) slot
      { Context.reset with
        state := .idle, vd := vd, world := world, table := table, policy := word p, marks := marks, hall := digestOf marks,
        savebase := word savebase, saven := word regs.saven, tvec := tvecWritten 0 (word regs.tvec), tvlen := tvlenWritten 0 (word regs.tvlen),
        tdel0 := word regs.tdel0, tdel1 := mergeBits 0 (word regs.tdel1) 0xFFFFFFFF }


/-- Halt of a context in each of its states (R355, R369). -/
def haltContext (s : State) (k : Nat) : State :=
  match (ctxAt s k).state with
  | .running => agentStatus (haltRunning s k)
  | .saved => setCtx s k { ctxAt s k with haltPending := true }
  | _ => s

/-- CONTEXT_HALT (R355, R369, R370). -/
def execContextHalt (slot : Nat) (s : State) : Outcome :=
  let c := ctxAt s slot
  onRequest s (c.state ≠ .free && (!ctxConf c || c.policy.getLsbD 1)) (haltContext s slot)

/-- Unhalt of a context: what the halt held is performed, and a job that is all met retires (R80, R355, R369). -/
def unhaltContext (s : State) (k : Nat) : State :=
  match (ctxAt s k).state with
  | .halted =>
    let s := releaseHolding (unhaltCores s k)
    match (ctxAt s k).job with | some n => retireIfMet s n | none => s
  | _ => setCtx s k { ctxAt s k with haltPending := false }

/-- CONTEXT_UNHALT (R355, R369). -/
def execContextUnhalt (slot : Nat) (s : State) : Outcome :=
  onRequest s (match (ctxAt s slot).state with | .halted | .saved => true | _ => false) (unhaltContext s slot)

/-- Destroy of a context: as a function-level reset of it, and its slot is FREE (R355, R371). -/
def destroyContext (s : State) (k : Nat) : State :=
  let s := match (ctxAt s k).job with | some n => killJobFor s n (causeCode .flrKilled) 2 | none => s
  let s := dropHeld s k
  setCtx { s with cached := s.cached.filter fun p => p.ctx ≠ k, pairings := s.pairings.filter fun p => p.1 ≠ k } k Context.reset

/-- CONTEXT_DESTROY (R355). -/
def execContextDestroy (slot : Nat) (s : State) : Outcome := onRequest s ((ctxAt s slot).state ≠ .free) (destroyContext s slot)

/-- HALLMARK_CONTENT (R371): a range of an IDLE context is measured; an access that a migration holds keeps the request waiting. -/
def execHallmarkContent (slot label va n : Nat) (s : State) : Outcome :=
  let c := ctxAt s slot
  if c.state ≠ .idle then managed s (refused s)
  else match agentLoad s slot va (n / 65536 + 2) n with
  | .error .busy => .next s
  | .ok (.ok bs) =>
    let marks := c.marks ++ [hallmark 3 c.marks.length (label % 2 ^ 64) (sha512 bs)]
    onRequest s true (setCtx s slot { c with marks := marks, hall := digestOf marks })
  | r => managed s (refused (absorb s r))

/-! ### Adapters (R247 to R254) -/

/-- An entry with STATE replaced. -/
def attWithState (e st : Nat) : Nat := setField e 20 3 st

/-- The fields of an entry that an install gives (R247). -/
def installFits (s : State) (index entry : Nat) : Bool :=
  decide (index < 2 ^ 20) && attState (attAt s index) = 0 && decide (entry < 2 ^ 316) &&
  (match fmtOfCode (bitField entry 14 6) with
    | some f => f = .e4m3 || f = .e5m2 || f = .e2m1 || f = .i8 || f = .i4s || f = .bf16 || f = .f16
    | none => false) &&
  attLayers entry ≠ 0 && attKf entry ≠ 0 && attNf entry ≠ 0 && attTag entry ≠ 0

/-- The entry as it is installed: STATE by HOME, VERSION 1, no references and no previous version (R247, R249). -/
def installed (entry : Nat) : Nat :=
  setField (setField (setField (setField (setField (attWithState entry (attHomeState entry)) 72 24 1) 96 24 0) 120 24 0) 144 24 0) 220 52 0

/-- ADAPTER_INSTALL (R247, R249). -/
def execAdapterInstall (index entry : Nat) (s : State) : Outcome :=
  onRequest s (installFits s index entry) (setAtt s index (installed entry))

/-- The pages of an adapter's current version. -/
def adapterPages (e : Nat) : Nat := attLayers e * layerPages e
/-- The physical address of an entry of the current version's page table. -/
def factorEntry (e page : Nat) : Nat := attCptr e + 8 * page
def factorPa (s : State) (e page : Nat) : Nat := bitField (leNat (physBytes s (factorEntry e page) 8)) 0 52

/-- The entry and the page of each page of the current version from `p` on can be fetched for the adapter's world (R248, R254, R261). -/
def factorsRead (s : State) (e : Nat) : Nat → Nat → Res Unit
  | 0, _ => .ok ()
  | n + 1, p =>
    inTurn (inTurn (factorRead s (attWorld e) (factorEntry e p) 8) (factorRead s (attWorld e) (factorPa s e p) 65536)) (factorsRead s e n (p + 1))

/-- A page moved to a frame of the other tier, under new counters, and the page table's entry rewritten (R249, R417). -/
def movePage (s : State) (e page frame : Nat) : State :=
  let pa := factorPa s e page
  let s := stepLines (writeBackRange s pa 65536) (linesOf (frame * 65536) 65536)
  let s := { s with mem := tabPaste s.mem (frame * 65536) 65536 (tabSlice s.mem pa 65536 (frame * 65536)), l2 := tabClear s.l2 (frame * 512) 512,
                    lineErr := tabClear s.lineErr (frame * 512) 512 }
  physWrite s (factorEntry e page) (natLe 8 (frame * 65536)) (ownerTag s 0 (factorEntry e page))

/-- ADAPTER_MOVE_HOME (R249): the request names the frames of the other tier that receive the pages (log 41). An ABSENT entry has none, and pages that
cannot be read are refused (log 18). -/
def execAdapterMoveHome (index : Nat) (pages : List Nat) (s : State) : Outcome :=
  let e := attAt s index
  if attState e = 0 then onRequest s true s else
  let home := 1 - attHome e
  let fits := pages.length = adapterPages e &&
    pages.all fun f => paTier (f * 65536) = some home && (checkPot s (f * 65536) (attWorld e) false false 0).isOk
  let read := factorsRead s e pages.length 0
  if fits && !read.isOk then managed s (refused (absorb s read))
  else onRequest s fits <|
    let s := ((upFrom 0 pages.length).zip pages).foldl (fun s p => movePage s e p.1 p.2) s
    let e := setField e 23 1 home
    setAtt s index (if attState e = 1 ∨ attState e = 2 then attWithState e (attHomeState e) else e)

/-- The places of the pin pool of a die that hold no page (R254). -/
def pinPlaces (s : State) (die : Nat) : List Nat :=
  ((tabGet [] s.pinPools die).flatMap fun v => (upFrom 0 64).map fun k => (die * 96 + v) * 4194304 + k * 65536).filter fun a =>
    s.pinned.all fun p => p.place ≠ a

/-- A page copied into a pin pool. -/
def pinPage (index e die : Nat) (s : State) (p : Nat × Nat) : State :=
  { s with vaults := tabPaste s.vaults p.2 65536 (tabSlice s.mem (factorPa s e p.1) 65536 p.2),
           pinned := s.pinned ++ [⟨die, index, attVersion e, p.1, p.2⟩] }

/-- Every page of the current version copied into the pin pool of each die. -/
def pinAll (s : State) (index e : Nat) : State :=
  (upFrom 0 4).foldl (fun s die => ((upFrom 0 (adapterPages e)).zip (pinPlaces s die)).foldl (pinPage index e die) s) s

/-- ADAPTER_PIN (R249, R254). Factors whose pages cannot be read are refused (log 18). -/
def execAdapterPin (index : Nat) (s : State) : Outcome :=
  let e := attAt s index
  match attState e with
  | 0 | 5 => managed s (refused s)
  | 4 => onRequest s true s
  | _ =>
    let fits := (upFrom 0 4).all fun die => decide (adapterPages e ≤ (pinPlaces s die).length)
    let read := factorsRead s e (adapterPages e) 0
    if fits && !read.isOk then managed s (refused (absorb s read))
    else onRequest s fits (setAtt (pinAll s index e) index (attWithState e 4))

/-- The pinned copies of an adapter dropped. -/
def dropPins (s : State) (index : Nat) : State := { s with pinned := s.pinned.filter fun p => p.adapter ≠ index }
/-- A slot is bound to an adapter. -/
def attBound (e : Nat) : Bool := decide (0 < attCrefs e + attOrefs e)

/-- ADAPTER_UNPIN (R249). -/
def execAdapterUnpin (index : Nat) (s : State) : Outcome :=
  let e := attAt s index
  onRequest s (attState e ≠ 0) <|
    if attState e = 4 then setAtt (dropPins s index) index (attWithState e (if attBound e then 3 else attHomeState e)) else s

/-- An entry made ABSENT: no handle resolves to it (R249). -/
def retireEntry (s : State) (index : Nat) : State := setAtt s index (setField (attWithState (attAt s index) 0) 272 44 0)

/-- ADAPTER_RETIRE (R249). -/
def execAdapterRetire (index : Nat) (s : State) : Outcome :=
  let e := attAt s index
  onRequest s (attState e ≠ 0) <| match attState e with
    | 3 => setAtt s index (attWithState e 5)
    | 4 => if attBound e then setAtt (dropPins s index) index (attWithState e 5) else retireEntry (dropPins s index) index
    | 5 => s
    | _ => retireEntry s index

/-! ### Partitions (R383, R384, R393) -/

/-- The partition's record as it was last written. -/
def partNow (s : State) (p : Nat) : Nat := (tabGet none s.partsNew p).getD (tabGet 0 s.parts p)
/-- The clusters, vaults and ways of a record: bits of GCL and MCL, of GVA and the margin vaults, of GWAY and MWAY. -/
def recClusters (r : Nat) : Nat := bitField r 0 48 ||| bitField r 48 48
def recMarginVaults (r : Nat) : Nat := (upFrom 0 48).foldl (fun n u => if bitAt r (48 + u) then n ||| (3 * 2 ^ (2 * u)) else n) 0
def recVaults (r : Nat) : Nat := bitField r 96 96 ||| recMarginVaults r
def recWays (r : Nat) : Nat := bitField r 192 16 ||| bitField r 208 16

/-- A set of units of a die meets the fenced ones, whose numbers run from `base`. -/
def meetsFenced (s : State) (base n set : Nat) : Bool := (upFrom 0 n).any fun i => bitAt set i && s.fenced.contains (base + i)

/-- The vaults of a die's pin pool. -/
def pinSet (s : State) (die : Nat) : Nat := (tabGet [] s.pinPools die).foldl (fun n v => n ||| 2 ^ v) 0

/-- A partition record that the firmware accepts (R384). -/
def partitionFits (s : State) (p r : Nat) : Bool :=
  let die := p / 16
  decide (p < 64) && (bitField r 0 48 &&& bitField r 48 48) = 0 && (recMarginVaults r &&& bitField r 96 96) = 0 &&
  (bitField r 192 16 &&& bitField r 208 16) = 0 &&
  ((upFrom (die * 16) 16).all fun q =>
    q = p || [tabGet 0 s.parts q, partNow s q].all fun o =>
      (recClusters r &&& recClusters o) = 0 && (recVaults r &&& recVaults o) = 0 && (recWays r &&& recWays o) = 0) &&
  !meetsFenced s (die * 48) 48 (recClusters r) && !meetsFenced s (1024 + die * 96) 96 (recVaults r) &&
  !meetsFenced s (2048 + die * 16) 16 (recWays r) && (recVaults r &&& pinSet s die) = 0

/-- A job that uses a partition is resident, on whichever die: its virtual device has the partition at home, or as a span partition (R384, R387). -/
def partitionBusy (s : State) (p : Nat) : Bool :=
  (upFrom 0 coreCount).any fun c =>
    let x := coreAt s c
    let v := (ctxAt s x.ctx).vd
    x.job.isSome && vdUsesDie s v (p / 16) && vdPartOn s v (p / 16) = p

/-- A record that waits for its partition to come to rest (R384). -/
def recordWaits (s : State) (q : Nat × Option Nat) : Bool := q.2.isSome && partitionBusy s q.1

/-- The lent clusters of a partition revoked, and with them their vaults and its ways (R393). -/
def revokePart (s : State) (p : Nat) : State :=
  (upFrom 0 48).foldl (fun s u => if bitAt (partField s p 48 48) u then revokeUnit s (p / 16 * 48 + u) else s) s

/-- A record takes effect: what is still lent under the one before it is revoked (R384, R393). -/
def adoptPart (s : State) (p r : Nat) : State :=
  let s := revokePart s p
  { s with parts := tabSet 0 s.parts p r, partsNew := tabSet none s.partsNew p none }

/-- Records whose partitions have come to rest take effect (R384). -/
def applyParts (s : State) : State :=
  (s.partsNew.filter fun q => !recordWaits s q).foldl (fun s q => q.2.elim s (adoptPart s q.1)) s

/-- PARTITION_RECORD_WRITE (R383, R384, R393). -/
def execPartitionRecordWrite (part value : Nat) (s : State) : Outcome :=
  let r := bitField value 0 226
  onRequest s (partitionFits s part r) (applyParts { revokePart s part with partsNew := tabSet none s.partsNew part (some r) })

/-! ### Virtual devices (R385 to R389) -/

/-- A set lies within another. -/
def within (a b : Nat) : Bool := (a &&& b) = a

/-- A field of a VD record. -/
def rcdSpan (r d : Nat) : Bool := bitAt r (1030 + 128 * d)
def rcdHome (r : Nat) : Nat := bitField r 0 6 / 16
def rcdUses (r d : Nat) : Bool := d = rcdHome r || rcdSpan r d
def rcdPartOn (r d : Nat) : Nat := if d = rcdHome r then bitField r 0 6 else bitField r (1024 + 128 * d) 6
def rcdShareOn (r d : Nat) : Nat := if d = rcdHome r then bitField r 64 96 else bitField r (1040 + 128 * d) 96
def rcdCache (r d : Nat) : Nat := bitField r (1536 + 96 * d) 96

/-- The terms of a record on one die (R386, R387). -/
def rcdFitsOn (s : State) (r d : Nat) : Bool :=
  let p := rcdPartOn r d
  let gva := bitField (partNow s p) 96 96
  let gway := bitField (partNow s p) 192 16
  (if d = rcdHome r then !rcdSpan r d && within (bitField r 32 16) gway && within (bitField r 64 96) gva
   else !rcdSpan r d || (p / 16 = d && within (bitField r (1040 + 128 * d) 96) gva && within (bitField r (1136 + 128 * d) 16) gway)) &&
  (if rcdUses r d then within (rcdCache r d) gva && (rcdCache r d &&& rcdShareOn r d) = 0 else rcdCache r d = 0) &&
  decide (bitField r (1031 + 128 * d) 9 ≤ 384)

/-- The capacity of an arbiter in a period, by kind (R388). -/
def arbiterCapacity : Nat → Nat
  | 0 => 5120 | 1 => 1024 | 2 => 32768 | 3 => 14628 | 4 => 2212 | _ => 256

/-- The records as they were last written, with one replaced. -/
def rcdsWith (s : State) (v r : Nat) : List Nat := r :: (s.vds.filter fun p => p.1 ≠ v).map fun p => p.2.rcdNew

/-- The sum of FILL of a kind over some records. -/
def fillSum (kind : Nat) (rs : List Nat) : Nat := rs.foldl (fun n r => n + bitField r (512 + 64 * kind) 16) 0

/-- No arbiter is promised more than its capacity (R388). -/
def fillsFit (rs : List Nat) : Bool :=
  ((upFrom 0 4).all fun kind => (upFrom 0 4).all fun d => decide (fillSum kind (rs.filter fun r => rcdUses r d) ≤ arbiterCapacity kind)) &&
  (upFrom 4 2).all fun kind => decide (fillSum kind rs ≤ arbiterCapacity kind)

/-- The bits of a VD record that are not reserved (R385, R389). -/
def rcdWritten (v : Nat) : Nat :=
  let clear (r lo n : Nat) : Nat := setField r lo n 0
  let r := clear (clear (clear (bitField v 0 1920) 48 16) 160 96) 896 128
  (upFrom 0 6).foldl (fun r k => clear r (512 + 64 * k + 34) 30) r

/-- A VD record that the firmware accepts (R386 to R388). -/
def rcdFits (s : State) (v r : Nat) : Bool :=
  decide (v < 384) && decide (bitField r 22 9 ≤ 384) && (upFrom 0 4).all (rcdFitsOn s r) && fillsFit (rcdsWith s v r)

/-- VD_RECORD_WRITE (R385 to R388): in force at the virtual device's next schedule, its purses at the next refill. -/
def execVdRecordWrite (vd value : Nat) (s : State) : Outcome :=
  let r := rcdWritten value
  onRequest s (rcdFits s vd r) (setVd s vd { vdAt s vd with rcdNew := r })

/-- PSTS of a purse (R389). -/
def pstsOf (p : Purse) : Nat := (p.bal % 2 ^ 17).toNat + p.bor * 2 ^ 17 + b2n p.idle * 2 ^ 33 + b2n p.short * 2 ^ 34

/-- PSTS_QUERY (R389). -/
def execPstsQuery (kind inst vd : Nat) (s : State) : Outcome :=
  managed s (if inst < arbiterCount kind ∧ vd < 384 then answer s 2 (pstsOf (purseAt s kind inst vd)) else refused s)

/-! ### Pools and pairings (R254, R410, R434) -/

/-- A frame stands in some pool. -/
def pooled (s : State) (f : Nat) : Bool := s.vds.any fun p => p.2.hbmPool.contains f || p.2.cxlPool.contains f

/-- FRAME_POOL_GIVE (R410): FREE frames of the tier that no pool holds. -/
def execFramePoolGive (vd tier : Nat) (frames : List Nat) (s : State) : Outcome :=
  let fits := decide (vd < 384) && decide (tier < 2) && frames.eraseDups = frames &&
    frames.all fun f => paTier (f * 65536) = some tier && frameMapped s f && (potAt s f).state = 0 && !pooled s f
  onRequest s fits (setVd s vd (setPool (vdAt s vd) tier (poolOf (vdAt s vd) tier ++ frames)))

/-- PIN_POOL_GIVE (R254): vaults of a die that belong to no partition's units and are not fenced. -/
def execPinPoolGive (die : Nat) (vaults : List Nat) (s : State) : Outcome :=
  let owned := (upFrom (die * 16) 16).foldl (fun n p => n ||| recVaults (tabGet 0 s.parts p) ||| recVaults (partNow s p)) 0
  let fits := decide (die < 4) && vaults.all fun v => decide (v < 96) && !bitAt owned v && !s.fenced.contains (1024 + die * 96 + v)
  onRequest s fits { s with pinPools := tabSet [] s.pinPools die (vaults.foldl (fun l v => setAdd v l) (tabGet [] s.pinPools die)) }

/-- FLOW_PAIRING (R434): the peer context of a context at a package. -/
def execFlowPairing (ctx pkg peer : Nat) (s : State) : Outcome :=
  onRequest s (decide (ctx < 512) && (ctxAt s ctx).state ≠ .free && decide (pkg < 4096) && decide (peer < 512))
    { s with pairings := (s.pairings.filter fun p => !(p.1 = ctx && p.2.1 = pkg)) ++ [(ctx, pkg, peer)] }

/-! ### Units and frames (R393, R396, R420, R451) -/

/-- A unit that the package has (R451). -/
def unitFits (u : Nat) : Bool :=
  decide (u < 192) || (decide (1024 ≤ u) && decide (u < 1408)) || (decide (2048 ≤ u) && decide (u < 2112)) ||
  (decide (3072 ≤ u) && decide (u < 3104)) || (decide (3584 ≤ u) && decide (u < 3588))


/-- FENCE_UNIT (R451). -/
def execFenceUnitRequest (unit : Nat) (s : State) : Outcome := onRequest s (unitFits unit) (fenceUnit s unit)

/-- A quarantined frame initialised again (R420): zeros under a major counter from the epoch, which is past any that its blocks have had (R417), sound
metadata, and its earlier owner's. A frame that no world owned is again what it was. -/
def reinitFrame (s : State) (f : Nat) : State :=
  let was := tabGet 0 s.earlier f / 256
  let epoch := (upFrom (f * 4) 4).foldl (fun n b => max n (tabGet 0 s.majors b + 1)) s.epoch
  let s := { s with epoch := epoch, mem := tabClear s.mem (f * 65536) 65536, l2 := tabClear s.l2 (f * 512) 512, lineErr := tabClear s.lineErr (f * 512) 512,
                    majors := tabSetRange 0 s.majors (f * 4) (List.replicate 4 epoch), minors := tabClear s.minors (f * 512) 512,
                    treeDirty := (upFrom (f * 4) 4).foldl (fun l b => setAdd b l) s.treeDirty,
                    metaErr := s.metaErr.filter fun p => !(upFrom (f * 4) 4).any fun b => underNode p.1 (errorLevel p.2) (b * 16384),
                    earlier := tabSet 0 s.earlier f 0 }
  changePot s f ⟨(potAt s f).owner, if was = 0 ∨ was = 5 then was else 1⟩

/-- QUARANTINE_REINIT (R420). -/
def execQuarantineReinit (frames : List Nat) (s : State) : Outcome :=
  onRequest s (frames.all fun f => (potAt s f).state = 4) (frames.foldl reinitFrame { s with epoch := s.epoch + 1 })

/-- MIGRATION_PAUSE (R347, R362). -/
def execMigrationPause (vd : Nat) (s : State) : Outcome :=
  onRequest s (decide (vd < 384)) <|
    (vdJobs s vd).foldl (fun s p => pauseJob s p.1) (setVd s vd { vdAt s vd with paused := true })

/-- MARGIN_REVOKE (R393). -/
def execMarginRevoke (unit : Nat) (s : State) : Outcome := onRequest s (decide (unit < 192)) (revokeUnit s unit)

/-! ### Bring-up and evidence (R371, R452, R453) -/

/-- An image that the security processor runs (R452): both signatures over its SHA-512 hash verify, and its version is at least the fused minimum. -/
def imageRuns (s : State) (i : FwImage) : Bool :=
  let h := sha512 i.bytes
  Config.ed25519Verifies h i.ed25519 && Config.mlDsaVerifies h i.mlDsa && decide (s.fwFused ≤ i.version.toNat)

/-- The package at the end of step 1 of the bring-up (R453). What survives is what no reset touches; the package's number among the fabric's
packages, and the fabric and CXL ports that will not train, come with the reset (log 107). -/
def resetPackage (s : State) (package : Nat) (ports cxl : List Nat) : State :=
  { State.reset with turn := s.turn, tick := s.tick, now := s.now, outbox := s.outbox, package := package % 4096, epoch := s.epoch, fwFused := s.fwFused,
                     idSeed := s.idSeed, flash := s.flash, firstBoot := s.firstBoot, ageing := s.ageing, fwVersion := 0, fwHash := [],
                     portsDown := ports.filter (· < 32), cxlDown := cxl.filter (· < 4), identity := false, phase := 1 }

/-- PACKAGE_RESET (R453). -/
def execPackageReset (package : Nat) (ports cxl : List Nat) (s : State) : Outcome := .next (resetPackage s package ports cxl)

/-- The next step of the bring-up (R453): it stays in recovery while the flash holds no image that runs. -/
def bringUpStep (s : State) : State :=
  match s.phase with
  | 1 => if imageRuns s s.flash then { s with phase := 2 } else s
  | 2 => { s with phase := 3, fwVersion := s.flash.version.toNat, fwHash := sha512 s.flash.bytes }
  | 3 => { s with phase := 4 }
  | 4 => { s with phase := 5, pot := [], majors := [], minors := [], treeCtrs := [], treeDirty := [] }
  | 5 => { s with phase := 6 }
  | 6 => { s with phase := 7, identity := true }
  | _ => s

/-- RECOVERY_IMAGE_SUPPLY (R452): in recovery, an image that verifies is written to the flash, and bring-up goes on from step 3. -/
def execRecoveryImageSupply (version : BitVec 32) (bytes : List Byte) (signatures : List Byte × List Byte) (s : State) : Outcome :=
  let image : FwImage := ⟨version, bytes, signatures.1, signatures.2⟩
  .next (if s.phase = 1 ∧ !imageRuns s s.flash ∧ imageRuns s image then { s with flash := image, phase := 2 } else s)

/-- The firmware fails at run time: every job is killed (R452). -/
def failFirmware (s : State) : State :=
  ((jobList s).filter fun p => standing p.2).foldl (fun s p => killJob s p.1 (causeCode .firmwareFault)) s

/-- The bytes of evidence that both signatures cover: the measurement records and their digest (R371, R453). -/
def evidence (marks : List (List Byte)) : List Byte := marks.flatten ++ (digestOf marks).flatMap fun w => natLe 8 w.toNat

/-- SPDM_MESSAGE (R371, R453): the measurement records of a context and their digest, the identity certificate, and both signatures; of a FREE slot,
the records of the firmware alone. -/
def execSpdmMessage (slot : Nat) (s : State) : Outcome :=
  let c := ctxAt s slot
  let marks := if c.state = .free then [firmwareMark s] else c.marks
  let e := evidence marks
  .next (if s.identity then
      send s (.spdm marks (digestOf marks) (Config.certificate s.idSeed) (Config.ed25519Sign s.idSeed e) (Config.mlDsaSign s.idSeed e))
    else s)

end Sys2Proof.Machine
end

