-- ==== Sys2Proof/Machine/After.lean ====
section
/-! DEFINITION. What happens after every turn: what halts held is performed, partition records come into force, detectors look, and time passes. -/

namespace Sys2Proof.Machine

/-- A core whose deadlock detector is due. -/
def dueCore (s : State) : Option Nat :=
  if detectorDue s s.core then some s.focus else (s.others.find? fun p => detectorDue s p.2).map (·.1)

/-- The first stream of a core whose wait has lasted its watchdog's period. -/
def dueStream (s : State) (n : Nat) : Option (Nat × StreamName) :=
  (engineStreams.find? (watchdogDue s n)).map fun st => (n, st)

/-- A detector that is due, or else a watchdog, or else a request of the host that a migration has held, acts in the next step (R318, R319, R321, R412,
R427), unless that belongs to another step already. -/
def pinDue (s : State) : State :=
  if s.pin.isSome then s
  else match dueCore s with
  | some n => { s with pin := some (.event (.syncDeadlock n)) }
  | none =>
    let watch : Option Turn := ((s.focus :: s.others.map (·.1)).findSome? (dueStream s)).map fun w => .event (.waitTimeout w.1 w.2)
    { s with pin := watch.orElse fun _ => requestDue s [] s.hostHeld }

/-- The end of a step (R3, R318, R319, R326, R369, R384, R397). -/
def endStep (s : State) : State := pinDue (passTime (noteStuck (endResets (applyParts (revokeFenced (dropUnreached (releaseHolding (joinFaults (writeAdvanced s)))))))))

end Sys2Proof.Machine
end

