-- ==== Sys2Proof/Machine/Integer.lean ====
section
/-! DEFINITION. The scalar integer instructions (R94 to R101). -/

namespace Sys2Proof.Machine

/-- An instruction that writes a function of two registers (R95). -/
def alu2 (s : State) (gd ga gb : Nat) (f : Word → Word → Word) : Outcome := finish (writeReg s gd (f (readReg s ga) (readReg s gb)))
/-- An instruction that writes a function of one register (R95, R98). -/
def alu1 (s : State) (gd ga : Nat) (f : Word → Word) : Outcome := finish (writeReg s gd (f (readReg s ga)))
/-- A truth value as a word. -/
def wordOf (b : Bool) : Word := if b then 1 else 0
/-- A shift amount: bits [5:0] (R95). -/
def shiftBits (x : Word) : Nat := x.toNat % 64
/-- Bits [127:64] of an exact product. -/
def highHalf (p : Int) : Word := BitVec.ofInt 64 (p / 2 ^ 64)
/-- An instruction that faults on a divisor of 0 (R96). -/
def divide (s : State) (gd ga gb : Nat) (f : Word → Word → Word) : Outcome :=
  if readReg s gb = 0 then .next (trapCur s { cause := .divideByZero }) else alu2 s gd ga gb f

/-- CLZ (R95). -/
def leadingZeros (x : Word) : Nat := if x = 0 then 64 else 63 - x.toNat.log2
/-- CTZ (R95). -/
def trailingZeros (x : Word) : Nat := ((upFrom 0 64).find? fun i => x.getLsbD i).getD 64
/-- POPC (R95). -/
def onesCount (x : Word) : Nat := ((upFrom 0 64).filter fun i => x.getLsbD i).length

/-- The field of BFX (R97). -/
def fieldOut (a sel : Word) : Word :=
  let wid := bitField sel.toNat 8 7
  BitVec.ofNat 64 (a.toNat / 2 ^ shiftBits sel % 2 ^ wid)
/-- The insertion of BFI (R97). -/
def fieldIn (d a sel : Word) : Word :=
  let mask := BitVec.ofNat 64 ((2 ^ bitField sel.toNat 8 7 - 1) * 2 ^ shiftBits sel)
  (d &&& ~~~mask) ||| ((a <<< shiftBits sel) &&& mask)

/-- ADD (R95). -/
def execAdd (gd ga gb : Nat) (s : State) : Outcome := alu2 s gd ga gb (· + ·)
/-- SUB (R95). -/
def execSub (gd ga gb : Nat) (s : State) : Outcome := alu2 s gd ga gb (· - ·)
/-- MUL (R95). -/
def execMul (gd ga gb : Nat) (s : State) : Outcome := alu2 s gd ga gb (· * ·)
/-- MULH (R95). -/
def execMulh (gd ga gb : Nat) (s : State) : Outcome := alu2 s gd ga gb fun a b => highHalf (a.toInt * b.toInt)
/-- MULHN (R95). -/
def execMulhn (gd ga gb : Nat) (s : State) : Outcome := alu2 s gd ga gb fun a b => highHalf (a.toNat * b.toNat : Nat)
/-- DIV (R95, R96). -/
def execDiv (gd ga gb : Nat) (s : State) : Outcome := divide s gd ga gb fun a b => a.sdiv b
/-- DIVN (R95, R96). -/
def execDivn (gd ga gb : Nat) (s : State) : Outcome := divide s gd ga gb fun a b => a.udiv b
/-- REM (R95, R96). -/
def execRem (gd ga gb : Nat) (s : State) : Outcome := divide s gd ga gb fun a b => a.srem b
/-- AND (R95). -/
def execAnd (gd ga gb : Nat) (s : State) : Outcome := alu2 s gd ga gb (· &&& ·)
/-- OR (R95). -/
def execOr (gd ga gb : Nat) (s : State) : Outcome := alu2 s gd ga gb (· ||| ·)
/-- XOR (R95). -/
def execXor (gd ga gb : Nat) (s : State) : Outcome := alu2 s gd ga gb (· ^^^ ·)
/-- SHL (R95). -/
def execShl (gd ga gb : Nat) (s : State) : Outcome := alu2 s gd ga gb fun a b => a <<< shiftBits b
/-- SHR (R95). -/
def execShr (gd ga gb : Nat) (s : State) : Outcome := alu2 s gd ga gb fun a b => a >>> shiftBits b
/-- SAR (R95). -/
def execSar (gd ga gb : Nat) (s : State) : Outcome := alu2 s gd ga gb fun a b => a.sshiftRight (shiftBits b)
/-- MIN (R95). -/
def execMin (gd ga gb : Nat) (s : State) : Outcome := alu2 s gd ga gb fun a b => if b.slt a then b else a
/-- MAX (R95). -/
def execMax (gd ga gb : Nat) (s : State) : Outcome := alu2 s gd ga gb fun a b => if a.slt b then b else a
/-- MINN (R95). -/
def execMinn (gd ga gb : Nat) (s : State) : Outcome := alu2 s gd ga gb fun a b => if b.ult a then b else a
/-- MAXN (R95). -/
def execMaxn (gd ga gb : Nat) (s : State) : Outcome := alu2 s gd ga gb fun a b => if a.ult b then b else a
/-- SLT (R95). -/
def execSlt (gd ga gb : Nat) (s : State) : Outcome := alu2 s gd ga gb fun a b => wordOf (a.slt b)
/-- SLTN (R95). -/
def execSltn (gd ga gb : Nat) (s : State) : Outcome := alu2 s gd ga gb fun a b => wordOf (a.ult b)
/-- SEQ (R95). -/
def execSeq (gd ga gb : Nat) (s : State) : Outcome := alu2 s gd ga gb fun a b => wordOf (a == b)
/-- SEL (R95): gd is the condition before it is written. -/
def execSel (gd ga gb : Nat) (s : State) : Outcome := alu2 s gd ga gb fun a b => if readReg s gd ≠ 0 then a else b
/-- CLZ (R95). -/
def execClz (gd ga : Nat) (s : State) : Outcome := alu1 s gd ga fun a => BitVec.ofNat 64 (leadingZeros a)
/-- CTZ (R95). -/
def execCtz (gd ga : Nat) (s : State) : Outcome := alu1 s gd ga fun a => BitVec.ofNat 64 (trailingZeros a)
/-- POPC (R95). -/
def execPopc (gd ga : Nat) (s : State) : Outcome := alu1 s gd ga fun a => BitVec.ofNat 64 (onesCount a)
/-- BFX (R97). -/
def execBfx (gd ga gb : Nat) (s : State) : Outcome := alu2 s gd ga gb fieldOut
/-- BFI (R97). -/
def execBfi (gd ga gb : Nat) (s : State) : Outcome := alu2 s gd ga gb (fieldIn (readReg s gd))
/-- ADDI (R98). -/
def execAddi (gd ga : Nat) (imm : Imm) (s : State) : Outcome := alu1 s gd ga (· + BitVec.ofInt 64 imm.val)
/-- ANDI (R98). -/
def execAndi (gd ga : Nat) (imm : Imm) (s : State) : Outcome := alu1 s gd ga (· &&& BitVec.ofInt 64 imm.val)
/-- ORI (R98). -/
def execOri (gd ga : Nat) (imm : Imm) (s : State) : Outcome := alu1 s gd ga (· ||| BitVec.ofInt 64 imm.val)
/-- XORI (R98). -/
def execXori (gd ga : Nat) (imm : Imm) (s : State) : Outcome := alu1 s gd ga (· ^^^ BitVec.ofInt 64 imm.val)
/-- SHLI (R98). -/
def execShli (gd ga sh : Nat) (s : State) : Outcome := alu1 s gd ga (· <<< sh)
/-- SHRI (R98). -/
def execShri (gd ga sh : Nat) (s : State) : Outcome := alu1 s gd ga (· >>> sh)
/-- SARI (R98). -/
def execSari (gd ga sh : Nat) (s : State) : Outcome := alu1 s gd ga (·.sshiftRight sh)
/-- LI (R99). -/
def execLi (gd : Nat) (imm : Imm) (s : State) : Outcome := finish (writeReg s gd (BitVec.ofInt 64 imm.val))
/-- LIH (R99): the immediate, 16 or 44 bits wide, into the high bits of gd. -/
def execLih (gd : Nat) (imm : Imm) (s : State) : Outcome :=
  let w := if imm.ext then 44 else 16
  finish (writeNat s gd (setField (readReg s gd).toNat (64 - w) w imm.val.toNat))
/-- ADDPC (R100). -/
def execAddpc (gd : Nat) (imm : Imm) (s : State) : Outcome := finish (writeReg s gd (curPc s + BitVec.ofInt 64 imm.val))

end Sys2Proof.Machine
end

