-- ==== Sys2Proof/Machine/Memory.lean ====
section
/-! DEFINITION. The scalar loads and stores, and the atomics (R111 to R122). -/

namespace Sys2Proof.Machine

/-- A load of `n` bytes into a register, through a function of the value read (R112). -/
def load (s : State) (gd ga : Nat) (imm : Imm) (n : Nat) (f : Nat → Nat) : Outcome :=
  run s ((scalarLoad s (effAddr s ga imm) n).map fun r => writeNat r.1 gd (f (leNat r.2)))

/-- A store of the low `n` bytes of a register (R113). -/
def store (s : State) (gd ga : Nat) (imm : Imm) (n : Nat) : Outcome :=
  run s (scalarStore s (effAddr s ga imm) (natLe n (readReg s gd).toNat))

/-- LD.1S (R112). -/
def execLd1s (gd ga : Nat) (imm : Imm) (s : State) : Outcome := load s gd ga imm 1 fun v => truncBits (signExt v 8) 64
/-- LD.1Z (R112). -/
def execLd1z (gd ga : Nat) (imm : Imm) (s : State) : Outcome := load s gd ga imm 1 fun v => v
/-- LD.2S (R112). -/
def execLd2s (gd ga : Nat) (imm : Imm) (s : State) : Outcome := load s gd ga imm 2 fun v => truncBits (signExt v 16) 64
/-- LD.2Z (R112). -/
def execLd2z (gd ga : Nat) (imm : Imm) (s : State) : Outcome := load s gd ga imm 2 fun v => v
/-- LD.4S (R112). -/
def execLd4s (gd ga : Nat) (imm : Imm) (s : State) : Outcome := load s gd ga imm 4 fun v => truncBits (signExt v 32) 64
/-- LD.4Z (R112). -/
def execLd4z (gd ga : Nat) (imm : Imm) (s : State) : Outcome := load s gd ga imm 4 fun v => v
/-- LD.8 (R112). -/
def execLd8 (gd ga : Nat) (imm : Imm) (s : State) : Outcome := load s gd ga imm 8 fun v => v
/-- LD.16 (R112): gd from bytes 0 to 7, then gd + 1 from bytes 8 to 15. -/
def execLd16 (gd ga : Nat) (imm : Imm) (s : State) : Outcome :=
  run s ((scalarLoad s (effAddr s ga imm) 16).map fun r => writeNat (writeNat r.1 gd (leNat (r.2.take 8))) (gd + 1) (leNat (r.2.drop 8)))

/-- ST.1 (R113). -/
def execSt1 (gd ga : Nat) (imm : Imm) (s : State) : Outcome := store s gd ga imm 1
/-- ST.2 (R113). -/
def execSt2 (gd ga : Nat) (imm : Imm) (s : State) : Outcome := store s gd ga imm 2
/-- ST.4 (R113). -/
def execSt4 (gd ga : Nat) (imm : Imm) (s : State) : Outcome := store s gd ga imm 4
/-- ST.8 (R113). -/
def execSt8 (gd ga : Nat) (imm : Imm) (s : State) : Outcome := store s gd ga imm 8
/-- ST.16 (R113): gd into bytes 0 to 7, then gd + 1 into bytes 8 to 15. -/
def execSt16 (gd ga : Nat) (imm : Imm) (s : State) : Outcome :=
  run s (scalarStore s (effAddr s ga imm) (natLe 8 (readReg s gd).toNat ++ natLe 8 (readReg s (gd + 1)).toNat))

/-! ### Atomics (R118 to R122) -/

/-- One indivisible read-modify-write of `n` bytes at an effective address: `f` gives the value to store, or none (R118, R119, R121). -/
def atomicAt (s : State) (ea : Word) (n : Nat) (f : Nat → Option Nat) : Res (State × Nat) :=
  match placeOf ea with
  | .nowhere => faultVa .noMapping ea.toNat
  | p =>
    if ea.toNat % n ≠ 0 then faultVa .atomicAlign ea.toNat
    else match p with
    | .spad off =>
      match spadLoad s off n with
      | .error e => .error e
      | .ok bs => match f (leNat bs) with
        | none => .ok (s, leNat bs)
        | some v => (spadStore s off (natLe n v)).map fun s => (s, leNat bs)
    | .vault a ok =>
      if !ok then fault .vaultRange else
      match vaultLoad s a n with
      | .error e => .error e
      | .ok bs => match f (leNat bs) with
        | none => .ok (s, leNat bs)
        | some v => (vaultStore s a (natLe n v)).map fun s => (s, leNat bs)
    | .virt va =>
      (memAtomic s (curAccessor s) va n).map fun r =>
        match f r.2.2 with
        | none => (r.1, r.2.2)
        | some v => (physWrite r.1 r.2.1 (natLe n v) (tagOf r.1 (curAccessor s) r.2.1), r.2.2)
    | .nowhere => faultVa .noMapping ea.toNat

/-- The new value of an AMO of `n` bytes (R118). -/
def amoValue (op : AmoOp) (n old v : Nat) : Nat :=
  let so := signExt old (8 * n)
  let sv := signExt v (8 * n)
  match op with
  | .add => (old + v) % 2 ^ (8 * n)
  | .min => if sv < so then v else old
  | .max => if so < sv then v else old
  | .minn => Nat.min old v
  | .maxn => Nat.max old v
  | .and => old &&& v
  | .or => old ||| v
  | .xor => old ^^^ v
  | .xchg => v

/-- AMO of `n` bytes (R118). -/
def amo (s : State) (op : AmoOp) (gd ga gb n : Nat) : Outcome :=
  let v := (readReg s gb).toNat % 2 ^ (8 * n)
  run s ((atomicAt s (readReg s ga) n fun old => some (amoValue op n old v)).map fun r => writeNat r.1 gd r.2)

/-- ACAS of `n` bytes (R119). -/
def acas (s : State) (gd ga gb n : Nat) : Outcome :=
  let want := (readReg s gd).toNat % 2 ^ (8 * n)
  let v := (readReg s gb).toNat % 2 ^ (8 * n)
  run s ((atomicAt s (readReg s ga) n fun old => if old = want then some v else none).map fun r => writeNat r.1 gd r.2)

/-- AMO.4 (R118). -/
def execAmo4 (op : AmoOp) (gd ga gb : Nat) (s : State) : Outcome := amo s op gd ga gb 4
/-- AMO.8 (R118). -/
def execAmo8 (op : AmoOp) (gd ga gb : Nat) (s : State) : Outcome := amo s op gd ga gb 8
/-- ACAS.4 (R119). -/
def execAcas4 (gd ga gb : Nat) (s : State) : Outcome := acas s gd ga gb 4
/-- ACAS.8 (R119). -/
def execAcas8 (gd ga gb : Nat) (s : State) : Outcome := acas s gd ga gb 8

end Sys2Proof.Machine
end

