-- ==== Sys2Proof/Machine/Queue.lean ====
section
/-! DEFINITION. The queue instructions of the C stream (R350 to R352). -/

namespace Sys2Proof.Machine

/-- The queue number in a register: bits [2:0] (R351, R352). -/
def queueNum (w : Word) : Nat := bitField w.toNat 0 3
def queueDev (q : Queue) : Bool := q.qctl.getLsbD 5
def queueEn (q : Queue) : Bool := q.qctl.getLsbD 6
/-- The records that wait in a ring, modulo 2^32 (R337). -/
def queueWaiting (q : Queue) (tail : Nat) : Nat := (tail + 2 ^ 32 - progSeen q) % 2 ^ 32

/-- The executing stream as it reaches the ring of a queue: through the translation of the queue's context (R342). -/
def ringAccessor (s : State) (v q : Nat) : Option Accessor :=
  (queueContext s v q).map fun k =>
    let a := curAccessor s
    if k = a.ctx then a else { a with ctx := k, who := none }

/-- A record with VDN set to a virtual device (R351). -/
def withVdn (bs : List Byte) (v : Nat) : List Byte := bs.take 0x28 ++ natLe 2 v ++ bs.drop 0x2A

/-- The record appended: the slot is written and the shadow tail advances (R351). -/
def appendRecord (s : State) (v q : Nat) (bs : List Byte) : Res State :=
  let x := queueAt s v q
  let slot := x.qbase.toNat + 64 * (x.tail % 2 ^ qlog x)
  match ringAccessor s v q with
  | none => faultVa .noMapping slot
  | some a =>
    (memStore s a slot (withVdn bs v)).map fun s =>
      let x := queueAt s v q
      setQueue s v q { x with tail := (x.tail + 1) % 2 ^ 32 }

/-- LAUNCH and LAUNCH.TRY (R351). -/
def launch (s : State) (gd ga gb : Nat) (tryForm : Bool) : Outcome :=
  let v := (curCtx s).vd
  let q := queueNum (readReg s gb)
  let x := queueAt s v q
  run s <|
    if !queueEn x || !queueDev x then fault .launchBad
    else if queueWaiting x x.tail ≥ 2 ^ qlog x then
      if tryForm then .ok (writeNat s gd (2 ^ 63)) else fault .queueFull
    else match scalarLoad s (readReg s ga) 64 with
    | .error e => .error e
    | .ok (s, bs) => (appendRecord s v q bs).map fun s => writeNat s gd x.tail

/-- LAUNCH (R351). -/
def execLaunch (gd ga gb : Nat) (s : State) : Outcome := launch s gd ga gb false
/-- LAUNCH.TRY (R351). -/
def execLaunchTry (gd ga gb : Nat) (s : State) : Outcome := launch s gd ga gb true

/-- What QSTAT writes (R352). -/
def queueStatus (q : Queue) (sel : QSel) : Nat :=
  match sel with
  | .tail => q.tail
  | .prog => progSeen q + b2n q.stale * 2 ^ 32
  | .done => doneSeen q
  | .state => qlog q + b2n (queueDev q) * 2 ^ 5 + b2n (queueEn q) * 2 ^ 6 + bitField (qstsSeen q) 0 4 * 2 ^ 7

/-- QSTAT (R352). -/
def execQstat (sel : QSel) (gd ga : Nat) (s : State) : Outcome :=
  finish (writeNat s gd (queueStatus (queueAt s (curCtx s).vd (queueNum (readReg s ga))) sel))

end Sys2Proof.Machine
end

