-- ==== Sys2Proof/Machine/Release.lean ====
section
/-! DEFINITION. Steps of streams and engines: releases, completions, starts, faults, the handler, the timer, the detector and the watchdog, and the
grants of tenures and leases (R81, R161, R165, R177, R229, R235, R272, R318, R319, R360, R374). -/

namespace Sys2Proof.Machine

/-! ### Streams -/

/-- WAIT_RELEASE (R80, R81). -/
def execWaitRelease (core : Nat) (st : StreamName) (s : State) : Outcome :=
  let c := coreAt s core
  let t := streamOf c st
  .next <| match t.state, t.pending with
    | .wait, some p => if coreRuns s core && waitHolds s c st p.on then releaseWait s core st p else s
    | _, _ => s

/-- ENGINE_FAULT_RAISE (R177): the fault that a stream holds is raised at its boundary. -/
def execEngineFaultRaise (core : Nat) (st : StreamName) (s : State) : Outcome :=
  .next (if coreRuns s core then takeFault s core st else s)

/-- HANDLER_ENTRY (R360). -/
def execHandlerEntry (core : Nat) (s : State) : Outcome := .next (handlerEntry s core)

/-- TIMER (R374). -/
def execTimer (core : Nat) (s : State) : Outcome := .next (timerAct s core)

/-- A pending wait ends in a trap of the detector or of the watchdog (R317 to R319). -/
def endWait (s : State) (core : Nat) (st : StreamName) (p : Pending) (cause : Cause) (va : Nat) : State :=
  let pc := (streamOf (coreAt s core) st).pc
  raiseTrap s ⟨core, st, 0, true, pc, p.words, pc⟩ { cause := cause, va := va }

/-- The first waiting stream of a core in the order C, D, V, X. -/
def firstWaiting (c : Core) : Option (StreamName × Pending) :=
  engineStreams.findSome? fun st => let t := streamOf c st; if t.state = .wait then t.pending.map fun p => (st, p) else none

/-- The detector of a core acts when it is due (R318). -/
def detectorActs (s : State) (core : Nat) : State :=
  let c := coreAt s core
  (firstWaiting c).elim s fun w => if detectorDue s c then endWait s core w.1 w.2 .syncDeadlock 0 else s

/-- SYNC_DEADLOCK (R318): the conditions have held for 1,024 cycles. -/
def execSyncDeadlock (core : Nat) (s : State) : Outcome := .next (detectorActs s core)

/-- WAIT_TIMEOUT (R319): a wait whose condition holds is not ended (R317), and a detector that is due comes first (R321). -/
def execWaitTimeout (core : Nat) (st : StreamName) (s : State) : Outcome :=
  let c := coreAt s core
  let t := streamOf c st
  .next <| match t.state, t.pending with
    | .wait, some p =>
      if detectorDue s c then detectorActs s core
      else if watchdogDue s core st then
        match p.on with
        | .access va _ => endWait s core st p .tenureTimeout va
        | _ => endWait s core st p .waitTimeout 0
      else s
    | _, _ => s

/-! ### Engines -/

/-- ENGINE_INSTRUCTION_COMPLETE (R165): the engine works on its instruction until that completes, faults or cannot go on. -/
def execEngineInstructionComplete (core : Nat) (eng : EngineName) (s : State) : Outcome := .next (engineTurn s core eng (2 ^ 64))

/-- An instruction that takes effect late, at the head of its engine's queue (R161, R258, R259, R278, R313, R443). -/
def takesEffectLate : Instr → Bool
  | .rcommit .. | .rrelease .. | .semadd .. | .semset .. | .trel .. | .tseal .. | .tsealDet .. | .aqry .. | .apub .. | .dflowOpen .. | .dflowClose ..
  | .dflowReset .. | .dflowStat .. => true
  | _ => false

/-- ENGINE_HEAD_EFFECT (R161). -/
def execEngineHeadEffect (core : Nat) (eng : EngineName) (s : State) : Outcome :=
  .next <| match workEntry (focusOn s core) eng with
    | some e => if takesEffectLate e.instr then engineTurn s core eng 1 else s
    | none => s

/-- The checks of an array instruction against the array state that every earlier one leaves (R243). -/
def headChecks (s : State) (e : QEntry) : Res Unit :=
  match e.instr with
  | .xpass side _ _ _ => passHead s e side
  | .xsideb .. => sidebHead s e
  | _ => .ok ()

/-- ARRAY_INSTRUCTION_START (R235). -/
def execArrayInstructionStart (core : Nat) (s : State) : Outcome :=
  let s := focusOn s core
  .next <| match workEntry s .matrix with
    | some e =>
      if enginesRun s core && arrayOp e.instr && !e.stopped && !e.started then
        match startArray { s with cur := e.stream } e (headChecks s e) with
        | .ok o => setEntry o.s .matrix o.e
        | .error (.trap t) => engineFault s .matrix e t
        | .error _ => s
      else s
    | none => s

/-! ### Tenures and leases -/

/-- TENURE_GRANT (R272, R276): a request that meets no tenure, no seal and no earlier request is granted, and its TACQ completes. -/
def execTenureGrant (ctx request : Nat) (s : State) : Outcome :=
  .next (if (ctxAt s ctx).requests.any fun r => r.id = request && coreRuns s r.core then grantRequest s ctx request else s)

/-- The right of a core granted (R227): a fresh array completes the XLEASE that waits; a reclaim restores the state. -/
def grantLease (s : State) (core : Nat) : State :=
  let a := clusterOf core
  let s := focusOn (setArray s a ⟨some core, laneOf core⟩) core
  let c := s.core
  if c.lease = .waiting then
    let s := { s with core := { c with lease := .held, leaseAt := s.now, arr := ArrayState.fresh } }
    match c.qmat with
    | e :: _ => if isXlease e.instr then resumeHeld (completeEntry { s with cur := e.stream } .matrix e) e else s
    | [] => s
  else
    let arr := match restoredArray s core with | .ok a => a | .error _ => c.arr
    let s := absorb { s with core := { c with lease := .held, leaseAt := s.now, arr := { arr with passes := 0, cycles := 0 } } } (restoredArray s core)
    match c.x.state, c.x.pending with
    | .wait, some p => if p.on = .lease then releaseWait s core .x p else s
    | _, _ => s

/-- The state of a core's array cannot come back yet: a migration holds its save area (R412). -/
def arrayBusy (s : State) (core : Nat) : Bool := isBusy (restoredArray s core)

/-- LEASE_GRANT (R229): a free array goes to the first eligible core; requests that are not eligible are noted (R391). -/
def execLeaseGrant (array : Nat) (s : State) : Outcome :=
  let s := noteShort s array
  .next <| match (arrayAt s array).holder, leaseOrder s array with
    | none, core :: _ => if (coreAt s core).lease = .reclaim && arrayBusy s core then s else grantLease s core
    | _, _ => s

/-- LEASE_GRANT_END (R229). -/
def execLeaseGrantEnd (array : Nat) (s : State) : Outcome :=
  .next <| match (arrayAt s array).holder with
    | some core => endGrant s core
    | none => s

end Sys2Proof.Machine
end

