-- ==== Sys2Proof/Machine/Dispatch.lean ====
section
/-! DEFINITION. The dispatch of instructions and events to their meanings: one arm for each row of the opcode table. -/

namespace Sys2Proof.Machine

/-- The meaning of an instruction of R64, or of a step of another agent. -/
def exec (i : Instr) (s : State) : Host.Outcome State Fault Refusal :=
  match i with
  | .nop => Sys2Proof.Machine.execNop s
  | .b off => Sys2Proof.Machine.execB off s
  | .call off => Sys2Proof.Machine.execCall off s
  | .ret => Sys2Proof.Machine.execRet s
  | .bccEq ga gb off => Sys2Proof.Machine.execBccEq ga gb off s
  | .bccNe ga gb off => Sys2Proof.Machine.execBccNe ga gb off s
  | .bccLt ga gb off => Sys2Proof.Machine.execBccLt ga gb off s
  | .bccGe ga gb off => Sys2Proof.Machine.execBccGe ga gb off s
  | .bccLtn ga gb off => Sys2Proof.Machine.execBccLtn ga gb off s
  | .bccGen ga gb off => Sys2Proof.Machine.execBccGen ga gb off s
  | .loop ga words => Sys2Proof.Machine.execLoop ga words s
  | .rndv => Sys2Proof.Machine.execRndv s
  | .whereQ gd sel => Sys2Proof.Machine.execWhereQ gd sel s
  | .fence kind scope => Sys2Proof.Machine.execFence kind scope s
  | .semadd k ga imm => Sys2Proof.Machine.execSemadd k ga imm s
  | .semwait k ga imm => Sys2Proof.Machine.execSemwait k ga imm s
  | .semwaitTake k => Sys2Proof.Machine.execSemwaitTake k s
  | .semtry gd k imm => Sys2Proof.Machine.execSemtry gd k imm s
  | .semtryTake gd k => Sys2Proof.Machine.execSemtryTake gd k s
  | .semset k ga imm => Sys2Proof.Machine.execSemset k ga imm s
  | .semrd gd k => Sys2Proof.Machine.execSemrd gd k s
  | .semrdDraw gd k => Sys2Proof.Machine.execSemrdDraw gd k s
  | .semrdPb gd k => Sys2Proof.Machine.execSemrdPb gd k s
  | .pbwait k ga imm => Sys2Proof.Machine.execPbwait k ga imm s
  | .add gd ga gb => Sys2Proof.Machine.execAdd gd ga gb s
  | .sub gd ga gb => Sys2Proof.Machine.execSub gd ga gb s
  | .mul gd ga gb => Sys2Proof.Machine.execMul gd ga gb s
  | .mulh gd ga gb => Sys2Proof.Machine.execMulh gd ga gb s
  | .mulhn gd ga gb => Sys2Proof.Machine.execMulhn gd ga gb s
  | .div gd ga gb => Sys2Proof.Machine.execDiv gd ga gb s
  | .divn gd ga gb => Sys2Proof.Machine.execDivn gd ga gb s
  | .rem gd ga gb => Sys2Proof.Machine.execRem gd ga gb s
  | .and gd ga gb => Sys2Proof.Machine.execAnd gd ga gb s
  | .or gd ga gb => Sys2Proof.Machine.execOr gd ga gb s
  | .xor gd ga gb => Sys2Proof.Machine.execXor gd ga gb s
  | .shl gd ga gb => Sys2Proof.Machine.execShl gd ga gb s
  | .shr gd ga gb => Sys2Proof.Machine.execShr gd ga gb s
  | .sar gd ga gb => Sys2Proof.Machine.execSar gd ga gb s
  | .min gd ga gb => Sys2Proof.Machine.execMin gd ga gb s
  | .max gd ga gb => Sys2Proof.Machine.execMax gd ga gb s
  | .minn gd ga gb => Sys2Proof.Machine.execMinn gd ga gb s
  | .maxn gd ga gb => Sys2Proof.Machine.execMaxn gd ga gb s
  | .slt gd ga gb => Sys2Proof.Machine.execSlt gd ga gb s
  | .sltn gd ga gb => Sys2Proof.Machine.execSltn gd ga gb s
  | .seq gd ga gb => Sys2Proof.Machine.execSeq gd ga gb s
  | .sel gd ga gb => Sys2Proof.Machine.execSel gd ga gb s
  | .clz gd ga => Sys2Proof.Machine.execClz gd ga s
  | .ctz gd ga => Sys2Proof.Machine.execCtz gd ga s
  | .popc gd ga => Sys2Proof.Machine.execPopc gd ga s
  | .bfx gd ga gb => Sys2Proof.Machine.execBfx gd ga gb s
  | .bfi gd ga gb => Sys2Proof.Machine.execBfi gd ga gb s
  | .addi gd ga imm => Sys2Proof.Machine.execAddi gd ga imm s
  | .andi gd ga imm => Sys2Proof.Machine.execAndi gd ga imm s
  | .ori gd ga imm => Sys2Proof.Machine.execOri gd ga imm s
  | .xori gd ga imm => Sys2Proof.Machine.execXori gd ga imm s
  | .shli gd ga sh => Sys2Proof.Machine.execShli gd ga sh s
  | .shri gd ga sh => Sys2Proof.Machine.execShri gd ga sh s
  | .sari gd ga sh => Sys2Proof.Machine.execSari gd ga sh s
  | .li gd imm => Sys2Proof.Machine.execLi gd imm s
  | .lih gd imm => Sys2Proof.Machine.execLih gd imm s
  | .addpc gd imm => Sys2Proof.Machine.execAddpc gd imm s
  | .fadd gd ga gb rm => Sys2Proof.Machine.execFadd gd ga gb rm s
  | .fsub gd ga gb rm => Sys2Proof.Machine.execFsub gd ga gb rm s
  | .fmul gd ga gb rm => Sys2Proof.Machine.execFmul gd ga gb rm s
  | .ffma gd ga gb rm => Sys2Proof.Machine.execFfma gd ga gb rm s
  | .fdiv gd ga gb rm => Sys2Proof.Machine.execFdiv gd ga gb rm s
  | .fsqrt gd ga rm => Sys2Proof.Machine.execFsqrt gd ga rm s
  | .fmin gd ga gb => Sys2Proof.Machine.execFmin gd ga gb s
  | .fmax gd ga gb => Sys2Proof.Machine.execFmax gd ga gb s
  | .fcmp cc gd ga gb => Sys2Proof.Machine.execFcmp cc gd ga gb s
  | .fclass gd ga => Sys2Proof.Machine.execFclass gd ga s
  | .fcvtTo gd ga fmt rm => Sys2Proof.Machine.execFcvtTo gd ga fmt rm s
  | .fcvtFrom gd ga fmt rm => Sys2Proof.Machine.execFcvtFrom gd ga fmt rm s
  | .ld1s gd ga imm => Sys2Proof.Machine.execLd1s gd ga imm s
  | .ld1z gd ga imm => Sys2Proof.Machine.execLd1z gd ga imm s
  | .ld2s gd ga imm => Sys2Proof.Machine.execLd2s gd ga imm s
  | .ld2z gd ga imm => Sys2Proof.Machine.execLd2z gd ga imm s
  | .ld4s gd ga imm => Sys2Proof.Machine.execLd4s gd ga imm s
  | .ld4z gd ga imm => Sys2Proof.Machine.execLd4z gd ga imm s
  | .ld8 gd ga imm => Sys2Proof.Machine.execLd8 gd ga imm s
  | .ld16 gd ga imm => Sys2Proof.Machine.execLd16 gd ga imm s
  | .st1 gd ga imm => Sys2Proof.Machine.execSt1 gd ga imm s
  | .st2 gd ga imm => Sys2Proof.Machine.execSt2 gd ga imm s
  | .st4 gd ga imm => Sys2Proof.Machine.execSt4 gd ga imm s
  | .st8 gd ga imm => Sys2Proof.Machine.execSt8 gd ga imm s
  | .st16 gd ga imm => Sys2Proof.Machine.execSt16 gd ga imm s
  | .amo4 op gd ga gb => Sys2Proof.Machine.execAmo4 op gd ga gb s
  | .amo8 op gd ga gb => Sys2Proof.Machine.execAmo8 op gd ga gb s
  | .acas4 gd ga gb => Sys2Proof.Machine.execAcas4 gd ga gb s
  | .acas8 gd ga gb => Sys2Proof.Machine.execAcas8 gd ga gb s
  | .vadd dd da db rm sy => Sys2Proof.Machine.execVadd dd da db rm sy s
  | .vsub dd da db rm sy => Sys2Proof.Machine.execVsub dd da db rm sy s
  | .vmul dd da db rm sy => Sys2Proof.Machine.execVmul dd da db rm sy s
  | .vfma dd da db rm sy => Sys2Proof.Machine.execVfma dd da db rm sy s
  | .vfms dd da db rm sy => Sys2Proof.Machine.execVfms dd da db rm sy s
  | .vdiv dd da db rm sy => Sys2Proof.Machine.execVdiv dd da db rm sy s
  | .vmin dd da db rm sy => Sys2Proof.Machine.execVmin dd da db rm sy s
  | .vmax dd da db rm sy => Sys2Proof.Machine.execVmax dd da db rm sy s
  | .vabs dd da rm sy => Sys2Proof.Machine.execVabs dd da rm sy s
  | .vneg dd da rm sy => Sys2Proof.Machine.execVneg dd da rm sy s
  | .vand dd da db sy => Sys2Proof.Machine.execVand dd da db sy s
  | .vor dd da db sy => Sys2Proof.Machine.execVor dd da db sy s
  | .vxor dd da db sy => Sys2Proof.Machine.execVxor dd da db sy s
  | .vnot dd da sy => Sys2Proof.Machine.execVnot dd da sy s
  | .vshl dd da db sy => Sys2Proof.Machine.execVshl dd da db sy s
  | .vshr dd da db sy => Sys2Proof.Machine.execVshr dd da db sy s
  | .vsar dd da db sy => Sys2Proof.Machine.execVsar dd da db sy s
  | .vcmp cc dd da db sy => Sys2Proof.Machine.execVcmp cc dd da db sy s
  | .vsel dd da db rm sy => Sys2Proof.Machine.execVsel dd da db rm sy s
  | .vcvt dd da rm sy => Sys2Proof.Machine.execVcvt dd da rm sy s
  | .vexp2 dd da rm sy => Sys2Proof.Machine.execVexp2 dd da rm sy s
  | .vlog2 dd da rm sy => Sys2Proof.Machine.execVlog2 dd da rm sy s
  | .vrcp dd da rm sy => Sys2Proof.Machine.execVrcp dd da rm sy s
  | .vrsq dd da rm sy => Sys2Proof.Machine.execVrsq dd da rm sy s
  | .vsqrt dd da rm sy => Sys2Proof.Machine.execVsqrt dd da rm sy s
  | .vtanh dd da rm sy => Sys2Proof.Machine.execVtanh dd da rm sy s
  | .vsig dd da rm sy => Sys2Proof.Machine.execVsig dd da rm sy s
  | .verf dd da rm sy => Sys2Proof.Machine.execVerf dd da rm sy s
  | .vsin dd da rm sy => Sys2Proof.Machine.execVsin dd da rm sy s
  | .vcos dd da rm sy => Sys2Proof.Machine.execVcos dd da rm sy s
  | .vclamp dd da db rm sy => Sys2Proof.Machine.execVclamp dd da db rm sy s
  | .vscale dd da db rm sy => Sys2Proof.Machine.execVscale dd da db rm sy s
  | .vbcast kind dd ha rm sy => Sys2Proof.Machine.execVbcast kind dd ha rm sy s
  | .viota row dd ha hb rm sy => Sys2Proof.Machine.execViota row dd ha hb rm sy s
  | .vperm oob dd da db rm sy => Sys2Proof.Machine.execVperm oob dd da db rm sy s
  | .vmov dd da sy => Sys2Proof.Machine.execVmov dd da sy s
  | .vred op len dd da rm sy => Sys2Proof.Machine.execVred op len dd da rm sy s
  | .vscan op excl dd da rm sy => Sys2Proof.Machine.execVscan op excl dd da rm sy s
  | .vdot len dd da db rm sy => Sys2Proof.Machine.execVdot len dd da db rm sy s
  | .vdist metric neg dd da db rm sy => Sys2Proof.Machine.execVdist metric neg dd da db rm sy s
  | .vthrc ge len dd da db sy => Sys2Proof.Machine.execVthrc ge len dd da db sy s
  | .vcomp fill idx dd da db rm sy => Sys2Proof.Machine.execVcomp fill idx dd da db rm sy s
  | .vexpd fill dd da db rm sy => Sys2Proof.Machine.execVexpd fill dd da db rm sy s
  | .vhist acc one dd da hb sy => Sys2Proof.Machine.execVhist acc one dd da hb sy s
  | .vxform desc inv dd da sy => Sys2Proof.Machine.execVxform desc inv dd da sy s
  | .vmaxi len dd da rm sy => Sys2Proof.Machine.execVmaxi len dd da rm sy s
  | .vsort desc perm dd da rm sy => Sys2Proof.Machine.execVsort desc perm dd da rm sy s
  | .vranki small int ha sy => Sys2Proof.Machine.execVranki small int ha sy s
  | .vrankp da db sy => Sys2Proof.Machine.execVrankp da db sy s
  | .vranko keep dd rm sy => Sys2Proof.Machine.execVranko keep dd rm sy s
  | .xlease sy => Sys2Proof.Machine.execXlease sy s
  | .xfree discard sy => Sys2Proof.Machine.execXfree discard sy s
  | .xcellop ha sy => Sys2Proof.Machine.execXcellop ha sy s
  | .xzero fill main sy => Sys2Proof.Machine.execXzero fill main sy s
  | .xpass side da db sy => Sys2Proof.Machine.execXpass side da db sy s
  | .xside da hb sy => Sys2Proof.Machine.execXside da hb sy s
  | .xsideb ha sy => Sys2Proof.Machine.execXsideb ha sy s
  | .xdrain zero dd rm sy => Sys2Proof.Machine.execXdrain zero dd rm sy s
  | .xbias row add da sy => Sys2Proof.Machine.execXbias row add da sy s
  | .ares dd da hb sy => Sys2Proof.Machine.execAres dd da hb sy s
  | .arel dd sy => Sys2Proof.Machine.execArel dd sy s
  | .aqry sel hd ha sy => Sys2Proof.Machine.execAqry sel hd ha sy s
  | .apub hd ha hb sy => Sys2Proof.Machine.execApub hd ha hb sy s
  | .dset field k ga => Sys2Proof.Machine.execDset field k ga s
  | .dgetf field gd k => Sys2Proof.Machine.execDgetf field gd k s
  | .dld k ga imm => Sys2Proof.Machine.execDld k ga imm s
  | .dst k ga imm => Sys2Proof.Machine.execDst k ga imm s
  | .dcpy dd da => Sys2Proof.Machine.execDcpy dd da s
  | .dadv rows k ga => Sys2Proof.Machine.execDadv rows k ga s
  | .rinit n k => Sys2Proof.Machine.execRinit n k s
  | .rcommit n ga imm => Sys2Proof.Machine.execRcommit n ga imm s
  | .rrelease n ga imm => Sys2Proof.Machine.execRrelease n ga imm s
  | .rstat gd n sel => Sys2Proof.Machine.execRstat gd n sel s
  | .dcopy mask dd da rm sy => Sys2Proof.Machine.execDcopy mask dd da rm sy s
  | .dgather mask oob dd da db rm sy => Sys2Proof.Machine.execDgather mask oob dd da db rm sy s
  | .dscatter mask oob dd da db rm sy => Sys2Proof.Machine.execDscatter mask oob dd da db rm sy s
  | .dscata mask oob dd da db rm sy => Sys2Proof.Machine.execDscata mask oob dd da db rm sy s
  | .dfill dd ha sy => Sys2Proof.Machine.execDfill dd ha sy s
  | .dpref da sy => Sys2Proof.Machine.execDpref da sy s
  | .dpreq mask da db sy => Sys2Proof.Machine.execDpreq mask da db sy s
  | .dflush da sy => Sys2Proof.Machine.execDflush da sy s
  | .dinv da sy => Sys2Proof.Machine.execDinv da sy s
  | .dput flow dd da db sy => Sys2Proof.Machine.execDput flow dd da db sy s
  | .dget flow dd da sy => Sys2Proof.Machine.execDget flow dd da sy s
  | .dfadd flow dd da db sy => Sys2Proof.Machine.execDfadd flow dd da db sy s
  | .dfcas flow dd da db sy => Sys2Proof.Machine.execDfcas flow dd da db sy s
  | .dfencef flow da hb sy => Sys2Proof.Machine.execDfencef flow da hb sy s
  | .dflowOpen flow hd ha sy => Sys2Proof.Machine.execDflowOpen flow hd ha sy s
  | .dflowClose flow hd ha sy => Sys2Proof.Machine.execDflowClose flow hd ha sy s
  | .dflowReset flow hd ha sy => Sys2Proof.Machine.execDflowReset flow hd ha sy s
  | .dflowStat flow hd ha sy => Sys2Proof.Machine.execDflowStat flow hd ha sy s
  | .tdef gd k => Sys2Proof.Machine.execTdef gd k s
  | .tacqR ga => Sys2Proof.Machine.execTacqR ga s
  | .tacqW ga => Sys2Proof.Machine.execTacqW ga s
  | .tacqRTry gd ga => Sys2Proof.Machine.execTacqRTry gd ga s
  | .tacqWTry gd ga => Sys2Proof.Machine.execTacqWTry gd ga s
  | .trel ga => Sys2Proof.Machine.execTrel ga s
  | .tseal ga => Sys2Proof.Machine.execTseal ga s
  | .tsealDet ga => Sys2Proof.Machine.execTsealDet ga s
  | .tsplit gd ga gb => Sys2Proof.Machine.execTsplit gd ga gb s
  | .tjoin gd ga gb => Sys2Proof.Machine.execTjoin gd ga gb s
  | .tfree ga => Sys2Proof.Machine.execTfree ga s
  | .tqry sel gd ga => Sys2Proof.Machine.execTqry sel gd ga s
  | .gjoin ga slot => Sys2Proof.Machine.execGjoin ga slot s
  | .gleave slot => Sys2Proof.Machine.execGleave slot s
  | .gsync slot sy => Sys2Proof.Machine.execGsync slot sy s
  | .gred op slot dd da rm sy => Sys2Proof.Machine.execGred op slot dd da rm sy s
  | .gbcast slot dd da hb sy => Sys2Proof.Machine.execGbcast slot dd da hb sy s
  | .ggath slot dd da sy => Sys2Proof.Machine.execGgath slot dd da sy s
  | .launch gd ga gb => Sys2Proof.Machine.execLaunch gd ga gb s
  | .launchTry gd ga gb => Sys2Proof.Machine.execLaunchTry gd ga gb s
  | .qstat sel gd ga => Sys2Proof.Machine.execQstat sel gd ga s
  | .tlbinvPage ga => Sys2Proof.Machine.execTlbinvPage ga s
  | .tlbinvRange ga gb => Sys2Proof.Machine.execTlbinvRange ga gb s
  | .tlbinvCtx => Sys2Proof.Machine.execTlbinvCtx s
  | .pmig op gd ga => Sys2Proof.Machine.execPmig op gd ga s
  | .trap ga code => Sys2Proof.Machine.execTrap ga code s
  | .rte => Sys2Proof.Machine.execRte s
  | .csrr gd csr => Sys2Proof.Machine.execCsrr gd csr s
  | .csrw gd ga csr => Sys2Proof.Machine.execCsrw gd ga csr s
  | .csrs gd ga csr => Sys2Proof.Machine.execCsrs gd ga csr s
  | .csrc gd ga csr => Sys2Proof.Machine.execCsrc gd ga csr s
  | .iciv ga gb => Sys2Proof.Machine.execIciv ga gb s
  | .brk code => Sys2Proof.Machine.execBrk code s
  | .yield => Sys2Proof.Machine.execYield s
  | .waitRelease core st => Sys2Proof.Machine.execWaitRelease core st s
  | .engineInstructionComplete core eng => Sys2Proof.Machine.execEngineInstructionComplete core eng s
  | .engineHeadEffect core eng => Sys2Proof.Machine.execEngineHeadEffect core eng s
  | .arrayInstructionStart core => Sys2Proof.Machine.execArrayInstructionStart core s
  | .engineFaultRaise core st => Sys2Proof.Machine.execEngineFaultRaise core st s
  | .handlerEntry core => Sys2Proof.Machine.execHandlerEntry core s
  | .syncDeadlock core => Sys2Proof.Machine.execSyncDeadlock core s
  | .waitTimeout core st => Sys2Proof.Machine.execWaitTimeout core st s
  | .timer core => Sys2Proof.Machine.execTimer core s
  | .tenureGrant ctx request => Sys2Proof.Machine.execTenureGrant ctx request s
  | .leaseGrant array => Sys2Proof.Machine.execLeaseGrant array s
  | .leaseGrantEnd array => Sys2Proof.Machine.execLeaseGrantEnd array s
  | .recordRead vd queue => Sys2Proof.Machine.execRecordRead vd queue s
  | .dispatch die cores => Sys2Proof.Machine.execDispatch die cores s
  | .jobPlace job cores => Sys2Proof.Machine.execJobPlace job cores s
  | .completionWordIncrement job => Sys2Proof.Machine.execCompletionWordIncrement job s
  | .eventWrite vd => Sys2Proof.Machine.execEventWrite vd s
  | .checkpoint job reason => Sys2Proof.Machine.execCheckpoint job reason s
  | .resume job cores => Sys2Proof.Machine.execResume job cores s
  | .kill job cause => Sys2Proof.Machine.execKill job cause s
  | .sliceEnd job => Sys2Proof.Machine.execSliceEnd job s
  | .drainTimeout job => Sys2Proof.Machine.execDrainTimeout job s
  | .queueSwitchOut vd => Sys2Proof.Machine.execQueueSwitchOut vd s
  | .queueSwitchIn vd => Sys2Proof.Machine.execQueueSwitchIn vd s
  | .qtailWrite vd queue value tee => Sys2Proof.Machine.execQtailWrite vd queue value tee s
  | .evheadWrite vd value tee => Sys2Proof.Machine.execEvheadWrite vd value tee s
  | .registerWrite site off value => Sys2Proof.Machine.execRegisterWrite site off value s
  | .dbgReturn vd tee => Sys2Proof.Machine.execDbgReturn vd tee s
  | .dbgStep vd tee => Sys2Proof.Machine.execDbgStep vd tee s
  | .dbgDisplaced vd tee => Sys2Proof.Machine.execDbgDisplaced vd tee s
  | .dbgKill vd tee => Sys2Proof.Machine.execDbgKill vd tee s
  | .dbgInval vd tee => Sys2Proof.Machine.execDbgInval vd tee s
  | .windowRead vd off n tee => Sys2Proof.Machine.execWindowRead vd off n tee s
  | .windowWrite vd off bytes tee => Sys2Proof.Machine.execWindowWrite vd off bytes tee s
  | .lockInterfaceRequest vd stream => Sys2Proof.Machine.execLockInterfaceRequest vd stream s
  | .startInterfaceRequest vd => Sys2Proof.Machine.execStartInterfaceRequest vd s
  | .stopInterfaceRequest vd => Sys2Proof.Machine.execStopInterfaceRequest vd s
  | .getDeviceInterfaceState vd => Sys2Proof.Machine.execGetDeviceInterfaceState vd s
  | .getDeviceInterfaceReport vd => Sys2Proof.Machine.execGetDeviceInterfaceReport vd s
  | .ideFailure stream => Sys2Proof.Machine.execIdeFailure stream s
  | .functionLevelReset vd => Sys2Proof.Machine.execFunctionLevelReset vd s
  | .contextCreate slot vd world table policy savebase regs => Sys2Proof.Machine.execContextCreate slot vd world table policy savebase regs s
  | .contextHalt slot => Sys2Proof.Machine.execContextHalt slot s
  | .contextUnhalt slot => Sys2Proof.Machine.execContextUnhalt slot s
  | .contextDestroy slot => Sys2Proof.Machine.execContextDestroy slot s
  | .hallmarkContent slot label va n => Sys2Proof.Machine.execHallmarkContent slot label va n s
  | .adapterInstall index entry => Sys2Proof.Machine.execAdapterInstall index entry s
  | .adapterMoveHome index pages => Sys2Proof.Machine.execAdapterMoveHome index pages s
  | .adapterPin index => Sys2Proof.Machine.execAdapterPin index s
  | .adapterUnpin index => Sys2Proof.Machine.execAdapterUnpin index s
  | .adapterRetire index => Sys2Proof.Machine.execAdapterRetire index s
  | .partitionRecordWrite part value => Sys2Proof.Machine.execPartitionRecordWrite part value s
  | .vdRecordWrite vd value => Sys2Proof.Machine.execVdRecordWrite vd value s
  | .pstsQuery kind inst vd => Sys2Proof.Machine.execPstsQuery kind inst vd s
  | .framePoolGive vd tier frames => Sys2Proof.Machine.execFramePoolGive vd tier frames s
  | .pinPoolGive die vaults => Sys2Proof.Machine.execPinPoolGive die vaults s
  | .flowPairing ctx pkg peer => Sys2Proof.Machine.execFlowPairing ctx pkg peer s
  | .fenceUnitRequest unit => Sys2Proof.Machine.execFenceUnitRequest unit s
  | .quarantineReinit frames => Sys2Proof.Machine.execQuarantineReinit frames s
  | .migrationPause vd => Sys2Proof.Machine.execMigrationPause vd s
  | .marginRevoke unit => Sys2Proof.Machine.execMarginRevoke unit s
  | .purseRefill kind inst => Sys2Proof.Machine.execPurseRefill kind inst s
  | .governorMeasure watts => Sys2Proof.Machine.execGovernorMeasure watts s
  | .governorRecoveryStep => Sys2Proof.Machine.execGovernorRecoveryStep s
  | .thermalClockStep die tj => Sys2Proof.Machine.execThermalClockStep die tj s
  | .thermalTrip die tj coolantLost => Sys2Proof.Machine.execThermalTrip die tj coolantLost s
  | .ageingMeasure die freqs margins => Sys2Proof.Machine.execAgeingMeasure die freqs margins s
  | .pageRequestDone ctx page contents => Sys2Proof.Machine.execPageRequestDone ctx page contents s
  | .migrationComplete ctx page => Sys2Proof.Machine.execMigrationComplete ctx page s
  | .cxlLinkDown port => Sys2Proof.Machine.execCxlLinkDown port s
  | .flitCrcFail port count => Sys2Proof.Machine.execFlitCrcFail port count s
  | .linkDown pkg => Sys2Proof.Machine.execLinkDown pkg s
  | .remotePartArrive pkg ctx flow seq type va arg payload => Sys2Proof.Machine.execRemotePartArrive pkg ctx flow seq type va arg payload s
  | .rowMissingNotice pkg ctx flow header slot => Sys2Proof.Machine.execRowMissingNotice pkg ctx flow header slot s
  | .partPerformed core part payload => Sys2Proof.Machine.execPartPerformed core part payload s
  | .partRefused core part hint => Sys2Proof.Machine.execPartRefused core part hint s
  | .partResend core part => Sys2Proof.Machine.execPartResend core part s
  | .remoteTimeout core flow => Sys2Proof.Machine.execRemoteTimeout core flow s
  | .frameFillTimeout core flow => Sys2Proof.Machine.execFrameFillTimeout core flow s
  | .flagLate core => Sys2Proof.Machine.execFlagLate core s
  | .groupFormed key => Sys2Proof.Machine.execGroupFormed key s
  | .abortNotice key reason => Sys2Proof.Machine.execAbortNotice key reason s
  | .recoveryImageSupply version bytes signatures => Sys2Proof.Machine.execRecoveryImageSupply version bytes signatures s
  | .packageReset package ports cxl => Sys2Proof.Machine.execPackageReset package ports cxl s
  | .pageOwnershipChange frame owner state => Sys2Proof.Machine.execPageOwnershipChange frame owner state s
  | .worldKeyInstall world => Sys2Proof.Machine.execWorldKeyInstall world s
  | .spdmMessage slot => Sys2Proof.Machine.execSpdmMessage slot s
  | .groupContributionArrive c => Sys2Proof.Machine.execGroupContributionArrive c s

end Sys2Proof.Machine
end

