-- ==== Sys2Proof/Machine/Fetch.lean ====
section
/-! DEFINITION. Fetching an instruction's words and decoding them, by the checks of R66 in their order (R59, R60, R66 to R69, R354, R360). -/

namespace Sys2Proof.Machine

/-- The code image of the executing stream: its first virtual address and its length; in the handler it is TVEC to TVEC + TVLEN (R66, R123, R360).
The PC counts from the first address in the kernel's image, and is a virtual address in the handler's. -/
def codeImage (s : State) : Nat × Nat :=
  if levelP s then ((curCtx s).tvec.toNat, bitField (curCtx s).tvlen.toNat 0 25)
  else match curJob s with
  | none => (0, 0)
  | some j => (j.rcd.kobj + j.kern.codeOff.getD (streamNum s.cur) 0, j.kern.codeLen.getD (streamNum s.cur) 0)

/-- The offset in the image of a PC. -/
def codeOffset (s : State) (pc : Nat) : Int := if levelP s then (pc : Int) - (curCtx s).tvec.toNat else pc

/-- A word at a PC lies within the image (step 2 of R66). -/
def inImage (s : State) (pc : Nat) : Bool := 0 ≤ codeOffset s pc && codeOffset s pc + 4 ≤ (codeImage s).2

/-- A fetch that fails: the cause is FETCH_FAULT with the memory cause in ESW, but for a missing permission, an error of the data, a class-K cause and a
quarantined frame, whose accesses fault SUBTREE_QUARANTINED (R66, R357, R420; log 82). -/
def fetchStop (va : Nat) : Stop → Stop
  | .trap t =>
    let c := causeCode t.cause
    if t.cause = .permExec then .trap { t with esw := c * 256, va := va }
    else if 0x12 ≤ c ∧ c ≤ 0x17 then .trap { t with cause := .fetchFault, esw := c * 256 + t.esw, va := va }
    else .trap { t with va := va }
  | x => x

/-- The word at a virtual address, read through the translation for a fetch (R66, R404). -/
def fetchMem (s : State) (va : Nat) : Res (State × Word32) :=
  let a := curAccessor s
  match translate s a .exec va with
  | .error e => .error (fetchStop va e)
  | .ok (.absent _) => .error (.trap { cause := .fetchFault, esw := 0x1201, va := va })
  | .ok (.here l pa) =>
    if pteClass l.entry = 3 ∧ (paTier pa).isNone then .ok (s, BitVec.ofNat 32 (viewRead s (viewAt pa).1 (viewAt pa).2 4))
    else
      match (if pteClass l.entry = 3 then .ok (s, false) else classRule s a l va : Res (State × Bool)) with
      | .error e => .error (fetchStop va e)
      | .ok (s', _) =>
        match checkTag s' pa 4 (ctxAt s a.ctx).world va true with
        | .error e => .error (fetchStop va e)
        | .ok () =>
          match readErrors s' pa 4 va with
          | .error e => .error (fetchStop va e)
          | .ok () => .ok (s', BitVec.ofNat 32 (leNat (physBytes s' pa 4)))

/-- A word at a PC: its value is the memory's, or an old one that an instruction cache still holds (R69). -/
def fetchWord (s : State) (pc : Nat) : Res (State × Word32) :=
  if !inImage s pc then fault .fetchFault
  else
    let va := (codeImage s).1 + (codeOffset s pc).toNat
    (fetchMem s va).map fun r =>
      match tabGet none (curCtx s).icache va with
      | some w => if Config.usesCached s.tick va then (r.1, w) else r
      | none => r

/-- The context's virtual device has TUNE (R64, R259). -/
def tuned (s : State) : Bool := vdTune s (curCtx s).vd

/-- Decoding of fetched words; a fault keeps them for the record (R67). -/
def decodeFetched (s : State) (ws : List Word32) : Res (State × Instr) :=
  match decodeWords s.cur (levelP s) (tuned s) (ws.map (·.toNat)) with
  | .ok i => .ok ({ s with words := ws }, i)
  | .error c => fault c

/-- The words of an instruction and their meaning, by the steps of R66. A fault is given with the words that the record holds (R67). -/
def fetchDecode (s : State) : Except (List Word32 × Stop) (State × Instr) :=
  let pc := (curStream s).pc.toNat
  let give (ws : List Word32) (r : Res (State × Instr)) : Except (List Word32 × Stop) (State × Instr) :=
    match r with | .ok x => .ok x | .error e => .error (ws, e)
  if pc % 4 ≠ 0 then .error ([], .trap { cause := .fetchAlign })
  else match fetchWord s pc with
  | .error e => .error ([], e)
  | .ok (s, w0) =>
    if isExtWord w0.toNat then .error ([w0], .trap { cause := .extWordMisplaced })
    else match infoOf w0.toNat with
    | none => .error ([w0], .trap { cause := .illegalOpcode })
    | some o =>
      if o.long then
        if pc / 4 % 2 = 1 then .error ([w0], .trap { cause := .fetchAlign })
        else if !inImage s (pc + 4) then .error ([w0], .trap { cause := .syncWordMissing })
        else match fetchWord s (pc + 4) with
          | .error e => .error ([w0], e)
          | .ok (s, w1) => give [w0, w1] (decodeFetched s [w0, w1])
      else if o.ext && inImage s (pc + 4) then
        match fetchWord s (pc + 4) with
        | .error e => .error ([w0], e)
        | .ok (s, w1) => let ws := if isExtWord w1.toNat then [w0, w1] else [w0]; give ws (decodeFetched s ws)
      else give [w0] (decodeFetched s [w0])

/-- The words that displace those at a PC, as though they stood there: a word that no image holds is not reached (steps 1, 2, 5, 6 and 7 of R66,
R368). They are not fetched, so the page of the PC is not judged (log 108). -/
def displacedWords (s : State) (pc : Nat) (w0 w1 : Word32) : Except (List Word32 × Stop) (List Word32) :=
  if pc % 4 ≠ 0 then .error ([], .trap { cause := .fetchAlign })
  else if !inImage s pc then .error ([], .trap { cause := .fetchFault })
  else if isExtWord w0.toNat then .error ([w0], .trap { cause := .extWordMisplaced })
  else match infoOf w0.toNat with
  | none => .error ([w0], .trap { cause := .illegalOpcode })
  | some o =>
    if o.long then
      if pc / 4 % 2 = 1 then .error ([w0], .trap { cause := .fetchAlign })
      else if !inImage s (pc + 4) then .error ([w0], .trap { cause := .syncWordMissing })
      else .ok [w0, w1]
    else .ok (if o.ext && inImage s (pc + 4) && isExtWord w1.toNat then [w0, w1] else [w0])

/-- The displaced words of the executing stream, at the level at which the debugger returned it. -/
def displacedNow (s : State) : Option (Word32 × Word32) :=
  (curStream s).displaced.bind fun d => if d.1 = levelP s then some d.2 else none

/-- The instruction that the executing stream is to issue: displaced words stand for those at the PC (R368). -/
def nextInstr (s : State) : Except (List Word32 × Stop) (State × Instr) :=
  match displacedNow s with
  | none => fetchDecode s
  | some w =>
    match displacedWords s (curStream s).pc.toNat w.1 w.2 with
    | .error e => .error e
    | .ok ws =>
      match decodeFetched s ws with
      | .ok x => .ok x
      | .error e => .error (ws, e)

end Sys2Proof.Machine
end

