-- ==== Sys2Proof/Machine/Turn.lean ====
section
/-! DEFINITION. What each turn of the schedule does (R3, R69, R80, R83, R405, R417, R418), and how an instruction is placed where the next step
fetches it. -/

namespace Sys2Proof.Machine

/-! ### A stream's turn -/

/-- A stream whose instruction has issued: one in WAIT holds an instruction that has not, unless that waits past its issue checks, for a tenure, or for
a completion (R80, R81). -/
def hasIssued (t : Stream) : Bool :=
  match t.state, t.pending with
  | .wait, some p => p.ready.isSome || match p.on with | .engines .. | .sealing .. | .tenure _ | .result _ => true | _ => false
  | .wait, none => false
  | _, _ => true

/-- The issue arbiter's charge for an instruction that has issued (R388, R391). -/
def chargeIssue (before after : State) : State :=
  if !after.held && hasIssued (streamOf (coreAt after before.focus) before.cur) then chargePurse after 0 before.focus (curCtx before).vd 1 else after

/-- The executing stream fetches, decodes and executes one instruction (R66, R83). -/
def issueOne (s : State) : Outcome :=
  match nextInstr s with
  | .error (ws, e) => .next (settle { s with words := ws } (.error e))
  | .ok (s', i) =>
    match exec i s' with
    | .next t => .next (chargeIssue s t)
    | r => r

/-- A stream in RUN of a running context issues its next instruction, unless its engine's fault, a pending handler entry or a due timer comes first
(R83, R177, R360, R361, R374), or the issue purse of its virtual device is empty (R391). -/
def issueTurn (s : State) : Outcome :=
  let t := curStream s
  if t.state ≠ .run || !coreRuns s s.focus then .next s
  else if t.step = .due (levelP s) then .next (stepDone s t.pc)
  else if t.fault.isSome then .next (raiseEngineFault s s.focus s.cur)
  else if s.cur = .c && !tstatInh s.core && (firstPend s.core).isSome then .next (handlerEntry s s.focus)
  else if s.cur = .c && timerDue s s.focus then .next (timerAct s s.focus)
  else
    let vd := (curCtx s).vd
    if purseFunds (purseAt s 0 s.focus vd) ≤ 0 then .next (shortPurse s 0 s.focus vd)
    else issueOne s

/-- The turn of a stream of a core. -/
def streamTurn (s : State) (core : Nat) (st : StreamName) : Outcome := issueTurn { focusOn s core with cur := st, words := [], held := false }

/-! ### Turns of the memory system -/

/-- A TLB holds the translation of a page of a context (R405). -/
def fillTlb (s : State) (ctx va : Nat) : State :=
  match walk s ctx va with
  | .error e => absorb s (.error e : Res Unit)
  | .ok l =>
    let c := ctxAt s ctx
    if c.state = .free ∨ !(leafWorld s ctx va l).isOk then s
    else setCtx s ctx { c with tlb := tabSet none c.tlb (va / 65536) (some ⟨l.entry, l.place, l.large, walkTables s c.table va 3 0⟩) }

/-- An instruction cache holds the word at an address of a context (R69). -/
def fillIcache (s : State) (ctx va : Nat) : State :=
  let c := ctxAt s ctx
  if c.state = .free ∨ va % 4 ≠ 0 then s
  else match translate s ⟨ctx, true, none, 0⟩ .exec va with
  | .ok (.here l pa) =>
    let r := inTurn (checkTag s pa 4 c.world va true) (readErrors s pa 4 va)
    if pteClass l.entry = 3 then s
    else if !r.isOk then absorb s r
    else setCtx s ctx { c with icache := tabSet none c.icache va (some (BitVec.ofNat 32 (leNat (physBytes s pa 4)))) }
  | r => absorb s r

/-- The memory controller writes back a dirty line, when the request is eligible (R391, R417). -/
def writeBackTurn (s : State) (line : Nat) : State :=
  match tabGet none s.l2 line with
  | none => s
  | some t =>
    let vd := (ctxAt s t.ctx).vd
    let a := lineArbiter line
    if funded s a.1 a.2 vd then writeBackLine s line else shortPurse s a.1 a.2 vd

/-- A line of memory in error; one of CXL memory counts against its port (R418, R451; log 65). -/
def strikeLine (s : State) (line kind : Nat) : State :=
  let s := { s with lineErr := tabSet 0 s.lineErr line kind }
  if paTier (line * 128) = some 1 then noteError s (3584 + cxlPort (line * 128)) else s

/-- An uncorrectable error strikes (R418): of a line of memory, of a dirty line in an L2, of metadata, of a vault or of a scratchpad. It counts against
the CXL port, the way, the vault or the cluster (R451). -/
def strikeAt (s : State) (kind addr core : Nat) : State :=
  match kind with
  | 0 => strikeLine s addr 1
  | 1 => strikeLine s addr 2
  | 2 => strikeLine s addr 3
  | 3 => (tabGet none s.l2 addr).elim s fun t => noteError { s with lineErr := tabSet 0 s.lineErr addr 4 } t.way
  | 4 => { s with metaErr := tabSet 0 s.metaErr addr (2 * (core % 8) + 2) }
  | 5 => { s with metaErr := tabSet 0 s.metaErr addr (2 * (core % 8) + 1) }
  | 6 => noteError { s with vaultErr := tabSet false s.vaultErr addr true } (1024 + addr / 65536)
  | _ => let c := coreAt s core; noteError (putCore s core { c with spadErr := tabSet false c.spadErr addr true }) (clusterOf core)

/-! ### Turns -/

/-- The turn names units that the package has; an event's turn names an event. -/
def turnOk : Turn → Bool
  | .stream core _ | .engine core _ _ => decide (core < coreCount)
  | .event i => (encode i).isEmpty
  | .tlbFill ctx _ | .icFill ctx _ => decide (ctx < 512)
  | .writeBack _ => true
  | .strike kind _ core => decide (kind < 8) && decide (core < coreCount)
  | .act _ => true

/-- What a step of an agent that is no event of the opcode table does. -/
def actTurn (s : State) : Act → State
  | .metaBack key => writeBackNode s key
  | .barRead vd off n tee => hostRead s vd off n tee
  | .barWrite4 vd off value tee => hostWrite s vd off tee (writeBarHalf s vd off value)
  | .configRead fn off => readConfig s fn off
  | .agentRead off => if s.phase = 7 then send s (.data (natLe 8 (agentReg s off))) else s
  | .healthRead die => if s.phase = 7 then readHealth s die else s
  | .joinArrive pkg key rank size hall members => joinArrives s pkg ⟨key, rank, size, hall, members, none⟩
  | .joinWithdrawn key rank => joinWithdrawn s key rank
  | .joinRefused key rank reason => joinRefused s key rank reason
  | .lockLoss port => portDown s port
  | .routeWrite pkg ports => writeRoute s pkg ports
  | .hdmWrite port size => if port < 4 ∧ size ≤ 2 ^ 40 then { s with hdm := tabSet (2 ^ 40) s.hdm port size } else s
  | .bringUp => bringUpStep s
  | .firmwareFail => failFirmware s

/-- What a turn does (R3). -/
def takeTurn (s : State) (w : Turn) : Outcome :=
  if !turnOk w then .fault .noSuchUnit
  else match w with
  | .stream core st => streamTurn s core st
  | .engine core eng n => .next (engineTurn s core eng n)
  | .event i => exec i s
  | .tlbFill ctx va => .next (fillTlb s ctx va)
  | .icFill ctx va => .next (fillIcache s ctx va)
  | .writeBack line => .next (writeBackTurn s line)
  | .strike kind addr core => .next (strikeAt s kind addr core)
  | .act a => .next (actTurn s a)

/-- A turn that the schedule has drawn: a request of the host that a migration holds waits, and so does one behind another of its function that waits
(R412, R427). -/
def arrivesNow (s : State) (w : Turn) : Outcome :=
  if turnOk w && (waitsBehind s.hostHeld w || requestHeld s w) then .next { s with hostHeld := s.hostHeld ++ [w] } else takeTurn s w

/-- The next turn: the pinned one, or the one that the schedule drew (R3). -/
def nextTurn (s : State) : Outcome :=
  match s.pin with
  | some w => takeTurn { s with pin := none, hostHeld := s.hostHeld.erase w } w
  | none => arrivesNow s s.turn

/-! ### Placing an instruction (log 3) -/

/-- The stream, whether at level P, and whether tuned, in which the words of an instruction decode: level U and no tuning where that serves. -/
def placing (ws : List Nat) : StreamName × Bool × Bool :=
  (([(false, false), (true, false), (false, true)].flatMap fun p => allStreams.map fun st => (st, p.1, p.2)).find? fun q =>
    (decodeWords q.1 q.2.1 q.2.2 ws).isOk).getD (.c, false, false)

/-- A leaf entry of world 1 and class TILED with read, write and execute permission (R403). -/
def plainLeaf (frame : Nat) : Nat := 0x7B + frame * 65536 + 2 ^ 52

/-- A job of one core, whose code image is the first 16 bytes at 0x10000 and whose save region starts at 0x100000. -/
def loneJob : Job :=
  { state := .running, vd := 0, queue := 0, index := 0, rgen := 0, arrival := 0,
    rcd := { kobj := 0x10000, args := 0, exts := [], vdn := 0, prio := 0, perm := 0, est := 0, csem := 0, user := 0, clean := true },
    kern := { got := .all, array := true, fabric := true, codeOff := [0, 0, 0, 0], codeLen := [16, 16, 16, 16], levels := [], descOff := 0,
              descN := 0, dataOff := 0, dataLen := 0, dataSpad := 0, planAt := 0, planN := 0, plan := [] },
    ctx := 0, cores := [0], resident := 0, sliceAt := 0, drainAt := none, image := [], lent := 0, savedAt := none, ending := none, via := none,
    asked := [] }

/-- The context of that job: world 1, page table at 0x10000. At level P its handler image is the code. -/
def loneContext (p : Bool) : Context :=
  { Context.reset with state := .running, world := 1, table := 0x10000, savebase := 0x100000, saven := 1, job := some 0,
                       tvec := if p then 0x10000 else 0, tvlen := if p then 16 else 0 }

/-- The memory that such a job stands in: three levels of table, the code in frame 4, the frame of the save region in frame 5. -/
def loneMemory (m : Memory) (w : Nat) : Memory :=
  let put (m : Memory) (a n v : Nat) : Memory := tabSetRange 0 m a (natLe n v)
  let m := put m 0x10000 8 (1 + 0x20000)
  let m := put m 0x20000 8 (1 + 0x30000)
  let m := put m 0x30008 8 (plainLeaf 4)
  let m := put m 0x30080 8 (plainLeaf 5)
  put m 0x40000 16 w

/-- The package with one job of one core whose next step fetches the words of `w` (log 3). -/
def placeInstr (s : State) (w : Nat) : State :=
  let ws := [w % 2 ^ 32, w / 2 ^ 32 % 2 ^ 32]
  let p := placing ws
  let s := focusOn s 0
  let t : Stream := { Stream.reset with state := .run, pc := if p.2.1 then 0x10000 else 0 }
  let c := setStream { Core.reset with job := some 0, tstat := if p.2.1 then 1 else 0 } p.1 t
  let s := [(0, 0), (2, 0), (3, 0), (3, 1)].foldl (fun s (p : Nat × Nat) => setPurse s p.1 p.2 0 { Purse.reset with bal := 65535 }) { s with core := c }
  { s with mem := loneMemory s.mem w, ctxs := tabSet Context.reset s.ctxs 0 (loneContext p.2.1), jobs := tabSet none s.jobs 0 (some loneJob),
           pot := (upFrom 1 5).foldl (fun t f => tabSet ⟨0, 0⟩ t f ⟨1, 1⟩) s.pot, keys := setAdd 1 s.keys,
           vds := tabSet VDev.reset s.vds 0 VDev.reset,
           parts := tabSet 0 s.parts 0 (if p.2.2 then 2 ^ 225 else 0), lineErr := [], metaErr := [], l2 := [],
           pin := some (.stream 0 p.1) }

end Sys2Proof.Machine
end

