-- ==== Sys2Proof/Machine/Step.lean ====
section
/-! DEFINITION. One step of the package, and the placing of an instruction where the next step fetches it. -/

namespace Sys2Proof.Machine

/-- One step: the pinned turn, or the turn that the schedule drew, is taken, and time passes (R3, R83). -/
def step (s : State) : Host.Outcome State Fault Refusal :=
  match nextTurn s with
  | .next t => .next (endStep t)
  | r => r

/-- The state with the instruction of `w` placed where the next step fetches its instruction (log 3). -/
def State.withFetchWord (s : State) (_nbits w : Nat) : State := placeInstr s w

end Sys2Proof.Machine
end

