-- ==== Sys2Proof/Safety.lean ====
section
/-! DEFINITION. What the model counts as a well-formed state, and as a safe step. -/

namespace Sys2Proof.Machine

/-- The canonical form of memory: addresses rise strictly, and no entry holds the unlisted byte 0. -/
abbrev Memory.wf (m : Memory) : Prop := tabWf 0 m = true

/-- A step is safe when it answers a next state. -/
def Safe (s : State) : Prop := ∃ t, step s = .next t

end Sys2Proof.Machine
end

