-- ==== Sys2Proof/Certificates/Slice0/Obligations.lean ====
section
/-! DEFINITION. The statements for the provers. A statement that names a machine state `s` holds in every state, reached by a run or not. The
next state of an instruction that runs through is given as the executing stream going on (`advance`, R83 and R91) from the state its effect
leaves; `advance` itself has statements of its own. -/

namespace Sys2Proof.Claims
open Sys2Proof.Machine

/-- The class of the first word of an instruction's encoding (R53). -/
def classIn (i : Instr) (cs : List Nat) : Prop := ∃ w ws, encode i = w :: ws ∧ classOf w ∈ cs

/-- The level and the tuning that an encoding needs to decode (R64, R259, R354). -/
def admitted (i : Instr) (lvl tune : Bool) : Prop := (privOf ((encode i).headD 0) = true → lvl = true) ∧ (isApub ((encode i).headD 0) = true → tune = true)

/-- Decoding the words of a well-formed instruction gives it back, with whatever follows in memory. A following word can only be taken for an
extension word, so it is none. -/
def roundTrips (i : Instr) : Prop :=
  ∀ (st : StreamName) (lvl tune : Bool) (more : List Nat), wellFormed st i = true → admitted i lvl tune → (∀ w ∈ more, isExtWord w = false) →
    decodeWords st lvl tune (encode i ++ more) = .ok i

/-- What a stream's own instruction may change besides its PC and its loop stack: the registers named, and nothing else of the machine. -/
def onlyRegisters (s t : State) (written : List Nat) : Prop :=
  (∃ x : Stream, t = setCur s x ∧ x.draws = (curStream s).draws ∧ x.rets = (curStream s).rets ∧ x.record = (curStream s).record ∧
    x.fault = (curStream s).fault ∧ x.step = (curStream s).step) ∧
  (∀ i, i ∉ written → readReg t i = readReg s i) ∧
  (∀ st, st ≠ s.cur → streamOf t.core st = streamOf s.core st) ∧
  t.core.vstat = s.core.vstat ∧ t.core.vctlLo = s.core.vctlLo ∧ t.core.tstat = s.core.tstat ∧ t.core.sems = s.core.sems ∧
  (∀ a, physBytes t a 1 = physBytes s a 1) ∧ (∀ a, tabGet 0 t.core.spad a = tabGet 0 s.core.spad a) ∧ (∀ a, tabGet 0 t.vaults a = tabGet 0 s.vaults a)

/-- The instruction `i` stands at the PC of the executing stream, fetched by the steps of R66: one word, or a word with its sync word or extension
word. `t` is the state after the fetch, which holds the words. -/
def standsAt (s t : State) (i : Instr) : Prop :=
  let pc := (curStream s).pc.toNat
  let reads (u : State) (ws : List Word32) : Prop :=
    decodeWords u.cur (levelP u) (tuned u) (ws.map (·.toNat)) = .ok i ∧ t = { u with words := ws }
  (curStream s).displaced = none ∧ pc % 4 = 0 ∧
  ∃ s1 w0 o, fetchWord s pc = .ok (s1, w0) ∧ isExtWord w0.toNat = false ∧ infoOf w0.toNat = some o ∧
    ((o.long = false ∧ (o.ext = false ∨ inImage s1 (pc + 4) = false) ∧ reads s1 [w0]) ∨
     (inImage s1 (pc + 4) = true ∧ ∃ s2 w1, fetchWord s1 (pc + 4) = .ok (s2, w1) ∧
       ((o.long = true ∧ pc / 4 % 2 = 0 ∧ reads s2 [w0, w1]) ∨
        (o.long = false ∧ o.ext = true ∧ isExtWord w1.toNat = true ∧ reads s2 [w0, w1]) ∨
        (o.long = false ∧ o.ext = true ∧ isExtWord w1.toNat = false ∧ reads s2 [w0]))))

/-- The trap of the executing instruction with no more than its cause (R356). -/
def trapsWith (i : Instr) (s : State) (c : Cause) : Prop := exec i s = .next (trapCur s { cause := c })

/-- The executing stream holds its instruction in WAIT under R81 and R317. -/
def waitsFor (i : Instr) (s : State) (w : Wait) : Prop := exec i s = .next (waitOn s w)

/-- Byte `k` of a word, little-endian (R1). -/
def byteOf (v : Word) (k : Nat) : Byte := v.extractLsb' (8 * k) 8

/-- The value of bytes as a word (R1, R112). -/
def wordOfBytes (bs : List Byte) : Word := BitVec.ofNat 64 (leNat bs)

/-- The new value of an AMO of `n` bytes (R118). -/
def amoNew (op : AmoOp) (n old : Nat) (v : Word) : Nat :=
  let x := BitVec.ofNat (8 * n) old
  let y := v.setWidth (8 * n)
  (match op with
  | .add => x + y
  | .min => if y.slt x then y else x
  | .max => if x.slt y then y else x
  | .minn => if y.ult x then y else x
  | .maxn => if x.ult y then y else x
  | .and => x &&& y
  | .or => x ||| y
  | .xor => x ^^^ y
  | .xchg => y).toNat

/-- The bytes of an image hold `f` from `a` on, and what they held before elsewhere. -/
def storesAt (old new : Memory) (a n : Nat) (f : Nat → Byte) : Prop :=
  (∀ k < n, tabGet 0 new (a + k) = f k) ∧ ∀ x, x < a ∨ a + n ≤ x → tabGet 0 new x = tabGet 0 old x

/-- A byte of the leaf that a first access may rewrite: of the leaf that maps a PRIVATE page, or of the one that a walk made again finds (R406). -/
def leafByte (s : State) (l : Leaf) (va x : Nat) : Prop :=
  pteClass l.entry = 0 ∧ ∃ w : Leaf, (w = l ∨ walk s s.core.ctx va = .ok w) ∧ w.place ≤ x ∧ x < w.place + 8

/-- The issue of an engine instruction `i` (R165 steps 2 to 6): once its takes hold, its ring operands pass R163 and can claim their slots, and its
queue has room, it stands at the end of its engine's queue with what it has sampled, its takes are drawn and its claims made. `b` is the state
`s` with what the instruction charges at step 4, and `after` is what becomes of the stream. `beside` are descriptors that are sampled without a check
or a claim. -/
def enters (s b : State) (i : Instr) (y : Sync) (eng : EngineName) (uses : List (Nat × Nat × Bool)) (hregs : List Nat) (count : Nat) (part : Partial)
    (after : State → State) (beside : List Nat := []) : Prop :=
  let us : List OpUse := uses.map fun u => ⟨u.1, descOf (tabGet 0 s.core.descs (u.2.1 % 32)), u.2.2⟩
  let ks := y.take0.toList ++ y.take1.toList ++ y.take2.toList
  (∀ k ∈ ks, (tabGet 0 s.core.sems k - (tabGet 0 (curStream s).draws k + BitVec.ofNat 32 (ks.count k))).toNat < 2 ^ 31) →
  (∀ u ∈ us, u.d.type = 4 → ringUseBad b.core us u = false) → (queueOf s.core eng).length < 16 → (∀ u ∈ us, ringShort b.core u = false) →
  ∃ (rings : Tab (BitVec 128)) (cl : List Claim) (e : QEntry),
    claimRings b.core us = ({ b.core with rings := rings }, cl) ∧
    (let t := setCur { b with core := { b.core with rings := rings } } (drawTakes (curStream s) ks)
     exec i s = .next (after { t with core := { setQueueOf t.core eng (queueOf t.core eng ++ [e]) with issued := s.core.issued + 1 } })) ∧
    e.instr = i ∧ e.stream = s.cur ∧ e.seq = s.core.issued ∧ e.pc = (curStream s).pc ∧ e.words = wordsOf s.words ∧ e.progress = 0 ∧
    e.count = (match y.rows with | none => count | some r => min (readReg s r).toNat count) ∧
    e.descs = (uses.map (·.2.1) ++ beside).map (fun k => tabGet 0 s.core.descs (k % 32)) ∧ e.hvals = hregs.map (readReg s) ∧ e.claims = cl ∧
    e.vctl = s.core.vctlLo ∧ e.seed = s.core.vctlSeed ∧ e.part = part ∧ e.started = false ∧ e.stopped = false

/-- The descriptor register `k` of the core (R145). -/
def descAt (s : State) (k : Nat) : Desc := descOf (tabGet 0 s.core.descs (k % 32))

/-- A source pairs with the elements of a destination (R179). -/
def pairsWith (src dd : Desc) : Prop := descN src = descN dd ∨ descN src = 1 ∨ descN src = descCount dd

/-- The overlap rule of R181 holds for a source of a vector instruction: only a source that is not broadcast may stand in place. -/
def clearOf (src dd : Desc) : Prop := (descN src = descN dd → overlaps src dd = false) ∧ (descN src ≠ descN dd → intersects src dd = false)

/-- The byte and the bit at which element `k` of an operand stands: packed elements lie one behind another in their row (R147, R148). -/
def elemAt (x : Desc) (k : Nat) : Int × Nat :=
  let c := k % descCount x
  if fmtPacked (descFmt x) then (descBase x + rowOff x k + (c * descWidth x / 8 : Nat), c * descWidth x % 8)
  else (descBase x + rowOff x k + c * descEstride x, 0)

/-- `n` bytes of the scratchpad from `a` on can be read, and hold `v`. -/
def spadHolds (s : State) (a : Int) (n v : Nat) : Prop :=
  0 ≤ a ∧ spadOk s a.toNat n = true ∧ spadSound s a.toNat n = true ∧ v = leNat (spadBytes s a.toNat n)

/-- Element `k` of an operand of the scratchpad has the raw bits `b` (R147, R148). -/
def bitsAre (s : State) (x : Desc) (k b : Nat) : Prop :=
  x.type = 1 ∧ ∃ v, spadHolds s (elemAt x k).1 (elemBytes (descFmt x)) v ∧ b = v / 2 ^ (elemAt x k).2 % 2 ^ descWidth x

/-- Element `k` of an operand of the scratchpad has the value `v`: its bits, of no reserved code, decoded, and times the scale of its block
(R26, R30, R149, R179). -/
def valueIs (s : State) (x : Desc) (k : Nat) (v : XR) : Prop :=
  ∃ b, bitsAre s x k b ∧ i4Reserved (descFmt x) b = false ∧ (descScale x = none → v = decodeFmt (descFmt x) b) ∧
    ∀ sf, descScale x = some sf → ∃ z,
      spadHolds s (descBase x + (x.sbase + (k % descCount x / blockSize x * scaleBytes sf : Nat) + (k / descCount x % x.exts.getD 1 0 : Nat) * x.sstride))
        (scaleBytes sf) z ∧
      v = scaledValue (decodeFmt (descFmt x) b) (decodeScale sf z)

/-- Element `k` of a destination of the scratchpad can be written. -/
def canHold (s : State) (x : Desc) (k : Nat) : Prop :=
  x.type = 1 ∧ 0 ≤ (elemAt x k).1 ∧ spadOk s (elemAt x k).1.toNat (elemBytes (descFmt x)) = true

/-- The state with element `k` of a destination of the scratchpad written: of a packed one only its own bits change (R147, R148). -/
def withElem (s : State) (x : Desc) (k bits : Nat) : State :=
  let a := (elemAt x k).1.toNat
  let bs := if fmtPacked (descFmt x) then [BitVec.ofNat 8 (setField (tabGet 0 s.core.spad a).toNat (elemAt x k).2 (descWidth x) bits)]
    else natLe (elemBytes (descFmt x)) bits
  { s with core := putSpad s.core a bs }

/-- The limit of a vector instruction's elements (R179). -/
def elemLimit (e : QEntry) (d : Desc) : Nat := if 1 < descRows d then e.count * descCount d else e.count

/-- The unit at hand of an entry leaves state `t` and the progress index `i`, and completes the instruction when `i` has come to `limit` (R17). -/
def unitLeaves (s : State) (e : QEntry) (t : State) (i limit : Nat) (part : Partial) : Prop :=
  ∃ u, runUnit s e = .ok u ∧ u.s = t ∧ u.e = { e with progress := i, stall := none, part := part } ∧ (u.done = true ↔ limit ≤ i)

/-- Element `k` of a destination receives a value with its flags, rounded once (R31, R42, R45): the flags stick, and an enabled exception traps. The entry
then stands at the progress index `i`. -/
def receives (s : State) (e : QEntry) (d : Desc) (k : Nat) (rm : Rm) (v : FV) (i limit : Nat) (part : Partial) : Prop :=
  let r : Rounding := ⟨rm.getD (modeOfCode (e.vctl.toNat % 8)), e.vctl.getLsbD 3, e.seed, d.tag, k⟩
  let o := roundTo v.1 (descFmt d) r
  let fl := v.2 ||| o.2
  (fl.getLsbD 7 && e.vctl.getLsbD 4) = false →
    (enabledTrap e.vctl fl = none → unitLeaves s e (mergeFlags (withElem s d k o.1) fl) i limit part) ∧
    ∀ n, enabledTrap e.vctl fl = some n → runUnit s e = .error (.trap { cause := .fpTrap, esw := n })

/-- Element `k` of a destination receives raw bits with flags that no trap is enabled for. -/
def receivesBits (s : State) (e : QEntry) (d : Desc) (k bits : Nat) (fl : Flags) (i limit : Nat) (part : Partial) : Prop :=
  fl.getLsbD 7 = false → enabledTrap e.vctl fl = none → unitLeaves s e (mergeFlags (withElem s d k bits) fl) i limit part

/-- The unit at hand of an entry writes elements of two destinations of the scratchpad, each list at once with the flags of its elements, where no trap
is enabled for them. -/
def unitWrites (s : State) (e : QEntry) (d : Desc) (xs : List (Nat × Nat × Flags)) (d2 : Desc) (ys : List (Nat × Nat × Flags)) (i limit : Nat)
    (part : Partial) : Prop :=
  let fl (l : List (Nat × Nat × Flags)) : Flags := l.foldl (fun f x => f ||| x.2.2) 0
  let put (s : State) (d : Desc) (l : List (Nat × Nat × Flags)) : State := mergeFlags (l.foldl (fun s x => withElem s d x.1 x.2.1) s) (fl l)
  (fl xs ||| fl ys).getLsbD 7 = false → enabledTrap e.vctl (fl xs) = none → enabledTrap e.vctl (fl ys) = none →
  unitLeaves s e (put (put s d xs) d2 ys) i limit part

/-- Element `k` of an unscaled operand of memory stands on a SOFT-ABSENT page (R167). -/
def absentAt (s : State) (x : Desc) (k : Nat) : Prop :=
  let a := (elemAt x k).1
  x.type = 3 ∧ descScale x = none ∧ 0 ≤ a ∧ a + elemBytes (descFmt x) ≤ 2 ^ 55 ∧
    ∃ l, translate s (engineAccessor s) .read a.toNat = .ok (.absent l) ∧ pteClass l.entry ≠ 3

/-- A handle names entry `i` of the executing context, which holds `t` (R263, R265). -/
def handleNames (s : State) (h i : Nat) (t : Tile) : Prop :=
  let c := ctxAt s s.core.ctx
  i = h % 4096 ∧ h / 4096 % 2 ^ 20 ≠ 0 ∧ tabGet none c.tiles i = some t ∧ tabGet 0 c.gens i = h / 4096 % 2 ^ 20

/-- The executing context with the entry of a tile replaced. -/
def putTile (s : State) (i : Nat) (t : Option Tile) : State :=
  let c := ctxAt s s.core.ctx
  setCtx s s.core.ctx { c with tiles := tabSet none c.tiles i t }

/-- The fields of a CSR that a write changes (R44, R319, R373): the bits that are writable, and whether the map performs the write. -/
def csrField (n : Nat) (new : Word) : Word × Prop :=
  match n with
  | 0x002 | 0x009 | 0x102 | 0x104 | 0x106 | 0x107 => (BitVec.allOnes 64, True)
  | 0x003 => (0x3F, 10 ≤ new.toNat % 64 ∧ new.toNat % 64 ≤ 40)
  | 0x100 => (0x7FFFFFFFFFFFF8, new.toNat % 8 = 0 ∧ new.toNat / 2 ^ 55 = 0)
  | 0x101 => (0x1FFFFFF, new.toNat % 4 = 0 ∧ new.toNat % 2 ^ 25 ≤ 2 ^ 24)
  | 0x103 => (0xFFFFFFFF, True)
  | 0x105 => (0xFF0F00, True)
  | _ => (0, True)

/-- Nothing waits that could come into force: the partition records of R384, and the detector's count of R318. -/
def settled (s : State) : Prop :=
  (∀ p r, tabGet none s.partsNew p = some r → partitionBusy s p = true) ∧
  ∀ n, (coreAt s n).job.isSome = true → ((coreAt s n).stuckSince.isSome = true ↔ coreStuck s (coreAt s n) = true)

/-- The tables of a core are in their canonical form: its registers, scratchpad, rings, group slots, flows and array state, and the bins that an entry of
a queue carries, or one that a stream still waits to queue. -/
def coreTidy (c : Core) : Prop :=
  let streams : List Stream := [c.c, c.d, c.v, c.x]
  let entries : List QEntry := c.qdata ++ c.qvec ++ c.qmat ++ c.qgrp ++ streams.filterMap fun t => (t.pending.bind (·.ready)).map (·.entry)
  (∀ t ∈ streams, tabSorted t.regs = true) ∧ tabWf 0 c.spad = true ∧ tabSorted c.rings = true ∧ tabSorted c.groups = true ∧
  tabWf Flow.idle c.flows = true ∧ tabWf 0 c.arr.acc = true ∧ tabWf 0 c.arr.side = true ∧ ∀ e ∈ entries, ∀ b, e.part = .bins b → tabWf 0 b = true

/-- The tables of the machine are in their canonical form: memory and vaults, what saved bytes wait to be written with, the cores, those of saved jobs
too, the contexts with their tiles and translations, virtual devices, the adapter tile table, health registers and peers' flows. -/
def tidy (s : State) : Prop :=
  s.mem.wf ∧ tabWf 0 s.vaults = true ∧ (∀ kill va n img k, (k, HeldStep.frame kill va n img) ∈ s.holding → tabWf 0 img = true) ∧
  tabSorted s.others = true ∧ tabSorted s.ctxs = true ∧ tabSorted s.vds = true ∧ tabSorted s.health = true ∧ tabSorted s.rxFlows = true ∧
  tabWf 0 s.att = true ∧ coreTidy s.core ∧ (∀ p ∈ s.others, coreTidy p.2) ∧ (∀ j n, (n, some j) ∈ s.jobs → ∀ c ∈ j.image, coreTidy c) ∧
  ∀ p ∈ s.ctxs, tabSorted p.2.tiles = true ∧ tabSorted p.2.tlb = true

end Sys2Proof.Claims

open Sys2Proof Sys2Proof.Machine Sys2Proof.Claims

/-! ### Encoding -/

/-- R51 to R60, R64: decoding the words of a well-formed instruction of classes Q, S and F gives the instruction, with every operand. -/
def Obligations.RoundTripScalar : Prop := ∀ i, classIn i [0, 1, 2] → roundTrips i

/-- R54 to R56, R184, R201, R231, R255: decoding the words of a well-formed instruction of classes V and X gives the instruction, with every
operand and its sync word. -/
def Obligations.RoundTripVectorAndArray : Prop := ∀ i, classIn i [3, 4] → roundTrips i

/-- R152 to R162, R169, R274, R332, R350, R375, R422, R440: decoding the words of a well-formed instruction of classes D, T and P gives the
instruction, with every operand and its sync word. -/
def Obligations.RoundTripDataTileSystem : Prop := ∀ i, classIn i [5, 6, 7] → roundTrips i

/-- Words written out from the encodings of the spec (the examples of its chapters among them) decode to the instructions they stand for, in every
class; a word of E 0 with reserved bits set, and an extension word in the place of an instruction, decode to none. -/
def Obligations.DecodeSanity : Prop :=
  decodeWords .c false false [0x00000000] = .ok .nop ∧
  decodeWords .v false false [0x014503FD] = .ok (.bccNe 5 0 ⟨-3, false⟩) ∧
  decodeWords .c false false [0x02800C03] = .ok (.loop 3 3) ∧
  decodeWords .d false false [0x04C303FE] = .ok (.semset 3 0 (-2)) ∧
  decodeWords .c false false [0x20020840] = .ok (.add 2 2 4) ∧
  decodeWords .d false false [0x280517FF] = .ok (.addi 5 5 ⟨-1, false⟩) ∧
  decodeWords .c false false [0x2A120000, 0xF0000010] = .ok (.li 18 ⟨0x100000, true⟩) ∧
  decodeWords .c false false [0x45040400] = .ok (.ld4s 4 1 ⟨0, false⟩) ∧
  decodeWords .c false false [0x46914800] = .ok (.st4 17 18 ⟨0, false⟩) ∧
  decodeWords .v false false [0x60061101, 0x92188038] =
    .ok (.vadd 3 1 2 (some .rtz) { take0 := some 1, take1 := some 2, take2 := none, give := some 4, rows := some 3, nt := false }) ∧
  decodeWords .x false false [0x81000080, 0x00000028] =
    .ok (.xpass false 0 1 { take0 := none, take1 := none, take2 := none, give := none, rows := some 2, nt := false }) ∧
  decodeWords .d false false [0xA80821A8, 0x00000000] =
    .ok (.dput 5 4 2 3 { take0 := none, take1 := none, take2 := none, give := none, rows := none, nt := false }) ∧
  decodeWords .c false false [0xC1CC28B0] = .ok (.tsplit 12 10 11) ∧
  decodeWords .c false false [0xC8050C41] = .ok (.launchTry 5 3 4) ∧
  decodeWords .c true false [0xCA451000] = .ok (.pmig .toHbm 5 4) ∧
  decodeWords .c false false [0xE00027FF] = .ok (.trap 9 1023) ∧
  decodeWords .c true false [0xE0C51909] = .ok (.csrw 5 6 0x109) ∧
  decodeWords .x false false [0xE1FFFFFF] = .ok (.brk 0x3FFFFF) ∧
  decodeWords .c false false [0x00000001] = .error .reservedField ∧
  (∀ w ∈ [0xF0000010, 0xFFFFFFFF], isExtWord w = true ∧ decodeWords .c false false [w] = .error .extWordMisplaced)

/-! ### Scalar integer instructions -/

/-- R95: the register-with-register instructions that never fault, each with its result in gd. -/
def Obligations.IntegerResults : Prop :=
  ∀ (s : State) (d a b : Nat),
    let x := readReg s a
    let y := readReg s b
    exec (.add d a b) s = .next (advance (writeReg s d (x + y))) ∧
    exec (.sub d a b) s = .next (advance (writeReg s d (x - y))) ∧
    exec (.mul d a b) s = .next (advance (writeReg s d (BitVec.ofNat 64 (x.toNat * y.toNat)))) ∧
    exec (.mulh d a b) s = .next (advance (writeReg s d (BitVec.ofInt 64 (x.toInt * y.toInt / 2 ^ 64)))) ∧
    exec (.mulhn d a b) s = .next (advance (writeReg s d (BitVec.ofNat 64 (x.toNat * y.toNat / 2 ^ 64)))) ∧
    exec (.and d a b) s = .next (advance (writeReg s d (x &&& y))) ∧
    exec (.or d a b) s = .next (advance (writeReg s d (x ||| y))) ∧
    exec (.xor d a b) s = .next (advance (writeReg s d (x ^^^ y))) ∧
    exec (.shl d a b) s = .next (advance (writeReg s d (BitVec.ofNat 64 (x.toNat * 2 ^ (y.toNat % 64))))) ∧
    exec (.shr d a b) s = .next (advance (writeReg s d (BitVec.ofNat 64 (x.toNat / 2 ^ (y.toNat % 64))))) ∧
    exec (.sar d a b) s = .next (advance (writeReg s d (BitVec.ofInt 64 (x.toInt / 2 ^ (y.toNat % 64))))) ∧
    exec (.min d a b) s = .next (advance (writeReg s d (BitVec.ofInt 64 (min x.toInt y.toInt)))) ∧
    exec (.max d a b) s = .next (advance (writeReg s d (BitVec.ofInt 64 (max x.toInt y.toInt)))) ∧
    exec (.minn d a b) s = .next (advance (writeReg s d (BitVec.ofNat 64 (min x.toNat y.toNat)))) ∧
    exec (.maxn d a b) s = .next (advance (writeReg s d (BitVec.ofNat 64 (max x.toNat y.toNat)))) ∧
    exec (.slt d a b) s = .next (advance (writeReg s d (if x.toInt < y.toInt then 1 else 0))) ∧
    exec (.sltn d a b) s = .next (advance (writeReg s d (if x.toNat < y.toNat then 1 else 0))) ∧
    exec (.seq d a b) s = .next (advance (writeReg s d (if x = y then 1 else 0))) ∧
    exec (.sel d a b) s = .next (advance (writeReg s d (if readReg s d ≠ 0 then x else y)))

/-- R95, R96: DIV, DIVN and REM by a divisor other than 0 give the quotient and the remainder, −2^63 by −1 included; by 0 they fault with
DIVIDE_BY_ZERO, and gd is unchanged. -/
def Obligations.DivideResults : Prop :=
  ∀ (s : State) (d a b : Nat),
    let x := readReg s a
    let y := readReg s b
    (y ≠ 0 →
      exec (.div d a b) s = .next (advance (writeReg s d (BitVec.ofInt 64 (Int.tdiv x.toInt y.toInt)))) ∧
      exec (.divn d a b) s = .next (advance (writeReg s d (BitVec.ofNat 64 (x.toNat / y.toNat)))) ∧
      exec (.rem d a b) s = .next (advance (writeReg s d (BitVec.ofInt 64 (Int.tmod x.toInt y.toInt))))) ∧
    (y = 0 → ∀ i ∈ [Instr.div d a b, .divn d a b, .rem d a b], exec i s = .next (trapCur s { cause := .divideByZero }))

/-- R95, R97: BFX extracts and BFI inserts the field that G(gb) names, a width above 64 acting as 64; CLZ, CTZ and POPC count, and each count is
characterised by the bits of G(ga). -/
def Obligations.BitFieldResults : Prop :=
  ∀ (s : State) (d a b : Nat),
    let x := readReg s a
    let sel := (readReg s b).toNat
    let pos := sel % 64
    let wid := sel / 256 % 128
    (∃ out ins : Word,
      exec (.bfx d a b) s = .next (advance (writeReg s d out)) ∧ exec (.bfi d a b) s = .next (advance (writeReg s d ins)) ∧
      (∀ i < 64, out.getLsbD i = (decide (i < wid) && x.getLsbD (pos + i))) ∧
      (∀ i < 64, ins.getLsbD i = if pos ≤ i ∧ i < pos + wid then x.getLsbD (i - pos) else (readReg s d).getLsbD i)) ∧
    (∃ n, exec (.clz d a) s = .next (advance (writeNat s d n)) ∧ n ≤ 64 ∧ (∀ i, i < n → x.getLsbD (63 - i) = false) ∧
      (n < 64 → x.getLsbD (63 - n) = true)) ∧
    (∃ n, exec (.ctz d a) s = .next (advance (writeNat s d n)) ∧ n ≤ 64 ∧ (∀ i, i < n → x.getLsbD i = false) ∧ (n < 64 → x.getLsbD n = true)) ∧
    exec (.popc d a) s = .next (advance (writeNat s d (((List.range 64).filter fun i => x.getLsbD i).length)))

/-- R98 to R100: the register-with-immediate instructions, LI, LIH and ADDPC. -/
def Obligations.ImmediateResults : Prop :=
  ∀ (s : State) (d a sh : Nat) (i : Imm),
    let x := readReg s a
    let m := BitVec.ofInt 64 i.val
    exec (.addi d a i) s = .next (advance (writeReg s d (x + m))) ∧
    exec (.andi d a i) s = .next (advance (writeReg s d (x &&& m))) ∧
    exec (.ori d a i) s = .next (advance (writeReg s d (x ||| m))) ∧
    exec (.xori d a i) s = .next (advance (writeReg s d (x ^^^ m))) ∧
    exec (.shli d a sh) s = .next (advance (writeReg s d (x <<< sh))) ∧
    exec (.shri d a sh) s = .next (advance (writeReg s d (x >>> sh))) ∧
    exec (.sari d a sh) s = .next (advance (writeReg s d (x.sshiftRight sh))) ∧
    exec (.li d i) s = .next (advance (writeReg s d m)) ∧
    exec (.addpc d i) s = .next (advance (writeReg s d ((curStream s).pc + m))) ∧
    (∃ v : Word, exec (.lih d i) s = .next (advance (writeReg s d v)) ∧
      ∀ k < 64, v.getLsbD k = if 64 - (if i.ext then 44 else 16) ≤ k then i.val.toNat.testBit (k - (64 - if i.ext then 44 else 16))
        else (readReg s d).getLsbD k)

/-- R10, R83, R95 to R100: register 0 reads as zero, and an instruction that writes it discards its result: the flow goes on as after any other. The
frame of the integer instructions in a stream that is not single stepped: gd, the PC and the loop stack change, and no other register, stream, flag,
special register or byte of memory. -/
def Obligations.IntegerFrame : Prop :=
  (∀ (s : State) (a b : Nat) (i : Imm), readReg s 0 = 0 ∧ (∀ v, writeReg s 0 v = s) ∧
    exec (.add 0 a b) s = .next (advance s) ∧ exec (.li 0 i) s = .next (advance s) ∧ exec (.popc 0 a) s = .next (advance s)) ∧
  ∀ (s : State) (d a b sh : Nat) (i : Imm), (curStream s).step = .off → tabSorted (curStream s).regs = true →
    (∀ ins ∈ [Instr.add d a b, .sub d a b, .mul d a b, .mulh d a b, .mulhn d a b, .and d a b, .or d a b, .xor d a b, .shl d a b, .shr d a b,
        .sar d a b, .min d a b, .max d a b, .minn d a b, .maxn d a b, .slt d a b, .sltn d a b, .seq d a b, .sel d a b, .clz d a, .ctz d a,
        .popc d a, .bfx d a b, .bfi d a b, .addi d a i, .andi d a i, .ori d a i, .xori d a i, .shli d a sh, .shri d a sh, .sari d a sh, .li d i,
        .lih d i, .addpc d i],
      ∃ t, exec ins s = .next t ∧ onlyRegisters s t [d]) ∧
    (readReg s b ≠ 0 → ∀ ins ∈ [Instr.div d a b, .divn d a b, .rem d a b], ∃ t, exec ins s = .next t ∧ onlyRegisters s t [d])

/-! ### Steps -/

/-- The turn `w` is the one that the next step takes, in the state `d`: the pinned one, or the one that the schedule has drawn where no migration holds
it (R3, R412, R427). -/
def nextIs (s d : State) (w : Turn) : Prop :=
  (s.pin = some w ∧ d = { s with pin := none, hostHeld := s.hostHeld.erase w }) ∨
  (s.pin = none ∧ s.turn = w ∧ requestHeld s w = false ∧ (∀ v u, hostFunction w = some v → u ∈ s.hostHeld → hostFunction u ≠ some v) ∧ d = s)

/-- R66, R83: when the schedule gives the turn to a stream in RUN of a running job, and no fault of an engine, no handler entry and no timer comes
first, a step executes the instruction that stands at its PC, charges the issue purse for it, and ends as every step does. The turn of an event
performs the event. R412, R427: a request of the host that a migration holds, and one behind it of the same function, only joins those that wait, which
have turns of their own after that (the model's choice of log 123). -/
def Obligations.StepRunsDecoded : Prop :=
  (∀ (s d : State) (core : Nat) (st : StreamName) (i : Instr) (f t : State),
    nextIs s d (.stream core st) → core < coreCount →
    let b := { focusOn d core with cur := st, words := [], held := false }
    (curStream b).state = .run → coreRuns b b.focus = true → (curStream b).fault = none →
    (curStream b).step ≠ .due (levelP b) → (st = .c → (tstatInh b.core = true ∨ firstPend b.core = none) ∧ timerDue b b.focus = false) →
    0 < purseFunds (purseAt b 0 b.focus (curCtx b).vd) →
    standsAt b f i → exec i f = .next t → step s = .next (endStep (chargeIssue b t))) ∧
  (∀ (s d : State) (i : Instr) (t : State), nextIs s d (.event i) → encode i = [] → exec i d = .next t → step s = .next (endStep t)) ∧
  (∀ (s : State) (v off n : Nat) (bytes : List Byte) (tee : Option Nat),
    ∀ i ∈ [Instr.windowRead v off n tee, .windowWrite v off bytes tee], s.pin = none → s.turn = .event i →
      requestHeld s (.event i) = true ∨ (∃ u ∈ s.hostHeld, hostFunction u = some v) →
      step s = .next (endStep { s with hostHeld := s.hostHeld ++ [.event i] }))

/-! ### Sequencing -/

/-- R85 to R92, R139, R140: the instructions of class Q that change the flow, each with the state that follows, and where CALL, RET, LOOP and RNDV
fault.

R91, R92: an instruction that completes without a change of flow makes the back-edge of the innermost loop that ends in it and has passes left;
the loops inside that one, which end there too, are exhausted and leave the stack; without such a loop the flow goes on behind the instruction.
A taken branch pops exactly the loops, from the innermost out, whose body does not hold its target. -/
def Obligations.FlowResults : Prop :=
  (∀ (s : State) (a b words gd : Nat) (off : Imm),
    let t := curStream s
    let x := readReg s a
    let y := readReg s b
    let target := t.pc + BitVec.ofInt 64 (4 * off.val)
    let start := t.pc + 4
    let stop := start + BitVec.ofNat 64 (4 * words)
    exec .nop s = .next (advance s) ∧
    exec (.b off) s = .next (branchTo s target) ∧
    (t.rets.length ≠ 8 → exec (.call off) s =
      .next (completeAt (setCur s { t with rets := t.rets ++ [t.pc + BitVec.ofNat 64 (4 * s.words.length)] }) target)) ∧
    (∀ pre pc, t.rets = pre ++ [pc] → exec .ret s = .next (completeAt (setCur s { t with rets := pre }) pc)) ∧
    (∀ p ∈ [(Instr.bccEq a b off, decide (x = y)), (.bccNe a b off, decide (x ≠ y)), (.bccLt a b off, decide (x.toInt < y.toInt)),
        (.bccGe a b off, decide (y.toInt ≤ x.toInt)), (.bccLtn a b off, decide (x.toNat < y.toNat)), (.bccGen a b off, decide (y.toNat ≤ x.toNat))],
      exec p.1 s = .next (if p.2 then branchTo s target else advance s)) ∧
    (words ≠ 0 → t.loops.length ≠ 8 → (∀ pre e, t.loops = pre ++ [e] → stop.toNat ≤ e.stop.toNat) →
      exec (.loop a words) s = .next (if x = 0 then advanceBy s (4 + 4 * words)
        else completeAt (setCur s { t with loops := t.loops ++ [⟨start, stop, x⟩] }) start)) ∧
    (t.loops = [] → (s.cur = .c → t.rets = []) →
      exec .rndv s = .next (retireCur (setCur s { t with state := .met, pending := none, displaced := keptWords s }))) ∧
    (∀ p ∈ [(0x200, s.core.jobRank), (0x203, streamNum s.cur), (0x204, s.focus), (0x205, s.focus / 384),
        (0x206, s.focus / 8 % 48 + s.focus % 8 * 256), (0x207, (ctxAt s s.core.ctx).vd), (0x208, s.core.ctx)],
      exec (.whereQ gd p.1) s = .next (advance (writeNat s gd p.2))) ∧
    (∀ j, curJob s = some j → (∀ p ∈ [(0x201, jobSize j), (0x202, j.kern.levels.length)],
        exec (.whereQ gd p.1) s = .next (advance (writeNat s gd p.2))) ∧
      ∀ l < 6, exec (.whereQ gd l) s = .next (advance (writeNat s gd (coordAt j s.core.jobRank l))) ∧
        exec (.whereQ gd (0x100 + l)) s =
          .next (advance (writeNat s gd (if l < j.kern.levels.length then j.rcd.exts.getD l 0 else 1)))) ∧
    (t.rets.length = 8 → trapsWith (.call off) s .callDepth) ∧
    (t.rets = [] → trapsWith .ret s .callDepth) ∧
    trapsWith (.loop a 0) s .reservedField ∧
    (words ≠ 0 → t.loops.length = 8 → trapsWith (.loop a words) s .loopNest) ∧
    (words ≠ 0 → t.loops.length ≠ 8 → (∀ pre e, t.loops = pre ++ [e] → e.stop.toNat < stop.toNat → trapsWith (.loop a words) s .loopNest)) ∧
    (t.loops ≠ [] ∨ (s.cur = .c ∧ t.rets ≠ []) → trapsWith .rndv s .rndvMismatch)) ∧
  ((∀ (s : State) (outer spent : List LoopEntry) (e : LoopEntry) (len : Nat),
    let t := curStream s
    let ends (e : LoopEntry) : Prop := t.pc.toNat < e.stop.toNat ∧ e.stop.toNat ≤ t.pc.toNat + len
    (t.loops = outer ++ e :: spent → (∀ x ∈ spent, ends x ∧ x.left = 1) → ends e → e.left ≠ 1 →
      advanceBy s len = completeAt (setCur s { t with loops := outer ++ [{ e with left := e.left - 1 }] }) e.start) ∧
    (t.loops = outer ++ spent → (∀ x ∈ spent, ends x ∧ x.left = 1) → (∀ pre x, outer = pre ++ [x] → ¬ ends x) →
      advanceBy s len = completeAt (setCur s { t with loops := outer }) (t.pc + BitVec.ofNat 64 len))) ∧
  (∀ (s : State) (outer spent : List LoopEntry) (target : Word),
    let t := curStream s
    let holds (e : LoopEntry) : Prop := e.start.toNat ≤ target.toNat ∧ target.toNat < e.stop.toNat
    t.loops = outer ++ spent → (∀ x ∈ spent, ¬ holds x) → (∀ pre x, outer = pre ++ [x] → holds x) →
      branchTo s target = completeAt (setCur s { t with loops := outer }) target))

/-! ### Scalar floating point -/

/-- R102 to R104, R108, R109: each arithmetic instruction and each conversion rounds its exact result once, with tag 0 and index 0, writes it to gd,
and merges its flags into VSTAT, when no exception that arises has its trap enabled. -/
def Obligations.FloatResults : Prop :=
  ∀ (s : State) (d a b fmt : Nat) (rm : Rm),
    let x := decodeFmt .f32 ((readReg s a).toNat % 2 ^ 32)
    let y := decodeFmt .f32 ((readReg s b).toNat % 2 ^ 32)
    let z := decodeFmt .f32 ((readReg s d).toNat % 2 ^ 32)
    let r : Rounding := ⟨rm.getD (modeOfCode (s.core.vctlLo.toNat % 8)), s.core.vctlLo.getLsbD 3, s.core.vctlSeed, 0, 0⟩
    let rdn := decide (r.mode = .rdn)
    let quiet (fl : Flags) : Prop := (fl.getLsbD 7 && s.core.vctlLo.getLsbD 4) = false ∧ enabledTrap s.core.vctlLo fl = none
    let gives (i : Instr) (v : FV) (f : Fmt) (out : Nat → Nat) : Prop :=
      let o := roundTo v.1 f r
      quiet (v.2 ||| o.2) → exec i s = .next (advance (writeNat (mergeFlags s (v.2 ||| o.2)) d (out o.1)))
    (∀ p ∈ [(Instr.fadd d a b rm, xAdd rdn x y), (.fsub d a b rm, xSub rdn x y), (.fmul d a b rm, xMul x y), (.ffma d a b rm, xFma rdn x y z),
        (.fdiv d a b rm, xDiv x y), (.fsqrt d a rm, fSqrt x)], gives p.1 p.2 .f32 id) ∧
    (∀ f, fmtOfCode fmt = some f →
      (f ≠ .b1 → gives (.fcvtTo d a fmt rm) (x, 0) f fun v =>
        if f = .i4s ∨ f = .i8 ∨ f = .i16 ∨ f = .i32 ∨ f = .i64 then truncBits (signExt v (fmtWidth f)) 64 else v) ∧
      (f = .b1 → trapsWith (.fcvtTo d a fmt rm) s .formatUnsupported) ∧
      (let bits := (readReg s a).toNat % 2 ^ fmtWidth f
       gives (.fcvtFrom d a fmt rm) (decodeFmt f bits, if f = .i4s ∧ bits = 8 then flagI4 else 0) .f32 id))

/-- R105 to R107: FMIN, FMAX and FCLASS set no flag; FCMP writes 0 or 1 and sets NV for LT and LE when either source is NaN. -/
def Obligations.FloatComparisons : Prop :=
  ∀ (s : State) (d a b : Nat),
    let p := (readReg s a).toNat % 2 ^ 32
    let q := (readReg s b).toNat % 2 ^ 32
    let x := decodeFmt .f32 p
    let y := decodeFmt .f32 q
    let nan (n : Nat) : Prop := n % 2 ^ 31 > 0x7F800000
    let gives (cc : FCond) (v : Prop) (fl : Flags) : Prop :=
      (fl ≠ 0 → s.core.vctlLo.getLsbD 5 = false) →
      ∃ n, exec (.fcmp cc d a b) s = .next (advance (writeNat (mergeFlags s fl) d n)) ∧ (v → n = 1) ∧ (¬ v → n = 0)
    (∀ i ∈ [Instr.fmin d a b, .fmax d a b], nan p ∨ nan q → exec i s = .next (advance (writeNat s d 0x7FC00000))) ∧
    (¬ nan p → ¬ nan q → ∃ lo hi, exec (.fmin d a b) s = .next (advance (writeNat s d lo)) ∧
      exec (.fmax d a b) s = .next (advance (writeNat s d hi)) ∧ lo ∈ [p, q] ∧ hi ∈ [p, q] ∧
      ∀ v ∈ [p, q], xLtSigned (decodeFmt .f32 v) (decodeFmt .f32 lo) = false ∧ xLtSigned (decodeFmt .f32 hi) (decodeFmt .f32 v) = false) ∧
    (¬ nan p → ¬ nan q → gives .eq (xCmp x y = some .eq) 0 ∧ gives .lt (xCmp x y = some .lt) 0 ∧
      gives .le (xCmp x y = some .lt ∨ xCmp x y = some .eq) 0 ∧ gives .un False 0) ∧
    (nan p ∨ nan q → gives .eq False 0 ∧ gives .lt False flagNV ∧ gives .le False flagNV ∧ gives .un True 0) ∧
    (∃ k, exec (.fclass d a) s = .next (advance (writeNat s d (2 ^ k))) ∧
      (p = 0xFF800000 → k = 0) ∧ (0x80800000 ≤ p → p < 0xFF800000 → k = 1) ∧ (0x80000000 < p → p < 0x80800000 → k = 2) ∧
      (p = 0x80000000 → k = 3) ∧ (p = 0 → k = 4) ∧ (0 < p → p < 0x800000 → k = 5) ∧ (0x800000 ≤ p → p < 0x7F800000 → k = 6) ∧
      (p = 0x7F800000 → k = 7) ∧ (nan p → k = 8))

/-- R45, R103, R106, R110: an exception whose enable bit in VCTL is 1 makes an arithmetic instruction, a conversion or FCMP fault with FP_TRAP, the
exception in ESW, and gd and the flags stay as they were; a reserved I4S code under VCTL.I4TRAP faults INT4_RESERVED_TRAP. Of several enabled
exceptions the lowest flag is named (log 21, the model's choice). -/
def Obligations.FloatTraps : Prop :=
  ∀ (s : State) (d a b fmt : Nat) (rm : Rm) (n : Nat),
    let r : Rounding := ⟨rm.getD (modeOfCode (s.core.vctlLo.toNat % 8)), s.core.vctlLo.getLsbD 3, s.core.vctlSeed, 0, 0⟩
    let p := (readReg s a).toNat % 2 ^ 32
    let q := (readReg s b).toNat % 2 ^ 32
    let x := decodeFmt .f32 p
    let y := decodeFmt .f32 q
    let z := decodeFmt .f32 ((readReg s d).toNat % 2 ^ 32)
    let rdn := decide (r.mode = .rdn)
    let nan (n : Nat) : Prop := n % 2 ^ 31 > 0x7F800000
    let traps (i : Instr) (v : FV) (f : Fmt) : Prop :=
      let fl := v.2 ||| (roundTo v.1 f r).2
      n < 3 → fl.getLsbD n = true → s.core.vctlLo.getLsbD (5 + n) = true → (∀ k < n, (fl.getLsbD k && s.core.vctlLo.getLsbD (5 + k)) = false) →
      (fl.getLsbD 7 && s.core.vctlLo.getLsbD 4) = false → exec i s = .next (trapCur s { cause := .fpTrap, esw := n })
    (∀ p ∈ [(Instr.fadd d a b rm, xAdd rdn x y), (.fsub d a b rm, xSub rdn x y), (.fmul d a b rm, xMul x y), (.ffma d a b rm, xFma rdn x y z),
        (.fdiv d a b rm, xDiv x y), (.fsqrt d a rm, fSqrt x)], traps p.1 p.2 .f32) ∧
    (∀ f, fmtOfCode fmt = some f → (f ≠ .b1 → traps (.fcvtTo d a fmt rm) (x, 0) f) ∧
      (let bits := (readReg s a).toNat % 2 ^ fmtWidth f
       traps (.fcvtFrom d a fmt rm) (decodeFmt f bits, if f = .i4s ∧ bits = 8 then flagI4 else 0) .f32)) ∧
    (nan p ∨ nan q → s.core.vctlLo.getLsbD 5 = true →
      ∀ cc ∈ [FCond.lt, .le], exec (.fcmp cc d a b) s = .next (trapCur s { cause := .fpTrap, esw := 0 })) ∧
    ((readReg s a).toNat % 16 = 8 → s.core.vctlLo.getLsbD 4 = true → trapsWith (.fcvtFrom d a 9 rm) s .int4ReservedTrap)

/-! ### Scalar memory -/

/-- R111, R116, R121: the first rows of the fault tables of scalar loads, stores and atomics: an address in no space, a misaligned one, and one
outside the scratchpad or the vaults. -/
def Obligations.ScalarAddressFaults : Prop :=
  ∀ (s : State) (d a b : Nat) (imm : Imm) (op : AmoOp),
    let off := readReg s a + BitVec.ofInt 64 imm.val
    ∀ p ∈ [(Instr.ld1s d a imm, off, 1, Cause.ldAlign), (.ld1z d a imm, off, 1, .ldAlign), (.ld2s d a imm, off, 2, .ldAlign),
        (.ld2z d a imm, off, 2, .ldAlign), (.ld4s d a imm, off, 4, .ldAlign), (.ld4z d a imm, off, 4, .ldAlign), (.ld8 d a imm, off, 8, .ldAlign),
        (.ld16 d a imm, off, 16, .ldAlign), (.dld d a imm, off, 32, .ldAlign), (.st1 d a imm, off, 1, .stAlign), (.st2 d a imm, off, 2, .stAlign),
        (.st4 d a imm, off, 4, .stAlign), (.st8 d a imm, off, 8, .stAlign), (.st16 d a imm, off, 16, .stAlign), (.dst d a imm, off, 32, .stAlign),
        (.amo4 op d a b, readReg s a, 4, .atomicAlign), (.amo8 op d a b, readReg s a, 8, .atomicAlign),
        (.acas4 d a b, readReg s a, 4, .atomicAlign), (.acas8 d a b, readReg s a, 8, .atomicAlign)],
      let ea := p.2.1.toNat
      let n := p.2.2.1
      let space := ea / 2 ^ 55
      (space ≠ 0 → space ≠ 0x100 → space ≠ 0x101 → exec p.1 s = .next (trapCur s { cause := .noMapping, va := ea })) ∧
      (space = 0 ∨ space = 0x100 ∨ space = 0x101 → ea % n ≠ 0 → exec p.1 s = .next (trapCur s { cause := p.2.2.2, va := ea })) ∧
      (space = 0x100 → ea % n = 0 → 524288 < ea % 2 ^ 55 + n → trapsWith p.1 s .spadRange) ∧
      (space = 0x101 → ea % n = 0 → ea % 2 ^ 55 / 2 ^ 31 ≠ 0 ∨ 384 ≤ ea / 2 ^ 22 % 512 → trapsWith p.1 s .vaultRange)

/-- R111, R112, R402, R406: what a load writes when its access is made, with the sign or zeros above the bytes it reads; and the bytes that it reads in
the core's own scratchpad, in a vault, in memory, and in a page of class DEVICE, of memory or of a register view. -/
def Obligations.LoadResults : Prop :=
  ∀ (s : State) (d a : Nat) (imm : Imm),
    let ea := readReg s a + BitVec.ofInt 64 imm.val
    (∀ (t : State) (bs : List Byte),
      (∀ p ∈ [(Instr.ld1s d a imm, 1), (.ld2s d a imm, 2), (.ld4s d a imm, 4)], scalarLoad s ea p.2 = .ok (t, bs) →
        exec p.1 s = .next (advance (writeReg t d (((wordOfBytes bs).setWidth (8 * p.2)).signExtend 64)))) ∧
      (∀ p ∈ [(Instr.ld1z d a imm, 1), (.ld2z d a imm, 2), (.ld4z d a imm, 4), (.ld8 d a imm, 8)], scalarLoad s ea p.2 = .ok (t, bs) →
        exec p.1 s = .next (advance (writeReg t d (wordOfBytes bs)))) ∧
      (scalarLoad s ea 16 = .ok (t, bs) →
        exec (.ld16 d a imm) s = .next (advance (writeReg (writeReg t d (wordOfBytes (bs.take 8))) (d + 1) (wordOfBytes (bs.drop 8)))))) ∧
    (∀ n ∈ [1, 2, 4, 8, 16], ea.toNat % n = 0 →
      (ea.toNat / 2 ^ 55 = 0x100 → spadOk s (ea.toNat % 2 ^ 55) n = true → spadSound s (ea.toNat % 2 ^ 55) n = true →
        scalarLoad s ea n = .ok (s, (List.range n).map fun k => tabGet 0 s.core.spad (ea.toNat % 2 ^ 55 + k))) ∧
      (ea.toNat / 2 ^ 31 = 0x101 * 2 ^ 24 → vaultOk s (ea.toNat % 2 ^ 31) n = true → vaultSound s (ea.toNat % 2 ^ 31) n = true →
        scalarLoad s ea n = .ok (s, (List.range n).map fun k => tabGet 0 s.vaults (ea.toNat % 2 ^ 31 + k))) ∧
      (ea.toNat / 2 ^ 55 = 0 → ∀ l pa, translate s (curAccessor s) .read ea.toNat = .ok (.here l pa) →
        (pteClass l.entry ≠ 3 → ∀ s', pageChecks s (curAccessor s) l pa ea.toNat n true false = .ok s' →
          scalarLoad s ea n = .ok (s', physBytes s' pa n)) ∧
        (pteClass l.entry = 3 → n = 4 ∨ n = 8 →
          (paTier pa = none → scalarLoad s ea n = .ok (s, natLe n (viewRead s (viewAt pa).1 (viewAt pa).2 n))) ∧
          (paTier pa ≠ none → ∀ s', deviceChecks s (curAccessor s) pa ea.toNat n false = .ok s' → scalarLoad s ea n = .ok (s', physBytes s' pa n)))))

/-- R111, R113: a store writes exactly the low bytes of its register at its effective address, in the core's scratchpad, in a vault or in memory,
and changes no other byte, no vault, no other core and no register. In memory, the first access of another die to a PRIVATE page also rewrites the
page's leaf (R406); the memory of register views is not written. -/
def Obligations.StoreEffects : Prop :=
  ∀ (s : State) (d a : Nat) (imm : Imm),
    let ea := (readReg s a + BitVec.ofInt 64 imm.val).toNat
    let src (k : Nat) : Byte := if k < 8 then byteOf (readReg s d) k else byteOf (readReg s (d + 1)) (k - 8)
    ∀ p ∈ [(Instr.st1 d a imm, 1), (.st2 d a imm, 2), (.st4 d a imm, 4), (.st8 d a imm, 8), (.st16 d a imm, 16)],
      let n := p.2
      ea % n = 0 → tabSorted s.core.spad = true → tabSorted s.vaults = true → tabSorted s.mem = true →
      (ea / 2 ^ 55 = 0x100 → spadOk s (ea % 2 ^ 55) n = true → ∃ spad dirty,
        exec p.1 s = .next (advance { s with core := { s.core with spad := spad, dirty := dirty } }) ∧ storesAt s.core.spad spad (ea % 2 ^ 55) n src ∧
        ea % 2 ^ 55 / 4096 ∈ dirty) ∧
      (ea / 2 ^ 31 = 0x101 * 2 ^ 24 → vaultOk s (ea % 2 ^ 31) n = true → ∃ v,
        exec p.1 s = .next (advance { s with vaults := v }) ∧ storesAt s.vaults v (ea % 2 ^ 31) n src) ∧
      (ea / 2 ^ 55 = 0 → ∀ l pa, translate s (curAccessor s) .write ea = .ok (.here l pa) →
        let stays (t : State) : Prop := t.core = s.core ∧ t.vaults = s.vaults ∧ t.others = s.others
        (pteClass l.entry = 3 → n = 4 ∨ n = 8 → paTier pa = none → ∃ t, exec p.1 s = .next (advance t) ∧ t.mem = s.mem ∧ stays t) ∧
        (pteClass l.entry = 3 → n = 4 ∨ n = 8 → paTier pa ≠ none → ∀ s', deviceChecks s (curAccessor s) pa ea n true = .ok s' →
          ∃ t, exec p.1 s = .next (advance t) ∧ storesAt s.mem t.mem pa n src ∧ stays t) ∧
        (pteClass l.entry ≠ 3 → ∀ s', pageChecks s (curAccessor s) l pa ea n false true = .ok s' →
          ∃ t, exec p.1 s = .next (advance t) ∧ stays t ∧ storesAt s'.mem t.mem pa n src ∧
            ∀ x, ¬ leafByte s l ea x → tabGet 0 s'.mem x = tabGet 0 s.mem x))

/-- R118 to R120: an atomic of 4 or 8 bytes stores the new value, writes the old one to gd, zero-extended, and changes no other byte, no vault and no
other core; a failed ACAS stores nothing. The old value is that of the bytes at its address. In memory, the first access of another die to a PRIVATE
page also rewrites the page's leaf (R406). -/
def Obligations.AtomicResults : Prop :=
  ∀ (s : State) (op : AmoOp) (d a b : Nat),
    let ea := (readReg s a).toNat
    ∀ p ∈ [(Instr.amo4 op d a b, 4, true), (.amo8 op d a b, 8, true), (.acas4 d a b, 4, false), (.acas8 d a b, 8, false)],
      let n := p.2.1
      let amo := p.2.2
      let src (old k : Nat) : Byte := if amo then BitVec.ofNat 8 (amoNew op n old (readReg s b) / 2 ^ (8 * k)) else byteOf (readReg s b) k
      let writes (old : Nat) : Prop := amo = true ∨ old = (readReg s d).toNat % 2 ^ (8 * n)
      ea % n = 0 → tabSorted s.core.spad = true → tabSorted s.vaults = true → tabSorted s.mem = true →
      (ea / 2 ^ 55 = 0x100 → spadOk s (ea % 2 ^ 55) n = true → spadSound s (ea % 2 ^ 55) n = true →
        let old := leNat ((List.range n).map fun k => tabGet 0 s.core.spad (ea % 2 ^ 55 + k))
        ∃ t, exec p.1 s = .next (advance (writeNat t d old)) ∧
          (writes old → ∃ spad dirty, t = { s with core := { s.core with spad := spad, dirty := dirty } } ∧
            storesAt s.core.spad spad (ea % 2 ^ 55) n (src old)) ∧ (¬ writes old → t = s)) ∧
      (ea / 2 ^ 31 = 0x101 * 2 ^ 24 → vaultOk s (ea % 2 ^ 31) n = true → vaultSound s (ea % 2 ^ 31) n = true →
        let old := leNat ((List.range n).map fun k => tabGet 0 s.vaults (ea % 2 ^ 31 + k))
        ∃ t, exec p.1 s = .next (advance (writeNat t d old)) ∧
          (writes old → ∃ v, t = { s with vaults := v } ∧ storesAt s.vaults v (ea % 2 ^ 31) n (src old)) ∧ (¬ writes old → t = s)) ∧
      (ea / 2 ^ 55 = 0 → ∀ l pa t, translate s (curAccessor s) .atomic ea = .ok (.here l pa) → pteClass l.entry ≠ 3 →
        pageChecks s (curAccessor s) l pa ea n true true = .ok t →
        let old := leNat ((List.range n).map fun k => tabGet 0 t.mem (pa + k))
        t.core = s.core ∧ t.vaults = s.vaults ∧ t.others = s.others ∧
        (∀ x, ¬ leafByte s l ea x → tabGet 0 t.mem x = tabGet 0 s.mem x) ∧
        ∃ u, exec p.1 s = .next (advance (writeNat u d old)) ∧ u.core = s.core ∧ u.vaults = s.vaults ∧ u.others = s.others ∧
          (writes old → storesAt t.mem u.mem pa n (src old)) ∧ (¬ writes old → u = t))

/-! ### Semaphores, fences, descriptors and rings -/

/-- R297, R298, R313 to R316: in the C stream, semaphores change at once and a fence that names no engine completes (log 7); in every stream the tests,
the reads, the fences and the waits that hold complete. A fence does not wait for a write that has only to land at its peer (log 100). -/
def Obligations.SemaphoreResults : Prop :=
  ∀ (s : State) (d k a n : Nat) (i : Int) (kind : FenceKind) (scope : Scope),
    let m := tabGet 0 s.core.sems k
    let v := (readReg s a + BitVec.ofInt 64 i).setWidth 32
    let t := curStream s
    let draw := tabGet 0 t.draws k
    let drawn := setCur s { t with draws := tabSet 0 t.draws k (draw + 1) }
    let sem (x : BitVec 32) : State := { s with core := { s.core with sems := tabSet 0 s.core.sems k x } }
    let ahead (x y : BitVec 32) : Prop := (x - y).toNat < 2 ^ 31
    (s.cur = .c → exec (.semadd k a i) s = .next (advance (sem (m + v))) ∧ exec (.semset k a i) s = .next (advance (sem v)) ∧
      (kind ≠ .eng → exec (.fence kind scope) s = .next (advance s))) ∧
    (ahead m v → exec (.semwait k a i) s = .next (advance s)) ∧
    (ahead m (draw + 1) → exec (.semwaitTake k) s = .next (advance drawn) ∧ exec (.semtryTake d k) s = .next (advance (writeReg drawn d 0))) ∧
    (¬ ahead m (draw + 1) → exec (.semtryTake d k) s = .next (advance (writeReg s d 1))) ∧
    (ahead m ((readReg s d + BitVec.ofInt 64 i).setWidth 32) → exec (.semtry d k i) s = .next (advance (writeReg s d 0))) ∧
    (¬ ahead m ((readReg s d + BitVec.ofInt 64 i).setWidth 32) → exec (.semtry d k i) s = .next (advance (writeReg s d 1))) ∧
    exec (.semrd d k) s = .next (advance (writeReg s d (m.setWidth 64))) ∧
    exec (.semrdDraw d k) s = .next (advance (writeReg s d (draw.setWidth 64))) ∧
    exec (.semrdPb d k) s = .next (advance (writeReg s d ((tabGet 0 s.core.pbs k).setWidth 64))) ∧
    ((tabGet 0 s.core.pbs k).toNat ≤ (readReg s a).toNat + n → exec (.pbwait k a n) s = .next (advance s)) ∧
    ((∀ e ∈ s.core.qdata ++ s.core.qvec ++ s.core.qmat ++ s.core.qgrp, syncOf e.instr = none ∨ s.core.issued ≤ e.seq ∨
        (scope = .stream ∧ e.stream ≠ s.cur) ∨ onlyLanding e = true) →
      exec (.fence kind scope) s = .next (advance s))

/-- R81, R297, R299, R314, R316: a test or a fence that does not hold puts its stream in WAIT with the instruction unissued; PC, registers and draw
counts stay. What a fence waits for rests on logs 7 and 100, the model's choices.

R161, R278, R313: in the D, V and X streams SEMADD, SEMSET, RCOMMIT, RRELEASE, TREL, TSEAL and TSEAL.DET complete by standing at the end of the
queue of the stream's engine with the value they bring; behind a full queue the stream stays in RUN and issues again. -/
def Obligations.SemaphoreWaits : Prop :=
  (∀ (s : State) (k a n : Nat) (i : Int) (kind : FenceKind) (scope : Scope) (e : QEntry),
    let m := tabGet 0 s.core.sems k
    let v := (readReg s a + BitVec.ofInt 64 i).setWidth 32
    let draw := tabGet 0 (curStream s).draws k
    (2 ^ 31 ≤ (m - v).toNat → waitsFor (.semwait k a i) s (.sem k v)) ∧
    (2 ^ 31 ≤ (m - (draw + 1)).toNat → waitsFor (.semwaitTake k) s (.takes [k])) ∧
    ((readReg s a).toNat + n < (tabGet 0 s.core.pbs k).toNat → waitsFor (.pbwait k a n) s (.pb k ((readReg s a).toNat + n))) ∧
    (e ∈ s.core.qdata ++ s.core.qvec ++ s.core.qmat ++ s.core.qgrp → syncOf e.instr ≠ none → e.seq < s.core.issued →
      onlyLanding e = false → (scope = .stream → e.stream = s.cur) → (s.cur = .c → kind = .eng) →
      waitsFor (.fence kind scope) s (.engines (decide (scope ≠ .stream)) s.core.issued)) ∧
    (∀ w, let t := waitOn s w
      (curStream t).state = .wait ∧ (curStream t).pc = (curStream s).pc ∧ (curStream t).regs = (curStream s).regs ∧
      (curStream t).draws = (curStream s).draws ∧ (curStream t).pending.map (·.on) = some w)) ∧
  (∀ (s : State) (k a n : Nat) (i : Int),
    s.cur ≠ .c →
    let eng : EngineName := match s.cur with | .v => .vector | .x => .matrix | _ => .data
    let sum := (readReg s a + BitVec.ofInt 64 i).setWidth 32
    let count := min ((readReg s a).toNat + n) (2 ^ 64 - 1)
    ∀ p ∈ [(Instr.semadd k a i, sum.setWidth 64), (.semset k a i, sum.setWidth 64), (.rcommit k a n, BitVec.ofNat 64 count),
        (.rrelease k a n, BitVec.ofNat 64 count), (.trel a, readReg s a), (.tseal a, readReg s a), (.tsealDet a, readReg s a)],
      ((queueOf s.core eng).length < 16 → ∃ e : QEntry,
        exec p.1 s = .next (advance { s with core := { setQueueOf s.core eng (queueOf s.core eng ++ [e]) with issued := s.core.issued + 1 } }) ∧
        e.instr = p.1 ∧ e.stream = s.cur ∧ e.seq = s.core.issued ∧ e.hvals = [p.2] ∧ e.pc = (curStream s).pc ∧ e.stopped = false) ∧
      (16 ≤ (queueOf s.core eng).length → exec p.1 s = .next { s with held := true }))

/-- R152 to R155: DSET and DGETF reach the field of a descriptor that their code names, DCPY copies a descriptor, DADV advances BASE modulo 2^55, and
DLD and DST move 32 bytes. -/
def Obligations.DescriptorResults : Prop :=
  ∀ (s : State) (k d a : Nat) (imm : Imm),
    let x := (tabGet 0 s.core.descs k).toNat
    let put (v : Nat) : State := { s with core := { s.core with descs := tabSet 0 s.core.descs k (BitVec.ofNat 256 v) } }
    let ea := readReg s a + BitVec.ofInt 64 imm.val
    (∀ p ∈ [(0x00, 61, 3), (0x01, 55, 6), (0x02, 0, 55), (0x03, 64, 16), (0x05, 112, 16), (0x07, 192, 16), (0x09, 208, 16), (0x0B, 160, 16),
        (0x0C, 176, 2), (0x0D, 178, 1), (0x0E, 179, 1), (0x0F, 180, 12), (0x12, 208, 16), (0x13, 224, 20), (0x14, 244, 3), (0x15, 247, 4),
        (0x16, 251, 1), (0x18, 0, 64), (0x19, 64, 64), (0x1A, 128, 64), (0x1B, 192, 64)],
      exec (.dgetf p.1 d k) s = .next (advance (writeReg s d (BitVec.ofNat 64 (x / 2 ^ p.2.1 % 2 ^ p.2.2))))) ∧
    (∀ p ∈ [(0x04, 80, 32), (0x06, 128, 32), (0x08, 160, 32), (0x0A, 224, 32), (0x10, 208, 32), (0x11, 240, 16)],
      exec (.dgetf p.1 d k) s = .next (advance (writeReg s d ((BitVec.ofNat p.2.2 (x / 2 ^ p.2.1)).signExtend 64)))) ∧
    (∀ p ∈ [(0x00, 61, 3), (0x01, 55, 6), (0x02, 0, 55), (0x03, 64, 16), (0x04, 80, 32), (0x05, 112, 16), (0x06, 128, 32), (0x07, 192, 16),
        (0x08, 160, 32), (0x09, 208, 16), (0x0A, 224, 32), (0x0B, 160, 16), (0x0C, 176, 2), (0x0D, 178, 1), (0x0E, 179, 1), (0x0F, 180, 12),
        (0x10, 208, 32), (0x11, 240, 16), (0x12, 208, 16), (0x13, 224, 20), (0x14, 244, 3), (0x15, 247, 4), (0x16, 251, 1), (0x18, 0, 64),
        (0x19, 64, 64), (0x1A, 128, 64), (0x1B, 192, 64)],
      ∃ v, exec (.dset p.1 k a) s = .next (advance (put v)) ∧ v / 2 ^ p.2.1 % 2 ^ p.2.2 = (readReg s a).toNat % 2 ^ p.2.2 ∧
        v % 2 ^ p.2.1 = x % 2 ^ p.2.1 ∧ v / 2 ^ (p.2.1 + p.2.2) = x / 2 ^ (p.2.1 + p.2.2)) ∧
    exec (.dcpy k d) s = .next (advance (put (tabGet 0 s.core.descs d).toNat)) ∧
    (∀ rows, let by_ := (readReg s a).toInt * (if rows then (BitVec.ofNat 32 (x / 2 ^ 128)).toInt else 1)
      ∃ v, exec (.dadv rows k a) s = .next (advance (put v)) ∧ (v % 2 ^ 55 : Nat) = ((x % 2 ^ 55 : Nat) + by_) % 2 ^ 55 ∧ v / 2 ^ 55 = x / 2 ^ 55) ∧
    (∀ t bs, scalarLoad s ea 32 = .ok (t, bs) →
      exec (.dld k a imm) s = .next (advance { t with core := { t.core with descs := tabSet 0 t.core.descs k (BitVec.ofNat 256 (leNat bs)) } })) ∧
    (∀ t, scalarStore s ea ((List.range 32).map fun b => BitVec.ofNat 8 (x / 2 ^ (8 * b))) = .ok t → exec (.dst k a imm) s = .next (advance t))

/-- R160 to R163: RINIT, RCOMMIT, RRELEASE and RSTAT, in the C stream for the two that pass slots on; a refused RINIT leaves the ring as it was, and
a count above the pending slots sets ERR and faults.

R157, R158: a claim takes its slots from FREE or FILL to WPEND or RPEND and moves the pointer of its side on, so that FREE + FILL + WPEND + RPEND
stays SLOTS; a PEEK claims nothing. That a queued update is made at its step, and the operand code 0 of a refused RINIT, are the model's (logs 7, 54). -/
def Obligations.RingResults : Prop :=
  (∀ (s : State) (n k a imm d : Nat),
    let r := tabGet 0 s.core.rings n
    let f (lo : Nat) : Nat := r.toNat / 2 ^ lo % 65536
    let q := descOf (tabGet 0 s.core.descs k)
    let put (v : BitVec 128) : State := { s with core := { s.core with rings := tabSet 0 s.core.rings n v } }
    let count := (readReg s a).toNat + imm
    let g (v : BitVec 128) (lo : Nat) : Nat := v.toNat / 2 ^ lo % 65536
    let same (v : BitVec 128) (los : List Nat) : Prop := ∀ lo ∈ los, g v lo = f lo
    (checkDesc q [4] (fun _ => true) = none → q.nreg = n → f 80 = 0 → f 96 = 0 → exec (.rinit n k) s =
      .next (advance (put (BitVec.ofNat 128 (q.slots + q.slots * 65536))))) ∧
    (checkDesc q [4] (fun _ => true) = none → q.nreg ≠ n ∨ f 80 ≠ 0 ∨ f 96 ≠ 0 → trapsWith (.rinit n k) s .ringBad) ∧
    (s.cur = .c → imm < 1024 → f 0 = f 16 + f 32 + f 80 + f 96 →
      (count = 0 → exec (.rcommit n a imm) s = .next (advance s) ∧ exec (.rrelease n a imm) s = .next (advance s)) ∧
      (0 < count → count ≤ f 80 → ∃ v, exec (.rcommit n a imm) s = .next (advance (put v)) ∧ g v 80 + count = f 80 ∧ g v 32 = f 32 + count ∧
        same v [0, 16, 48, 64, 96, 112]) ∧
      (0 < count → count ≤ f 96 → ∃ v, exec (.rrelease n a imm) s = .next (advance (put v)) ∧ g v 96 + count = f 96 ∧ g v 16 = f 16 + count ∧
        same v [0, 32, 48, 64, 80, 112]) ∧
      (f 80 < count → exec (.rcommit n a imm) s = .next (trapCur s { cause := .ringBad, hw := [.ringErr n] })) ∧
      (f 96 < count → exec (.rrelease n a imm) s = .next (trapCur s { cause := .ringBad, hw := [.ringErr n] }))) ∧
    (∀ p ∈ [(0, f 0), (1, f 16), (2, f 32), (3, f 48), (4, f 64), (5, f 80), (6, f 96), (7, r.toNat / 2 ^ 112 % 2)],
      exec (.rstat d n p.1) s = .next (advance (writeNat s d p.2)))) ∧
  (∀ (c : Core) (u : OpUse),
    let r := (tabGet 0 c.rings u.d.nreg).toNat
    let f (x lo : Nat) : Nat := x / 2 ^ lo % 65536
    let w := u.d.claim
    ∀ c' slot, claimRing c u = (c', slot) →
      let r' := (tabGet 0 c'.rings u.d.nreg).toNat
      tabSorted c.rings = true → f r 0 ≠ 0 →
      (u.d.peek = true → c' = c) ∧
      (u.d.peek = false → u.writes = true → w ≤ f r 16 → f r 16 + f r 32 + f r 80 + f r 96 = f r 0 →
        slot = f r 48 ∧ f r' 16 + w = f r 16 ∧ f r' 80 = f r 80 + w ∧ f r' 48 = (f r 48 + w) % f r 0 ∧
        f r' 0 = f r 0 ∧ f r' 32 = f r 32 ∧ f r' 64 = f r 64 ∧ f r' 96 = f r 96 ∧ f r' 16 + f r' 32 + f r' 80 + f r' 96 = f r' 0) ∧
      (u.d.peek = false → u.writes = false → w ≤ f r 32 → f r 16 + f r 32 + f r 80 + f r 96 = f r 0 →
        slot = f r 64 ∧ f r' 32 + w = f r 32 ∧ f r' 96 = f r 96 + w ∧ f r' 64 = (f r 64 + w) % f r 0 ∧
        f r' 0 = f r 0 ∧ f r' 16 = f r 16 ∧ f r' 48 = f r 48 ∧ f r' 80 = f r 80 ∧ f r' 16 + f r' 32 + f r' 80 + f r' 96 = f r' 0))

/-! ### Engine instructions: their issue -/

/-- R165, R178 to R185, R199: every instruction of region arithmetic enters the vector engine's queue when its operands have the types, formats and
shapes that R185 and R199 ask for and no source meets its destination. -/
def Obligations.VectorArithmeticIssues : Prop :=
  ∀ (s : State) (dd da db ha hb : Nat) (rm : Rm) (y : Sync) (cc : VCond) (kind : BcastKind) (b : Bool),
    let d := descAt s dd; let p := descAt s da; let q := descAt s db
    let v (x : Desc) (ok : Fmt → Bool) : Prop := checkDesc x [1, 2, 4] ok = none
    let n := if descRows d > 1 then descRows d else descN d
    let in_ (i : Instr) (uses : List (Nat × Nat × Bool)) (hs : List Nat) : Prop := enters s s i y .vector uses hs n .none advance
    let one := [(1, dd, true), (2, da, false)]
    let two := [(1, dd, true), (2, da, false), (3, db, false)]
    let src (x : Desc) : Prop := v x anyFmt ∧ pairsWith x d ∧ clearOf x d
    let flat (x : Desc) : Prop := x.sfmt = 0 ∧ descWidth x = descWidth d
    (v d notBit → src p → ∀ i ∈ [Instr.vabs dd da rm y, .vneg dd da rm y, .vcvt dd da rm y, .vexp2 dd da rm y, .vlog2 dd da rm y, .vrcp dd da rm y,
        .vrsq dd da rm y, .vsqrt dd da rm y, .vtanh dd da rm y, .vsig dd da rm y, .verf dd da rm y, .vsin dd da rm y, .vcos dd da rm y],
      in_ i one []) ∧
    (v d notBit → src p → src q → (∀ i ∈ [Instr.vadd dd da db rm y, .vsub dd da db rm y, .vmul dd da db rm y, .vdiv dd da db rm y, .vmin dd da db rm y,
        .vmax dd da db rm y], in_ i two []) ∧
      (∀ i ∈ [Instr.vfma dd da db rm y, .vfms dd da db rm y], in_ i (two ++ [(1, dd, false)]) []) ∧
      (let hi := descAt s ((db + 1) % 32); src hi → in_ (.vclamp dd da db rm y) (two ++ [(4, (db + 1) % 32, false)]) []) ∧
      (let m := descAt s ((dd + 1) % 32); src m → descFmt m = .b1 → in_ (.vsel dd da db rm y) (two ++ [(4, (dd + 1) % 32, false)]) [])) ∧
    (v d notBit → src p → src q → fmtInteger (descFmt q) = true → q.sfmt = 0 → in_ (.vscale dd da db rm y) two []) ∧
    (v d anyFmt → d.sfmt = 0 → src p → flat p →
      (∀ i ∈ [Instr.vnot dd da y, .vmov dd da y], in_ i one []) ∧
      (src q → flat q → ∀ i ∈ [Instr.vand dd da db y, .vor dd da db y, .vxor dd da db y], in_ i two []) ∧
      (src q → fmtInteger (descFmt q) = true → q.sfmt = 0 → ∀ i ∈ [Instr.vshl dd da db y, .vshr dd da db y, .vsar dd da db y], in_ i two [])) ∧
    (v d anyFmt → descFmt d = .b1 ∨ fmtInteger (descFmt d) = true → d.sfmt = 0 → src p → src q → in_ (.vcmp cc dd da db y) two []) ∧
    (v d notBit → in_ (.vbcast kind dd ha rm y) [(1, dd, true)] [ha] ∧ in_ (.viota b dd ha hb rm y) [(1, dd, true)] [ha, hb]) ∧
    (v d anyFmt → v p anyFmt → v q fmtInteger → q.sfmt = 0 → (descFmt d = .b1 → descFmt p = .b1) → pairsWith q d →
      descRows p = descRows d ∨ descRows p = 1 → intersects p d = false → intersects q d = false → in_ (.vperm b dd da db rm y) two [])

/-- R165, R201 to R203, R214, R219 to R224: every instruction of the selection chapter enters the vector engine's queue when its operands pass its
issue rows. -/
def Obligations.VectorSelectionIssues : Prop :=
  ∀ (s : State) (dd da db ha hb : Nat) (rm : Rm) (y : Sync) (op : RedOp) (sc : ScanOp) (metric : Metric) (f g : Bool),
    let d := descAt s dd; let p := descAt s da; let q := descAt s db; let d2 := descAt s ((dd + 1) % 32)
    let v (x : Desc) (ok : Fmt → Bool) : Prop := checkDesc x [1, 2, 4] ok = none
    let in_ (i : Instr) (uses : List (Nat × Nat × Bool)) (hs : List Nat) (n : Nat) : Prop := enters s s i y .vector uses hs n .none advance
    let one := [(1, dd, true), (2, da, false)]
    let two := [(1, dd, true), (2, da, false), (3, db, false)]
    let second := [(5, (dd + 1) % 32, true)]
    let int (x : Desc) : Prop := fmtInteger (descFmt x) = true ∧ x.sfmt = 0
    let rows (len : Bool) (x : Desc) : Nat := if len then descCount x else descRows x
    let scan := if descRows d > 1 then descRows d else descN d
    let late (i : Instr) (uses : List (Nat × Nat × Bool)) (n : Nat) : Prop := rankWillBeOpen s.core = true → in_ i uses [] n
    (v d notBit → v p anyFmt → clearOf p d →
      (descN d = descRows p → in_ (.vred op f dd da rm y) one [] (rows f p)) ∧
      (descN d = descN p → descCount d = descCount p → in_ (.vscan sc f dd da rm y) one [] scan) ∧
      (v q anyFmt → clearOf q d → descCount q = descCount p → descRows q = descRows p ∨ descRows q = 1 → descN d = descRows p →
        in_ (.vdot f dd da db rm y) two [] (rows f p))) ∧
    (v d notBit → v p anyFmt → v q anyFmt → clearOf p d → clearOf q d → descN q = descCount p → descN d = descRows p →
      (metric = .ham → p.sfmt = 0 → q.sfmt = 0 → descWidth p = descWidth q → in_ (.vdist metric f dd da db rm y) two [] (descRows p)) ∧
      (metric ≠ .ham → descFmt p ≠ .b1 → p.fmt = q.fmt → p.sfmt = q.sfmt → in_ (.vdist metric f dd da db rm y) two [] (descRows p))) ∧
    (v d fmtInteger → d.sfmt = 0 → v p notBit → v q notBit → descN q = descRows p ∨ descN q = 1 → descN d = descRows p → clearOf p d → clearOf q d →
      in_ (.vthrc f g dd da db y) two [] (rows g p)) ∧
    (v d anyFmt → v p anyFmt → v q bitFmt → v d2 fmtInteger → d2.sfmt = 0 → (g = true → int d) → (g = false → descFmt d = .b1 → descFmt p = .b1) →
      descRows d = descRows p → descN d2 = descRows p → pairsWith q p → clearOf p d → clearOf q d → clearOf p d2 → clearOf q d2 →
      intersects d d2 = false → in_ (.vcomp f g dd da db rm y) (two ++ second) [] (descRows p)) ∧
    (v d anyFmt → v p anyFmt → v q bitFmt → (descFmt d = .b1 → descFmt p = .b1) → descRows p = descRows d ∨ descRows p = 1 → pairsWith q d →
      clearOf p d → clearOf q d → in_ (.vexpd f dd da db rm y) two [] (descRows d)) ∧
    (v d (fun x => x = .n32) → v p (fun x => [8, 16, 32, 64].contains (fmtWidth x)) → d.sfmt = 0 → p.sfmt = 0 → clearOf p d →
      let h := (readReg s hb).toNat
      let wid := h / 2 ^ 8 % 16
      1 ≤ wid → wid ≤ 11 → h % 64 + wid ≤ descWidth p → h / 64 % 4 = 0 → h / 2 ^ 13 = 0 → (g = true → descN d = 2 ^ wid) →
      (g = false → descCount d = 2 ^ wid ∧ descRows d = descRows p) →
      enters s s (.vhist f g dd da hb y) y .vector one [hb, (hb + 1) % 16] (descRows p) (.bins []) advance) ∧
    (v d anyFmt → v p anyFmt → d.sfmt = 0 → p.sfmt = 0 → descN d = descN p → clearOf p d →
      (keyFmt (descFmt p) = some (descFmt d) → in_ (.vxform f false dd da y) one [] scan) ∧
      (keyFmt (descFmt d) = some (descFmt p) → in_ (.vxform f true dd da y) one [] scan)) ∧
    (v d fmtInteger → d.sfmt = 0 → v p notBit → v d2 notBit → descN d = descRows p → descN d2 = descRows p → clearOf p d → clearOf p d2 →
      intersects d d2 = false → in_ (.vmaxi f dd da rm y) (one ++ second) [] (rows f p)) ∧
    (v d notBit → v p notBit → descN d = descN p → descCount d = descCount p → descCount p ≤ 256 → clearOf p d →
      in_ (.vsort f false dd da rm y) one [] (descRows p) ∧
      (v d2 fmtInteger → d2.sfmt = 0 → descN d2 = descN d → clearOf p d2 → intersects d d2 = false →
        in_ (.vsort f true dd da rm y) (one ++ second) [] (descRows p))) ∧
    (1 ≤ (readReg s ha).toNat → (readReg s ha).toNat ≤ 1024 → in_ (.vranki f g ha y) [] [ha] 0) ∧
    (v p notBit → v q idFmt → descN q = descN p → late (.vrankp da db y) [(2, da, false), (3, db, false)] (descN p)) ∧
    (v d notBit → v d2 idFmt → descN d2 = descN d → intersects d d2 = false → late (.vranko f dd rm y) ((1, dd, true) :: second) (descN d))

/-- R165, R227, R228, R231 to R243: the instructions of class X that act on the array enter the X engine's queue when their operands pass their issue
rows and the core's right is not LAPSED without an XFREE queued; one whose right is LAPSED then waits for the reclaim before its ring claims. The
stream of an XLEASE that has to be granted waits for it. A request for a reclaim that a halt has left, with nothing queued behind it, holds an array
instruction as a LAPSED right does. -/
def Obligations.ArrayIssues : Prop :=
  ∀ (s : State) (dd da db ha : Nat) (rm : Rm) (y : Sync) (fill : ZeroFill) (f g : Bool),
    let d := descAt s dd; let p := descAt s da; let q := descAt s db
    let freed : Prop := ∃ e ∈ s.core.qmat, ∃ x z, e.instr = .xfree x z
    let w (x : Desc) (ok : Fmt → Bool) : Prop := checkDesc x [1, 4] ok = none ∧ (x.type = 4 → bitAt x.base 54 = false)
    let in_ (i : Instr) (uses : List (Nat × Nat × Bool)) (hs : List Nat) (n : Nat) : Prop := enters s s i y .matrix uses hs n .none advance
    let h := (readReg s ha).toNat
    ((∃ j, curJob s = some j ∧ j.kern.array = true) →
      (s.core.lease = .none ∨ s.core.lease = .waiting ∨ freed →
        enters s s (.xlease y) y .matrix [] [] 0 .none (fun t => waitOn t (.result s.core.issued))) ∧
      (s.core.lease ≠ .none → s.core.lease ≠ .waiting → ¬ freed → in_ (.xlease y) [] [] 0)) ∧
    in_ (.xfree f y) [] [] 0 ∧
    (s.core.lease = .lapsed → ¬ freed → s.core.qmat.length < 16 → takesHold s.core (curStream s) (takesOf y) = true →
      ∃ r : Ready, exec (.xzero fill f y) s = .next (waitReady s .lease r) ∧ r.takes = takesOf y ∧ r.entry.instr = .xzero fill f y) ∧
    ((s.core.lease ≠ .lapsed ∧ (s.core.lease = .reclaim → s.core.qmat ≠ [])) ∨ freed →
      in_ (.xzero fill f y) [] [] 0 ∧
      (h < 2 ^ 32 → (∀ k < 16, h / 4 ^ k % 4 ≤ 1) ∨ (∀ k < 16, h / 4 ^ k % 4 = 2) ∨ (∀ k < 16, h / 4 ^ k % 4 = 3) → in_ (.xcellop ha y) [] [ha] 0) ∧
      (w p passFmtA → w q passFmtB → groupSize (descFmt p) (descFmt q) ≠ none → descCount q = descCount p → 1 ≤ descCount p → descCount p ≤ 4096 →
        1 ≤ descRows p → descRows p ≤ 128 → 1 ≤ descRows q → descRows q ≤ 256 →
        in_ (.xpass f da db y) [(2, da, false), (3, db, false)] [] (descRows p)) ∧
      (w p anyFmt → h / 2 ^ 48 = 0 → in_ (.xside da ha y) [(2, da, false)] [ha] 0) ∧
      (1 ≤ h / 2 ^ 32 % 512 → h / 2 ^ 32 % 512 ≤ 256 → h / 2 ^ 41 = 0 → in_ (.xsideb ha y) [] [ha] 128) ∧
      (w d notBit → 1 ≤ descCount d → descCount d ≤ 256 → 1 ≤ descRows d → descRows d ≤ 128 →
        in_ (.xdrain f dd rm y) [(1, dd, true)] [] (descRows d)) ∧
      (w p notBit → 1 ≤ descCount p → descCount p ≤ 256 →
        (descRows p = 1 → in_ (.xbias true g da y) [(2, da, false)] [] 128) ∧
        (1 ≤ descRows p → descRows p ≤ 128 → in_ (.xbias false g da y) [(2, da, false)] [] (descRows p))))

/-- R165, R255 to R261: the adapter instructions enter the X engine's queue when their operands pass their issue rows; the stream of AQRY and of APUB
waits for the result. -/
def Obligations.AdapterIssues : Prop :=
  ∀ (s : State) (dd da hd ha hb : Nat) (sel : AqrySel) (y : Sync),
    let m := descAt s dd; let p := descAt s da
    let held (t : State) : State := waitOn t (.result s.core.issued)
    let ptr := (readReg s hb).toNat
    (m.amv = true → checkDesc m [1] anyFmt = none → enters s s (.arel dd y) y .matrix [(1, dd, false)] [] 16 .none advance ∧
      (checkDesc p [1] anyFmt = none → descFmt p = .i64 → p.sfmt = 0 → 1 ≤ descN p → descN p ≤ 16 → ptr / 2 ^ 32 = 0 →
        enters s s (.ares dd da hb y) y .matrix [(1, dd, false), (2, da, false)] [hb] (descN p) (.pages [] []) advance)) ∧
    enters s s (.aqry sel hd ha y) y .matrix [] [ha] 0 .none held ∧
    (ptr / 2 ^ 52 = 0 → ptr % 64 = 0 → enters s s (.apub hd ha hb y) y .matrix [] [ha, hb] 0 .none held)

/-- R165, R167 to R176: the data-engine instructions enter the data engine's queue when their operands and their mask pass the issue rows of R176 and
no source meets the destination. That only dd is a destination for the overlap rule is the model's reading (log 11). -/
def Obligations.DataEngineIssues : Prop :=
  ∀ (s : State) (dd da db ha : Nat) (rm : Rm) (y : Sync) (mask : MaskKind) (oob : Bool),
    let d := descAt s dd; let p := descAt s da; let q := descAt s db; let m := descAt s ((dd + 1) % 32)
    let v (x : Desc) (ts : List Nat) (ok : Fmt → Bool) : Prop := checkDesc x ts ok = none
    let in_ (i : Instr) (uses : List (Nat × Nat × Bool)) (hs : List Nat) (n : Nat) : Prop := enters s s i y .data uses hs n .none advance
    let mu := if mask = .none then [] else [(4, (dd + 1) % 32, true)]
    let masked (m : Desc) (rows elems : Nat) : Prop :=
      (mask ≠ .none → v m [1] bitFmt) ∧ (mask = .rows → rows ≤ descN m) ∧ (mask = .elems → elems ≤ descN m)
    let bits : Prop := descFmt d = .b1 → p.fmt = d.fmt ∧ p.sfmt = 0 ∧ d.sfmt = 0
    (v d [1, 2, 3, 4] anyFmt → v p [1, 2, 3, 4] anyFmt → bits → descN d = descN p → masked m (descRows p) (descN p) → overlaps p d = false →
      in_ (.dcopy mask dd da rm y) ([(1, dd, true), (2, da, false)] ++ mu) [] (descN p)) ∧
    (v d [1, 2, 3, 4] anyFmt → v p [1, 2, 3] anyFmt → v q [1, 2, 3] indexFmt → bits → descCount d = descCount p → descRows d = descN q →
      masked m (descRows d) (descN d) → overlaps p d = false → overlaps q d = false →
      in_ (.dgather mask oob dd da db rm y) ([(1, dd, true), (2, da, false), (3, db, false)] ++ mu) [] (descN q)) ∧
    (v p [1, 2, 3, 4] anyFmt → v q [1, 2, 3] indexFmt → bits → descCount d = descCount p → descRows p = descN q → masked m (descRows p) (descN p) →
      overlaps p d = false → overlaps q d = false →
      (v d [1, 2, 3] anyFmt → in_ (.dscatter mask oob dd da db rm y) ([(1, dd, true), (2, da, false), (3, db, false)] ++ mu) [] (descRows p)) ∧
      (v d [1, 2, 3] scataFmt → d.sfmt = 0 →
        in_ (.dscata mask oob dd da db rm y) ([(1, dd, true), (2, da, false), (3, db, false)] ++ mu) [] (descRows p))) ∧
    (v d [1, 2, 3, 4] anyFmt → in_ (.dfill dd ha y) [(1, dd, true)] [ha] (descN d)) ∧
    (v p [3] anyFmt → (∀ i ∈ [Instr.dpref da y, .dflush da y, .dinv da y], in_ i [(2, da, false)] [] (descN p)) ∧
      (masked q (descRows p) (descN p) →
        in_ (.dpreq mask da db y) ([(2, da, false)] ++ if mask = .none then [] else [(4, db, false)]) [] (descN p)))

/-- R129, R165, R310, R440 to R444: the link instructions of a job with FLAGS.FABRIC enter the data engine's queue when their operands pass their
issue rows against an OPEN flow, and charge the bytes below their valid count to the flow's pending-byte counter. DFENCEF and DFLOW.CLOSE close the
flow's open frame, and the stream of a DFLOW waits for its result. That DFADD and DFCAS go on a flow of any KIND is the model's
reading (log 78). -/
def Obligations.LinkIssues : Prop :=
  ∀ (s : State) (k dd da db hd ha hb : Nat) (y : Sync) (j : Job),
    curJob s = some j → j.kern.fabric = true →
    let f := flowAt s.core k
    let d := descAt s dd; let p := descAt s da; let q := descAt s db
    let cut (n : Nat) : Nat := match y.rows with | none => n | some r => min (readReg s r).toNat n
    let charged (n : Nat) : State := if f.fcfg.getLsbD 18 then { s with core := setPb s.core (flowPbk f) (pbAt s.core (flowPbk f) + n) } else s
    let in_ (i : Instr) (uses : List (Nat × Nat × Bool)) (hs : List Nat) (n w : Nat) (after : State → State) : Prop :=
      (f.fcfg.getLsbD 18 = true → pbAt s.core (flowPbk f) + w < 2 ^ 40) → enters s (charged w) i y .data uses hs n .none after
    let far (x : Desc) : Prop := checkDesc x [5] anyFmt = none ∧ flowState f = 1 ∧ x.amap = flowPeer f
    let near (x : Desc) : Prop := checkDesc x [1, 2, 3] anyFmt = none
    let whole (x : Desc) : Prop := x.sfmt = 0 ∧ fmtPacked (descFmt x) = false
    let size (x : Desc) : Nat := elemBytes (descFmt x)
    (far d → whole d → near p → whole p →
      (flowKind f = 0 → db = 0 → descN d = descN p → d.fmt = p.fmt →
        in_ (.dput k dd da db y) [(1, dd, true), (2, da, false)] [] (descN p) (cut (descN p) * size p) advance) ∧
      (flowKind f ≠ 0 → near q → whole q → descFmt q = .i32 ∨ descFmt q = .n32 → descRows p = descN q →
        (flowKind f = 1 → descCount p * size p ≤ 15360) → d.base % 64 = 0 →
        in_ (.dput k dd da db y) [(1, dd, true), (2, da, false), (3, db, false)] [] (descRows p) (cut (descRows p) * (descCount p * size p)) advance)) ∧
    (near d → whole d → far p → whole p →
      (flowKind f = 0 → descN d = descN p → d.fmt = p.fmt →
        in_ (.dget k dd da y) [(1, dd, true), (2, da, false)] [] (descN d) (cut (descN d) * size d) advance) ∧
      (near q → whole q → descFmt d = .i32 ∨ descFmt d = .n32 ∨ descFmt d = .i64 → p.fmt = d.fmt → q.fmt = d.fmt → descN p = descN d →
        descN q = descN d → descN d ≤ 256 → overlaps q d = false →
        ∀ i ∈ [Instr.dfadd k dd da db y, .dfcas k dd da db y],
          in_ i [(1, dd, true), (2, da, false), (3, db, false)] [] (descN d) (cut (descN d) * size d) advance)) ∧
    (far p → whole p → descFmt p = .i64 → descN p = 1 → p.base % 8 = 0 →
      in_ (.dfencef k da hb y) [(2, da, true)] [hb, (hb + 1) % 16] 1 8 (fun t => advance (closeFrame t k))) ∧
    (let held (t : State) : State := waitOn t (.result s.core.issued)
     (fcfgOk s (readReg s ha) = true → enters s s (.dflowOpen k hd ha y) y .data [] [ha] 0 .none held) ∧
     enters s s (.dflowClose k hd ha y) y .data [] [ha] 0 .none (fun t => held (closeFrame t k)) ∧
     enters s s (.dflowReset k hd ha y) y .data [] [ha] 0 .none held ∧ enters s s (.dflowStat k hd ha y) y .data [] [ha] 0 .none held)

/-- R165, R329, R330, R332, R333, R335: the group instructions enter the group engine's queue when their operands pass the issue rows of R335; on a
JOINED slot, where none before them is still to enter, they take its SEQ and announce their entry with it. Only the root of a GBCAST has its da checked
and its rings claimed. The root announces its own disagreement with its dd, which aborts the group with reason 4: the model's reading (log 55). That the
announcement goes as a message to the other packages of the group at issue, one flit of a port for each (log 95), is the model's choice (log 106). -/
def Obligations.GroupIssues : Prop :=
  ∀ (s : State) (k dd da hb : Nat) (op : ScanOp) (rm : Rm) (y : Sync),
    let g := groupAt s.core k
    let d := descAt s dd; let p := descAt s da
    let told (kind op n fmt root : Nat) (sent : Bool) : Contribution := ⟨g.key, g.seq, g.rank, kind, op, n, fmt, root, false, [], [], sent⟩
    let now : Prop := g.state = 2 ∧ ∀ e ∈ s.core.qgrp, slotOf e.instr = some k → e.part ≠ .none
    let entered (c : Contribution) : State :=
      let t := (otherPackages s g).foldl (fun t p => chargeSend t (curCtx t).vd p 1) { s with core := setGroup s.core k { g with seq := g.seq + 1 } }
      { t with contribs := s.contribs.filter (fun x => ¬ (x.key = c.key ∧ x.seq = c.seq ∧ x.rank = c.rank)) ++ [c],
               outbox := s.outbox ++ if ∀ m ∈ g.members, m = s.package then [] else [.contribute c] }
    let in_ (i : Instr) (c : Contribution) (uses : List (Nat × Nat × Bool)) (beside hs : List Nat) : Prop :=
      (now → enters s (entered c) i y .group uses hs 0 (.group g.seq c.sent) advance beside) ∧
      (¬ now → enters s s i y .group uses hs 0 .none advance beside)
    let v (x : Desc) (ok : Fmt → Bool) : Prop := checkDesc x [1, 2, 3] ok = none
    let root := (readReg s hb).toNat % 65536
    in_ (.gsync k y) (told 0 0 0 0 0 true) [] [] [] ∧
    (v d notBit → v p notBit → descN d = descN p → (now → descN p * 8 ≤ g.stageB) → overlaps p d = false →
      in_ (.gred op k dd da rm y) (told 1 (match op with | .sum => 0 | .max => 1 | .min => 2) (descN p) 0 0 false) [(1, dd, true), (2, da, false)] [] []) ∧
    (v d anyFmt → d.sfmt = 0 → (now → root < g.size) →
      (g.state = 2 → g.rank = root → v p anyFmt → (now → p.sfmt = 0 ∧ overlaps p d = false) →
        in_ (.gbcast k dd da hb y) (told 2 (if descN p = descN d ∧ p.fmt = d.fmt then 0 else 1) (descN p) p.fmt root false)
          [(1, dd, true), (2, da, false)] [] [hb]) ∧
      (g.state ≠ 2 ∨ g.rank ≠ root → in_ (.gbcast k dd da hb y) (told 2 0 (descN d) d.fmt root true) [(1, dd, true)] [da] [hb])) ∧
    (v d anyFmt → v p anyFmt → d.sfmt = 0 → p.sfmt = 0 → (now → descN d = g.size * descN p) → overlaps p d = false →
      in_ (.ggath k dd da y) (told 3 (if p.fmt = d.fmt then 0 else 1) (descN p) p.fmt 0 false) [(1, dd, true), (2, da, false)] [] [])

/-- R81, R158, R165, R307: an engine instruction of any queue whose takes do not hold waits, before anything else is judged; one whose operand fails R150
faults with its takes undrawn and the operand in ESW (R357), here for the first operand of each and, in vector instructions, for da behind dd, which is
judged first (log 87, the model's reading); and one whose ring has too few slots, here the destination of a two-source instruction, waits for them with
what it has sampled, its takes undrawn, its claims made all together once there are (log 51). Behind a full queue it stays in RUN and does not begin: that
its queue's room is tested before all else is the model's choice (log 93). -/
def Obligations.IssueStops : Prop :=
  ∀ (s : State) (k dd da db hd ha hb : Nat) (rm : Rm) (y : Sync) (mask : MaskKind) (op : RedOp) (sc : ScanOp) (metric : Metric) (cc : VCond)
      (kind : BcastKind) (fill : ZeroFill) (sel : AqrySel) (f g : Bool),
    let ks := y.take0.toList ++ y.take1.toList ++ y.take2.toList
    let hold (k : Nat) : Prop := (tabGet 0 s.core.sems k - (tabGet 0 (curStream s).draws k + BitVec.ofNat 32 (ks.count k))).toNat < 2 ^ 31
    let d := descAt s dd; let p := descAt s da; let q := descAt s db
    let stops (eng : EngineName) (i : Instr) : Prop :=
      (16 ≤ (queueOf s.core eng).length → exec i s = .next { s with held := true }) ∧
      ((queueOf s.core eng).length < 16 → (∃ k ∈ ks, ¬ hold k) → waitsFor i s (.takes ks))
    let faults (eng : EngineName) (i : Instr) (operand : Nat) (r : Option Cause) : Prop :=
      (queueOf s.core eng).length < 16 → (∀ k ∈ ks, hold k) → ∀ c, r = some c → exec i s = .next (trapCur s { cause := c, esw := operand * 2 ^ 16 })
    let both (i : Instr) (okd oka : Fmt → Bool) : Prop :=
      faults .vector i 1 (checkDesc d [1, 2, 4] okd) ∧ (checkDesc d [1, 2, 4] okd = none → faults .vector i 2 (checkDesc p [1, 2, 4] oka))
    let two := [Instr.vadd dd da db rm y, .vsub dd da db rm y, .vmul dd da db rm y, .vdiv dd da db rm y, .vmin dd da db rm y, .vmax dd da db rm y]
    (∀ i ∈ [Instr.dcopy mask dd da rm y, .dgather mask f dd da db rm y, .dscatter mask f dd da db rm y, .dscata mask f dd da db rm y, .dfill dd ha y,
        .dpref da y, .dflush da y, .dinv da y, .dpreq mask da db y, .dput k dd da db y, .dget k dd da y, .dfadd k dd da db y, .dfcas k dd da db y,
        .dfencef k da hb y, .dflowOpen k hd ha y, .dflowClose k hd ha y, .dflowReset k hd ha y, .dflowStat k hd ha y], stops .data i) ∧
    (∀ i ∈ two ++ [Instr.vfma dd da db rm y, .vfms dd da db rm y, .vabs dd da rm y, .vneg dd da rm y, .vcvt dd da rm y, .vexp2 dd da rm y,
        .vlog2 dd da rm y, .vrcp dd da rm y, .vrsq dd da rm y, .vsqrt dd da rm y, .vtanh dd da rm y, .vsig dd da rm y, .verf dd da rm y, .vsin dd da rm y,
        .vcos dd da rm y, .vclamp dd da db rm y, .vsel dd da db rm y, .vscale dd da db rm y, .vnot dd da y, .vmov dd da y, .vand dd da db y,
        .vor dd da db y, .vxor dd da db y, .vshl dd da db y, .vshr dd da db y, .vsar dd da db y, .vcmp cc dd da db y, .vbcast kind dd ha rm y,
        .viota f dd ha hb rm y, .vperm f dd da db rm y, .vred op f dd da rm y, .vscan sc f dd da rm y, .vdot f dd da db rm y,
        .vdist metric f dd da db rm y, .vthrc f g dd da db y, .vcomp f g dd da db rm y, .vexpd f dd da db rm y, .vhist f g dd da hb y,
        .vxform f g dd da y, .vmaxi f dd da rm y, .vsort f g dd da rm y, .vranki f g ha y, .vrankp da db y, .vranko f dd rm y], stops .vector i) ∧
    (∀ i ∈ [Instr.xlease y, .xfree f y, .xzero fill f y, .xcellop ha y, .xpass f da db y, .xside da hb y, .xsideb hb y, .xdrain f dd rm y,
        .xbias f g da y, .ares dd da hb y, .arel dd y, .aqry sel hd ha y, .apub hd ha hb y], stops .matrix i) ∧
    (∀ i ∈ [Instr.gsync k y, .gred sc k dd da rm y, .gbcast k dd da hb y, .ggath k dd da y], stops .group i) ∧
    (∀ i ∈ [Instr.dcopy mask dd da rm y, .dgather mask f dd da db rm y, .dfill dd ha y], faults .data i 1 (checkDesc d [1, 2, 3, 4] anyFmt)) ∧
    faults .data (.dscatter mask f dd da db rm y) 1 (checkDesc d [1, 2, 3] anyFmt) ∧
    faults .data (.dscata mask f dd da db rm y) 1 (checkDesc d [1, 2, 3] scataFmt) ∧
    (∀ i ∈ [Instr.dpref da y, .dflush da y, .dinv da y, .dpreq mask da db y], faults .data i 2 (checkDesc p [3] anyFmt)) ∧
    ((∃ j, curJob s = some j ∧ j.kern.fabric = true) →
      faults .data (.dput k dd da db y) 1 (checkDesc d [5] anyFmt) ∧ faults .data (.dfencef k da hb y) 2 (checkDesc p [5] anyFmt) ∧
      ∀ i ∈ [Instr.dget k dd da y, .dfadd k dd da db y, .dfcas k dd da db y], faults .data i 1 (checkDesc d [1, 2, 3] anyFmt)) ∧
    (∀ i ∈ two ++ [Instr.vfma dd da db rm y, .vfms dd da db rm y, .vabs dd da rm y, .vneg dd da rm y, .vcvt dd da rm y, .vexp2 dd da rm y,
        .vlog2 dd da rm y, .vrcp dd da rm y, .vrsq dd da rm y, .vsqrt dd da rm y, .vtanh dd da rm y, .vsig dd da rm y, .verf dd da rm y, .vsin dd da rm y,
        .vcos dd da rm y, .vclamp dd da db rm y, .vsel dd da db rm y, .vscale dd da db rm y, .vred op f dd da rm y, .vscan sc f dd da rm y,
        .vdot f dd da db rm y], both i notBit anyFmt) ∧
    (∀ i ∈ [Instr.vnot dd da y, .vmov dd da y, .vand dd da db y, .vor dd da db y, .vxor dd da db y, .vshl dd da db y, .vshr dd da db y, .vsar dd da db y,
        .vperm f dd da db rm y, .vcomp f g dd da db rm y, .vexpd f dd da db rm y, .vxform f g dd da y], both i anyFmt anyFmt) ∧
    both (.vthrc f g dd da db y) fmtInteger notBit ∧ both (.vmaxi f dd da rm y) fmtInteger notBit ∧ both (.vsort f g dd da rm y) notBit notBit ∧
    both (.vcmp cc dd da db y) (fun x => x = .b1 || fmtInteger x) anyFmt ∧
    both (.vhist f g dd da hb y) (fun x => x = .n32) (fun x => [8, 16, 32, 64].contains (fmtWidth x)) ∧
    (∀ i ∈ [Instr.vbcast kind dd ha rm y, .viota f dd ha hb rm y, .vranko f dd rm y, .vdist metric f dd da db rm y], faults .vector i 1 (checkDesc d [1, 2, 4] notBit)) ∧
    faults .vector (.vrankp da db y) 2 (checkDesc p [1, 2, 4] notBit) ∧
    (∀ x : Desc, (x.type = 4 → bitAt x.base 54 = false) →
      (x = p → faults .matrix (.xpass f da db y) 2 (checkDesc x [1, 4] passFmtA) ∧ faults .matrix (.xside da hb y) 2 (checkDesc x [1, 4] anyFmt) ∧
        faults .matrix (.xbias f g da y) 2 (checkDesc x [1, 4] notBit)) ∧
      (x = d → faults .matrix (.xdrain f dd rm y) 1 (checkDesc x [1, 4] notBit))) ∧
    (d.amv = true → ∀ i ∈ [Instr.ares dd da hb y, .arel dd y], faults .matrix i 1 (checkDesc d [1] anyFmt)) ∧
    faults .group (.gred sc k dd da rm y) 1 (checkDesc d [1, 2, 3] notBit) ∧
    (∀ i ∈ [Instr.gbcast k dd da hb y, .ggath k dd da y], faults .group i 1 (checkDesc d [1, 2, 3] anyFmt)) ∧
    (∀ i ∈ two,
      let us : List OpUse := [⟨1, d, true⟩, ⟨2, p, false⟩, ⟨3, q, false⟩]
      (∀ k ∈ ks, hold k) → checkDesc d [1, 2, 4] notBit = none →
      (checkDesc p [1, 2, 4] anyFmt = none ∧ pairsWith p d ∧ clearOf p d) → (checkDesc q [1, 2, 4] anyFmt = none ∧ pairsWith q d ∧ clearOf q d) →
      (∀ u ∈ us, u.d.type = 4 → ringUseBad s.core us u = false) → s.core.qvec.length < 16 → ringShort s.core ⟨1, d, true⟩ = true →
      ∃ r : Ready, exec i s = .next (waitReady s (.ring d.nreg true d.claim) r) ∧ r.takes = ks ∧ r.entry.instr = i ∧ readyUses r = us)

/-! ### Engine instructions: their elements and their end -/

/-- R31, R165, R179, R186 to R189, R193, R194, R197, R198: an element of an elementwise instruction at the head of the vector engine, with operands of the
scratchpad, packed or scaled where the format has it, is the exact result rounded once to the destination's format with the tag and the element's index,
stored at the element's place; the entry's progress advances by one, and the flags stick or trap. A block of a block-scaled destination is formed and
written whole, by each of them. Which of several enabled exceptions is reported, and the sign of an exact zero of VIOTA, are the model's (logs 21, 86). -/
def Obligations.VectorElements : Prop :=
  ∀ (s : State) (e : QEntry) (dd da db ha hb : Nat) (rm : Rm) (y : Sync) (row : Bool),
    let d := descOf (e.descs.getD 0 0); let p := descOf (e.descs.getD 1 0); let q := descOf (e.descs.getD 2 0); let m := descOf (e.descs.getD 3 0)
    let i := e.progress
    let limit := elemLimit e d
    let mode := rm.getD (modeOfCode (e.vctl.toNat % 8))
    let rdn := decide (mode = .rdn)
    let of (x : Desc) (k : Nat) : Nat := if descN x = descN d then k else if descN x = 1 then 0 else k % descCount d
    let op1 : List (Instr × (XR → FV)) :=
      [(.vabs dd da rm y, fun a => (xAbs a, 0)), (.vneg dd da rm y, fun a => (xOpp a, 0)), (.vcvt dd da rm y, fun a => (a, 0)), (.vexp2 dd da rm y, fExp2),
       (.vlog2 dd da rm y, fLog2), (.vrcp dd da rm y, fRcp), (.vrsq dd da rm y, fRsq), (.vsqrt dd da rm y, fSqrt), (.vtanh dd da rm y, fTanh),
       (.vsig dd da rm y, fSig), (.verf dd da rm y, fErf), (.vsin dd da rm y, fSin), (.vcos dd da rm y, fCos)]
    let op2 : List (Instr × (XR → XR → FV)) :=
      [(.vadd dd da db rm y, xAdd rdn), (.vsub dd da db rm y, xSub rdn), (.vmul dd da db rm y, xMul), (.vdiv dd da db rm y, xDiv),
       (.vmin dd da db rm y, fun a b => (if xIsNan a || xIsNan b then .nan else if xLtSigned b a then b else a, 0)),
       (.vmax dd da db rm y, fun a b => (if xIsNan a || xIsNan b then .nan else if xLtSigned a b then b else a, 0)),
       (.vscale dd da db rm y, fun a b => (xShift a (indexVal (b, 0)), 0))]
    let op3 : List (Instr × (XR → XR → XR → FV)) :=
      [(.vfma dd da db rm y, xFma rdn), (.vfms dd da db rm y, fun a b c => xFma rdn a b (xOpp c))]
    let h := (e.hvals.getD 0 0).toNat
    let op0 : List (Instr × (Nat → XR)) :=
      [(.vbcast .hi64 dd ha rm y, fun _ => xInt (signExt h 64)), (.vbcast .hn64 dd ha rm y, fun _ => xInt h),
       (.vbcast .hf32 dd ha rm y, fun _ => decodeFmt .f32 (h % 2 ^ 32)), (.vbcast .hf16 dd ha rm y, fun _ => decodeFmt .f16 (h % 2 ^ 16)),
       (.vbcast .hbf16 dd ha rm y, fun _ => decodeFmt .bf16 (h % 2 ^ 16)),
       (.viota row dd ha hb rm y, fun k => xInt ((e.hvals.getD 0 0).toInt + ((if row then k % descCount d else k) : Nat) * (e.hvals.getD 1 0).toInt))]
    let forms (ks : List Nat) (gets : (Nat → FV) → Prop) : Prop :=
      (∀ z ∈ op0, e.instr = z.1 → gets fun k => (z.2 k, 0)) ∧
      (∀ f : Nat → XR, (∀ k ∈ ks, valueIs s p (of p k) (f k)) → pairsWith p d →
        (∀ z ∈ op1, e.instr = z.1 → gets fun k => z.2 (f k)) ∧
        (∀ g : Nat → XR, (∀ k ∈ ks, valueIs s q (of q k) (g k)) → pairsWith q d →
          (∀ z ∈ op2, e.instr = z.1 → gets fun k => z.2 (f k) (g k)) ∧
          (∀ c : Nat → XR, (∀ k ∈ ks, valueIs s d k (c k)) → m = d → ∀ z ∈ op3, e.instr = z.1 → gets fun k => z.2 (f k) (g k) (c k)) ∧
          (∀ c : Nat → XR, (∀ k ∈ ks, valueIs s m (of m k) (c k)) → pairsWith m d → e.instr = .vclamp dd da db rm y →
            gets fun k => (xMin (xMax (f k) (g k)) (c k), 0)) ∧
          (∀ c : Nat → Nat, (∀ k ∈ ks, bitsAre s m (of m k) (c k)) → pairsWith m d → e.instr = .vsel dd da db rm y →
            gets fun k => (if c k = 1 then f k else g k, 0))))
    i < limit →
    (descScale d = none → canHold s d i → forms [i] fun v => receives s e d i rm (v i) (i + 1) limit e.part) ∧
    (∀ sf, descScale d = some sf → d.type = 1 → i = (blockOf d i).1 →
      let ks := upFrom i (min (blockOf d i).2 (limit - i))
      let a := descBase d + (d.sbase + (i % descCount d / blockSize d * scaleBytes sf : Nat) + (i / descCount d % d.exts.getD 1 0 : Nat) * d.sstride)
      (∀ k ∈ ks, canHold s d k) → 0 ≤ a → spadOk s a.toNat (scaleBytes sf) = true →
      forms ks fun v =>
        let vs := ks.map v
        let o := roundBlock sf (descFmt d) ⟨mode, e.vctl.getLsbD 3, e.seed, d.tag, 0⟩ ((vs.map (·.1)).zip ks)
        let fl := vs.foldl (fun a v => a ||| v.2) o.2.2
        let t := (ks.zip o.2.1).foldl (fun s k => withElem s d k.1 k.2) { s with core := putSpad s.core a.toNat (natLe (scaleBytes sf) o.1) }
        (fl.getLsbD 7 && e.vctl.getLsbD 4) = false →
        (enabledTrap e.vctl fl = none → unitLeaves s e (mergeFlags t fl) (i + ks.length) limit e.part) ∧
        (∀ n, enabledTrap e.vctl fl = some n → runUnit s e = .error (.trap { cause := .fpTrap, esw := n })))

/-- R179, R190 to R192, R195, R196: an element of a bitwise instruction, a move, a shift or a comparison receives raw bits that no rounding touches; an
element of VPERM receives the element of its row that the index names, moved as R170 says, and an index out of range gives 0 under OOB and faults
VEC_COUNT without it. That a range fault comes before that fault is the model's order (log 81), and that the fault names no operand its reading (log 75). -/
def Obligations.VectorBitElements : Prop :=
  ∀ (s : State) (e : QEntry) (dd da db : Nat) (rm : Rm) (y : Sync) (cc : VCond),
    let d := descOf (e.descs.getD 0 0); let p := descOf (e.descs.getD 1 0); let q := descOf (e.descs.getD 2 0)
    let i := e.progress
    let limit := elemLimit e d
    let w := descWidth d
    let of (x : Desc) : Nat := if descN x = descN d then i else if descN x = 1 then 0 else i % descCount d
    let gets (bits : Nat) (fl : Flags) : Prop := receivesBits s e d i bits fl (i + 1) limit e.part
    i < limit → descScale d = none → canHold s d i →
    (∀ a, pairsWith p d → bitsAre s p (of p) a →
      (e.instr = .vnot dd da y → gets (2 ^ w - 1 - a) 0) ∧ (e.instr = .vmov dd da y → gets a 0) ∧
      (∀ b, pairsWith q d → bitsAre s q (of q) b →
        (e.instr = .vand dd da db y → gets (a &&& b) 0) ∧ (e.instr = .vor dd da db y → gets (a ||| b) 0) ∧ (e.instr = .vxor dd da db y → gets (a ^^^ b) 0)) ∧
      (∀ b, pairsWith q d → valueIs s q (of q) b →
        let n := indexVal (b, 0)
        let inside : Prop := 0 ≤ n ∧ n < w
        (e.instr = .vshl dd da db y → (inside → gets (a * 2 ^ n.toNat % 2 ^ w) 0) ∧ (¬ inside → gets 0 0)) ∧
        (e.instr = .vshr dd da db y → (inside → gets (a / 2 ^ n.toNat) 0) ∧ (¬ inside → gets 0 0)) ∧
        (e.instr = .vsar dd da db y → (inside → gets (truncBits (signExt a w / 2 ^ n.toNat) w) 0) ∧
          (¬ inside → gets (truncBits (if signExt a w < 0 then -1 else 0) w) 0)))) ∧
    (∀ a b, pairsWith p d → valueIs s p (of p) a → pairsWith q d → valueIs s q (of q) b → e.instr = .vcmp cc dd da db y →
      let un := xIsNan a || xIsNan b
      let o := xCmp a b
      let nv : Flags := if un then flagNV else 0
      let bit (x : Bool) : Nat := if x then 1 else 0
      match cc with
      | .eq => gets (bit (o == some .eq)) 0
      | .ne => gets (bit (o != some .eq)) 0
      | .lt => gets (bit (o == some .lt)) nv
      | .le => gets (bit (o == some .lt || o == some .eq)) nv
      | .gt => gets (bit (o == some .gt)) nv
      | .ge => gets (bit (o == some .gt || o == some .eq)) nv
      | .un => gets (bit un) 0
      | .ord => gets (bit !un) 0) ∧
    (∀ oob b, pairsWith q d → valueIs s q (of q) b → e.instr = .vperm oob dd da db rm y →
      let x := indexVal (b, 0)
      let k := (if descRows p = 1 then 0 else i / descCount d) * descCount p + x.toNat
      (0 ≤ x → x < descCount p →
        (∀ a, bitsAre s p k a → p.fmt = d.fmt → descScale p = none → p.sfmt = 0 → d.sfmt = 0 → gets a 0) ∧
        (∀ a, valueIs s p k a → p.fmt ≠ d.fmt → receives s e d i rm (a, 0) (i + 1) limit e.part)) ∧
      (x < 0 ∨ descCount p ≤ x → (oob = true → gets (roundTo xZero (descFmt d) interior).1 0) ∧
        (oob = false → runUnit s e = .error (.trap { cause := .vecCount }))))

/-- R204 to R209, R215: a row reduced at the head of the vector engine, its operands in the scratchpad and its destination unscaled. The leaves are
combined in the tree of R48, exactly in the integer class and else rounded to F32, and the result is rounded once into the row's element; an empty row
gives the identity. VSCAN combines from left to right, VTHRC counts, and VMAXI finds the first of the largest. That NEG makes a distance of zero -0, also
from integer sources, is the model's reading (log 74). -/
def Obligations.ReductionResults : Prop :=
  ∀ (s : State) (e : QEntry) (dd da db : Nat) (rm : Rm) (y : Sync) (len neg ge excl : Bool) (f g : Nat → XR),
    let d := descOf (e.descs.getD 0 0); let p := descOf (e.descs.getD 1 0); let q := descOf (e.descs.getD 2 0)
    let r := e.progress
    let c0 := descCount p
    let n := if len then e.count else c0
    let rows := if len then descRows p else e.count
    let both := intClass p && intClass q
    let pick (b : XR → XR → Bool) (x y : XR) : FV := (if xIsNan x || xIsNan y then .nan else if b x y then y else x, 0)
    let larger := pick xBelow
    let smaller := pick fun x y => xBelow y x
    let gets (rows n : Nat) (int : Bool) (comb : XR → XR → FV) (ident : XR) (fin : XR → XR) (leaf : Nat → FV) : Prop :=
      let t := (tree (combine int comb) ((upFrom 0 n).map leaf)).getD (ident, 0)
      receives s e d r rm (fin t.1, t.2) (r + 1) rows e.part
    let fin (x : XR) : XR := if neg then xOpp x else x
    let sq (x : XR × Flags) : FV := let p := xMul x.1 x.1; (p.1, x.2 ||| p.2)
    descScale d = none →
    (canHold s d r → r < rows → (∀ c < n, valueIs s p (r * c0 + c) (f c)) →
      (∀ z ∈ [(RedOp.sum, xAdd false, xZero, fun a => ((a, 0) : FV)), (.max, larger, .inf true, fun a => (a, 0)), (.min, smaller, .inf false, fun a => (a, 0)),
          (.amax, larger, xZero, fun a => (xAbs a, 0)), (.sumsq, xAdd false, xZero, fun a => xMul a a)],
        e.instr = .vred z.1 len dd da rm y → gets rows n (intClass p) z.2.1 z.2.2.1 id fun c => z.2.2.2 (f c)) ∧
      ((∀ c < n, valueIs s q ((if descRows q = 1 then 0 else r) * c0 + c) (g c)) → e.instr = .vdot len dd da db rm y →
        gets rows n both (xAdd false) xZero id fun c => xMul (f c) (g c)) ∧
      (∀ t, valueIs s q (if descN q = 1 then 0 else r) t → e.instr = .vthrc ge len dd da db y →
        let o := roundTo (xInt ((upFrom 0 n).filter fun c => xCmp (f c) t == some .gt || (ge && xCmp (f c) t == some .eq)).length) (descFmt d) interior
        receivesBits s e d r o.1 (o.2 &&& flagSAT) (r + 1) rows e.part) ∧
      (let d2 := q
       descScale d2 = none → canHold s d2 r → e.instr = .vmaxi len dd da rm y →
        let best := (upFrom 1 (n - 1)).foldl (fun b c => if xBelow (f b) (f c) then c else b) 0
        let k : Nat × Flags := if n = 0 then (2 ^ descWidth d - 1, 0) else roundTo (xInt best) (descFmt d) interior
        let v := roundTo (if n = 0 then xZero else f best) (descFmt d2)
          ⟨rm.getD (modeOfCode (e.vctl.toNat % 8)), e.vctl.getLsbD 3, e.seed, d2.tag, r⟩
        (k.2 ||| v.2).getLsbD 7 = false → enabledTrap e.vctl k.2 = none → enabledTrap e.vctl v.2 = none →
        unitLeaves s e (mergeFlags (withElem (mergeFlags (withElem s d r k.1) k.2) d2 r v.1) v.2) (r + 1) rows e.part)) ∧
    (canHold s d r → r < e.count →
      ((∀ c < c0, valueIs s p (r * c0 + c) (f c) ∧ valueIs s q c (g c)) →
        ∀ z ∈ [(Metric.l2sq, fun a b => sq (xSub false a b)), (.l1, fun a b => let d := xSub false a b; (xAbs d.1, d.2)), (.ip, xMul)],
          e.instr = .vdist z.1 neg dd da db rm y → gets e.count c0 both (xAdd false) xZero fin fun c => z.2 (f c) (g c)) ∧
      (∀ u v : Nat → Nat, (∀ c < c0, bitsAre s p (r * c0 + c) (u c) ∧ bitsAre s q c (v c)) → e.instr = .vdist .ham neg dd da db rm y →
        gets e.count c0 true (xAdd false) xZero fin fun c => (xInt ((upFrom 0 64).filter fun i => (u c ^^^ v c).testBit i).length, 0))) ∧
    (∀ x b, valueIs s p r x → canHold s d r → let limit := elemLimit e d / c0 * c0
      r < limit → (r % c0 ≠ 0 → e.part = .acc b) →
      ∀ z ∈ [(ScanOp.sum, xAdd false, xZero), (.max, larger, .inf true), (.min, smaller, .inf false)], e.instr = .vscan z.1 excl dd da rm y →
        let after : FV := if r % c0 = 0 then roundInner (intClass p) (x, 0) else combine (intClass p) z.2.1 (b, 0) (x, 0)
        let out : XR := if excl then (if r % c0 = 0 then z.2.2 else b) else after.1
        receives s e d r rm (out, after.2) (r + 1) limit (.acc after.1))

/-- R170, R210, R211, R213, R214, R216 to R221: VSORT sorts a row stably; VCOMP packs the selected elements of a row and counts them; VEXPD spreads the
elements of a row over the places that a mask selects; VHIST counts the digits of a row's keys; VXFORM forms ordered keys; and the ranking unit keeps the
k pairs that rank first. The operands stand in the scratchpad, the destinations unscaled. -/
def Obligations.SelectionResults : Prop :=
  (∀ (desc : Bool) (xs : List XR), (∀ n a b, XR.fin n a b ∈ xs → b ≠ 0) →
    let before (x y : XR) : Bool := if desc then xBelow y x else xBelow x y
    let at_ (i : Nat) := xs.getD i .nan
    (sortRow desc xs).Perm (upFrom 0 xs.length) ∧
    (sortRow desc xs).Pairwise fun i j => before (at_ i) (at_ j) = true ∨ (before (at_ j) (at_ i) = false ∧ i < j)) ∧
  ∀ (s : State) (e : QEntry) (dd da db : Nat) (rm : Rm) (y : Sync) (f : Nat → XR) (u : Nat → Nat),
    let d := descOf (e.descs.getD 0 0); let p := descOf (e.descs.getD 1 0); let q := descOf (e.descs.getD 2 0)
    let i := e.progress
    let c0 := descCount p
    let place := match e.part with | .at w => w | _ => 0
    let int (x : Desc) (k : Nat) : Nat × Flags := roundTo (xInt k) (descFmt x) interior
    let zero : Nat × Flags := ((roundTo xZero (descFmt d) interior).1, 0)
    let moved (j : Nat) (b : Nat) (v : XR) : Nat × Flags :=
      if p.fmt = d.fmt ∧ p.sfmt = 0 ∧ d.sfmt = 0 then (b, 0)
      else roundTo v (descFmt d) ⟨rm.getD (modeOfCode (e.vctl.toNat % 8)), e.vctl.getLsbD 3, e.seed, d.tag, j⟩
    let holds (x : Desc) (js : List (Nat × Nat × Flags)) : Prop := descScale x = none ∧ ∀ j ∈ js, canHold s x j.1
    (∀ desc perm, e.instr = .vsort desc perm dd da rm y → i < e.count →
      (∀ c < c0, valueIs s p (i * c0 + c) (f c) ∧ bitsAre s p (i * c0 + c) (u c)) →
      let order := (upFrom (i * c0) c0).zip (sortRow desc ((upFrom 0 c0).map f))
      let xs := order.map fun z => (z.1, moved z.1 (u z.2) (f z.2))
      let ys := if perm then order.map fun z => (z.1, int q z.2) else []
      holds d xs → (perm = true → holds q ys) → unitWrites s e d xs q ys (i + 1) e.count e.part) ∧
    (∀ fill idx b, e.instr = .vcomp fill idx dd da db rm y → i < e.count * c0 → pairsWith q p →
      bitsAre s q (if descN q = descN p then i else if descN q = 1 then 0 else i % c0) b → valueIs s p i (f i) → bitsAre s p i (u i) →
      let d2 := descOf (e.descs.getD 3 0)
      let n := descCount d
      let r := i / c0
      let last := i % c0 + 1 = c0
      let w := if b = 1 then place + 1 else place
      let xs := (if b = 1 ∧ place < n then [(r * n + place, if idx then int d (i % c0) else moved (r * n + place) (u i) (f i))] else []) ++
        if last ∧ fill = true then (upFrom (min w n) (n - min w n)).map fun j => (r * n + j, zero) else []
      let ys := if last then [(r, int d2 w)] else []
      holds d xs → holds d2 ys → unitWrites s e d xs d2 ys (i + 1) (e.count * c0) (.at (if last then 0 else w))) ∧
    (∀ fill b, e.instr = .vexpd fill dd da db rm y → i < e.count * descCount d → pairsWith q d →
      bitsAre s q (if descN q = descN d then i else if descN q = 1 then 0 else i % descCount d) b →
      let w := if i % descCount d = 0 then 0 else place
      let k := (if descRows p = 1 then 0 else i / descCount d) * c0 + w
      let take := b = 1 ∧ w < c0
      let xs := if take then [(i, moved i (u k) (f k))] else if fill then [(i, zero)] else []
      (take → valueIs s p k (f k) ∧ bitsAre s p k (u k)) → holds d xs →
      unitWrites s e d xs d [] (i + 1) (e.count * descCount d) (.at (if take then w + 1 else w))) ∧
    (∀ acc one, e.instr = .vhist acc one dd da db y → i < e.count → (∀ c < c0, bitsAre s p (i * c0 + c) (u c)) →
      let h := (e.hvals.getD 0 0).toNat
      let sh := bitField h 0 6
      let wid := bitField h 8 4
      let top (k : Nat) := k / 2 ^ (sh + wid)
      let count (b : Nat) := ((upFrom 0 c0).filter fun c =>
        (!h.testBit 12 || top (u c) == top ((e.hvals.getD 1 0).toNat % 2 ^ descWidth p)) && u c / 2 ^ sh % 2 ^ wid == b).length
      ∀ (bins : Tab Nat) (old : Nat → Nat), tabWf 0 bins = true → (one = true → e.part = .bins bins) →
      let first := if one then 0 else i * 2 ^ wid
      let all (b : Nat) := (if acc then old b else 0) + (if one then tabGet 0 bins b else 0) + count b
      let xs := if one = false ∨ i + 1 = e.count then
        (upFrom 0 (2 ^ wid)).map fun b => (first + b, min (all b) (2 ^ 32 - 1), if 2 ^ 32 ≤ all b then flagSAT else (0 : Flags)) else []
      (acc = true → ∀ b < 2 ^ wid, bitsAre s d (first + b) (old b)) → holds d xs →
      ∃ t : Tab Nat, unitWrites s e d xs d [] (i + 1) e.count (.bins t) ∧ (one = true → ∀ b < 2 ^ wid, tabGet 0 t b = tabGet 0 bins b + count b)) ∧
    (∀ desc inv b, e.instr = .vxform desc inv dd da y → i < elemLimit e d → descScale d = none → canHold s d i → bitsAre s p i b →
      let x := if inv then d else p
      let key := if inv then p else d
      let w := descWidth x
      let all := 2 ^ w - 1
      let top := 2 ^ (w - 1)
      let float := fmtFloat (descFmt x)
      let signed := [Fmt.i8, .i16, .i32, .i64].contains (descFmt x)
      let flip (k : Nat) := if desc then k ^^^ all else k
      let out := if inv then
          let k := flip b
          if float then (if k = 0 then ((floatSpec (descFmt x)).bind (·.nanBits)).getD 0 else if k.testBit (w - 1) then k ^^^ top else k ^^^ all)
          else if signed then k ^^^ top else k
        else flip (if float then (if xIsNan (decodeFmt (descFmt x) b) then 0 else if b.testBit (w - 1) then b ^^^ all else b ||| top)
          else if signed then b ^^^ top else b)
      keyFmt (descFmt x) = some (descFmt key) → receivesBits s e d i out 0 (i + 1) (elemLimit e d) e.part) ∧
    (∀ small int ha, e.instr = .vranki small int ha y →
      runUnit s e = .ok ⟨{ s with core := { s.core with rank := ⟨true, small, int, (e.hvals.getD 0 0).toNat, 0, []⟩ } }, e, true⟩) ∧
    (let rk := s.core.rank
     let score (x : Option Nat × Nat) : XR := match x.1 with | none => .nan | some b => decodeFmt (if rk.int then .i64 else .f32) b
     let above (x y : XR) : Bool := if rk.small then xBelow x y else xBelow y x
     let before (x y : Option Nat × Nat) : Bool :=
       if xIsNan (score x) != xIsNan (score y) then xIsNan (score y)
       else if !xIsNan (score x) && above (score x) (score y) then true
       else if !xIsNan (score x) && above (score y) (score x) then false
       else decide (signExt x.2 64 < signExt y.2 64)
     (∀ x b, e.instr = .vrankp da db y → i < e.count → valueIs s d i x → bitsAre s p i b →
       let o := roundTo x (if rk.int then .i64 else .f32) interior
       let new : Option Nat × Nat := (if xIsNan x then none else some o.1, if descFmt p = .n32 then b else truncBits (signExt b (descWidth p)) 64)
       let fl : Flags := if xIsNan x then 0 else o.2
       ∀ l l', rk.pairs = l ++ l' → (∀ z ∈ l, before new z = false) → (∀ z, l'.head? = some z → before new z = true) →
       fl.getLsbD 7 = false → enabledTrap e.vctl fl = none →
       let pairs := (l ++ new :: l').take rk.k
       unitLeaves s e (mergeFlags { s with core := { s.core with rank := { rk with pairs := pairs, m := pairs.length } } } fl) (i + 1) e.count e.part) ∧
     (∀ keep, e.instr = .vranko keep dd rm y → i < e.count → descScale d = none → canHold s d i → canHold s p i →
       let o := roundTo (match rk.pairs[i]? with | some z => score z | none => xZero) (descFmt d)
         ⟨rm.getD (modeOfCode (e.vctl.toNat % 8)), e.vctl.getLsbD 3, e.seed, d.tag, i⟩
       let t := mergeFlags (withElem (withElem s p i (match rk.pairs[i]? with | some z => z.2 % 2 ^ descWidth p | none => 2 ^ descWidth p - 1)) d i o.1) o.2
       o.2.getLsbD 7 = false → enabledTrap e.vctl o.2 = none →
       unitLeaves s e (if keep = false ∧ e.count ≤ i + 1 then { t with core := { t.core with rank := ⟨false, false, false, 0, 0, []⟩ } } else t)
         (i + 1) e.count e.part))

/-- R226, R228, R234 to R240, R242: the array instructions at the head of the X engine under a held right that is not due, no trap of VCTL enabled: what
Acc, Side and the other array state hold then, and what XDRAIN writes. An instruction that has started goes on as it began. A cell of a pass is the fold
of CellGroup over its K-step groups in ascending K, each group's exact sum taken in the order of its terms (log 80); side cells always multiply. The factor
pages of a pass stand in place. -/
def Obligations.ArrayResults : Prop :=
  ∀ (s : State) (e : QEntry) (dd da db hb : Nat) (rm : Rm) (y : Sync) (side main zero row add : Bool) (fill : ZeroFill),
    let arr := s.core.arr
    let d := descOf (e.descs.getD 0 0); let q := descOf (e.descs.getD 1 0)
    let i := e.progress
    let c := descCount d
    let m := e.count
    let h := (e.hvals.headD 0).toNat
    let with_ (a : ArrayState) : State := { s with core := { s.core with arr := a } }
    let slot (r : Nat) := mapSlot arr (r / 8)
    let rank (r : Nat) := attRank (slotEntry s (slot r))
    let leaves (a : ArrayState) (fl : Flags) : Prop := runUnit s e = .ok ⟨mergeFlags (with_ a) fl, e, true⟩
    let holds (t old : Tab Nat) (w : Nat) (at_ : Nat → Nat → Prop) (f : Nat → Nat → FV) : Prop :=
      (∀ r k, at_ r k → tabGet 0 t (r * w + k) = (roundTo (f r k).1 .f32 interior).1) ∧
      ∀ n, (∀ r k, at_ r k → n ≠ r * w + k) → tabGet 0 t n = tabGet 0 old n
    let flagged (at_ : Nat → Nat → Prop) (f : Nat → Nat → FV) (n : Nat) : Prop := ∃ r k, at_ r k ∧ (f r k).2.getLsbD n = true
    s.core.lease = .held → grantDue s s.focus = false → e.started = true → bitField e.vctl.toNat 4 4 = 0 → tabWf 0 arr.acc = true → tabWf 0 arr.side = true →
    (∀ z ∈ [Instr.xzero fill main y, .xcellop hb y, .xside da hb y, .xdrain zero dd rm y, .xbias row add da y],
      e.instr = z → runUnit s { e with started := false } = runUnit s e) ∧
    (e.instr = .xzero fill main y → ∃ acc : Tab Nat,
      (∀ r k, r < 128 → k < 256 → tabGet 0 acc (r * 256 + k) = match fill with | .zero => 0 | .neginf => 0xFF800000 | .posinf => 0x7F800000) ∧
      leaves { arr with acc := acc, alive := fill ≠ .zero, side := if main then arr.side else [], sideLive := main && arr.sideLive } 0) ∧
    (e.instr = .xcellop hb y → leaves { arr with pattern := h % 2 ^ 32 } 0) ∧
    (∀ v : Nat → Nat, e.instr = .xside da hb y → d.type = 1 → d.amv = true →
      (∀ g < 16, spadHolds s (d.amap * 256 + 8 * g : Nat) 8 (v g) ∧ bitField (v g) 16 16 = 0 ∧
        (bitField (v g) 0 16 ≠ 0xFFFF → bitField (v g) 0 16 < 64 ∧ slotBound s.core (bitField (v g) 0 16) ≠ none ∧
          h % 2 ^ 16 < attLayers (slotEntry s (bitField (v g) 0 16)))) →
      ∃ a : ArrayState, runUnit s e = .ok ⟨sweepSlots (with_ a), e, true⟩ ∧ (∀ g < 16, mapEntry a g = some (v g)) ∧
        a = { arr with map := a.map, layer := h % 2 ^ 16, k0 := bitField h 16 32, side := [], sideLive := false }) ∧
    (∀ (f g : Nat → Nat → XR) (fa : Nat → Nat → Nat → XR), e.instr = .xpass side da db y → fetchPass s e = .ok s → descRows q ≤ 256 →
      (∀ r < m, ∀ k < c, valueIs s d (r * c + k) (f r k)) → (∀ j < descRows q, ∀ k < c, valueIs s q (j * c + k) (g j k)) →
      (side = true → ∀ r < m, slot r ≠ 0xFFFF → ∀ t < rank r, ∀ k < c, factorVal s (slot r) arr.layer false t (arr.k0 + k) = .ok (fa r t k, 0)) →
      let size := (groupSize (descFmt d) (descFmt q)).getD 2
      let cell (x : XR) (ts : List (XR × XR × Nat)) : FV :=
        (groupsOf size (c + 1) ts).foldl (fun o ts => let r := cellGroup o.1 ts; (r.1, o.2 ||| r.2)) (x, 0)
      let code (k : Nat) := bitField arr.pattern (2 * (k % 16)) 2
      let out (r j : Nat) : FV := cell (accAt arr r j) ((upFrom 0 c).map fun k => (f r k, g j k, code k))
      let outS (r t : Nat) : FV := cell (sideAt arr r t) ((upFrom 0 c).map fun k => (f r k, fa r t k, 0))
      let cells (r j : Nat) : Prop := r < m ∧ j < descRows q
      let sides (r t : Nat) : Prop := side = true ∧ r < m ∧ slot r ≠ 0xFFFF ∧ t < rank r
      ∃ (acc sd : Tab Nat) (fl : Flags), holds acc arr.acc 256 cells out ∧ holds sd arr.side 64 sides outS ∧
        (∀ n, fl.getLsbD n = true ↔ flagged cells out n ∨ flagged sides outS n) ∧
        leaves { arr with acc := acc, side := sd, alive := true, lastB := lastBank q, k0 := if side then (arr.k0 + c) % 2 ^ 32 else arr.k0,
                          sideLive := arr.sideLive || (side && (upFrom 0 m).any fun r => slot r ≠ 0xFFFF) } fl) ∧
    (∀ fb : Nat → Nat → Nat → XR, e.instr = .xsideb hb y → fetchPass s e = .ok s → h / 2 ^ 32 % 512 ≤ 256 →
      let cells (r j : Nat) : Prop := r < m ∧ slot r ≠ 0xFFFF ∧ j < h / 2 ^ 32 % 512
      (∀ r j, cells r j → ∀ t < rank r, factorVal s (slot r) arr.layer true t (h % 2 ^ 32 + j) = .ok (fb r j t, 0)) →
      let out (r j : Nat) : FV :=
        let sum := exactSum ((upFrom 0 (rank r)).map fun t => xMul (sideAt arr r t) (fb r j t))
        let p := xMul (decodeFmt .f32 (mapAlpha arr (r / 8))) sum.1
        let x := xAdd false (accAt arr r j) p.1
        roundAcc (x.1, sum.2 ||| p.2 ||| x.2)
      ∃ (acc : Tab Nat) (fl : Flags), holds acc arr.acc 256 cells out ∧ (∀ n, fl.getLsbD n = true ↔ flagged cells out n) ∧
        leaves { arr with acc := acc, alive := arr.alive || (upFrom 0 m).any fun r => slot r ≠ 0xFFFF } fl) ∧
    (e.instr = .xdrain zero dd rm y → i < m * c → descScale d = none → canHold s d i → drainBankOk arr d = true →
      let o := roundTo (accAt arr (i / c) (i % c)) (descFmt d) ⟨rm.getD (modeOfCode (e.vctl.toNat % 8)), e.vctl.getLsbD 3, e.seed, d.tag, i⟩
      let t := mergeFlags (withElem s d i o.1) o.2
      unitLeaves s e (if zero = true ∧ m * c ≤ i + 1 then
          { t with core := { t.core with arr := { arr with acc := [], side := [], alive := false, sideLive := false } } } else t) (i + 1) (m * c) e.part) ∧
    (∀ v, e.instr = .xbias row add da y → i < m * c → valueIs s d (if row then i % c else i) v →
      let x := if add then roundAcc (xAdd false (accAt arr (i / c) (i % c)) v) else roundAcc (v, 0)
      unitLeaves s e (mergeFlags (with_ { arr with acc := tabSet 0 arr.acc (i / c * 256 + i % c) (roundTo x.1 .f32 interior).1, alive := true }) x.2)
        (i + 1) (m * c) e.part) ∧
    (e.instr = .xlease y → runUnit s e = .ok ⟨s, e, true⟩) ∧
    (e.instr = .xfree zero y → (arr.alive = false ∧ arr.sideLive = false) ∨ zero = true → runUnit s e = .ok ⟨dropLease s, e, true⟩)

/-- R167, R170 to R174: an element of a copying instruction at the head of the data engine, its destination in the scratchpad and unscaled, no trap of VCTL
enabled. The element moves unchanged between equal unscaled formats, else it is rounded once; an index names the row of DGATHER's table or of the
destination of DSCATTER and DSCATA; DSCATA adds. Under a mask a source element on a SOFT-ABSENT page reads as zero bits and sets the bit of its element or,
with the last element, of its row, which counts as finished there also where the valid count cuts it (log 52); an index out of range faults with operand
code 0 (log 75). Of a mask only its own bit is written. R175: DPREF passes over every element and changes nothing, whatever its page; DFLUSH and DINV write
back the lines of an element, once the purse of the write-back can pay; DPREQ posts a request for every SOFT-ABSENT page that its mask admits, and
completes when every page it asked for is resident; an element beyond the address space and a page of class DEVICE fault (log 92). -/
def Obligations.DataElements : Prop :=
  ∀ (s : State) (e : QEntry) (mask : MaskKind) (oob : Bool) (dd da db ha : Nat) (rm : Rm) (y : Sync) (b : Nat) (v : XR) (hit : Bool),
    let d := descOf (e.descs.getD 0 0); let p := descOf (e.descs.getD 1 0); let q := descOf (e.descs.getD 2 0)
    let i := e.progress
    let c := descCount p
    let raw : Prop := p.fmt = d.fmt ∧ p.sfmt = 0 ∧ d.sfmt = 0
    let rounding (j : Nat) : Rounding := ⟨rm.getD (modeOfCode (e.vctl.toNat % 8)), e.vctl.getLsbD 3, e.seed, d.tag, j⟩
    let source (k : Nat) (bits : Bool) : Prop :=
      if hit then mask ≠ .none ∧ absentAt s p k ∧ b = 0 ∧ v = decodeFmt (descFmt p) 0
      else if bits then bitsAre s p k b else valueIs s p k v
    let moved (j : Nat) : Nat × Flags := if raw then (b, 0) else roundTo v (descFmt d) (rounding j)
    let put (j : Nat) (o : Nat × Flags) : State := mergeFlags (withElem s d j o.1) o.2
    let leaves (m : Desc) (limit : Nat) (t : State) (h : Bool) : Prop :=
      match mask with
      | .none => unitLeaves s e t (i + 1) limit (.maskFlag 0 false)
      | .elems => canHold s m i → unitLeaves s e (withElem t m i (if h then 1 else 0)) (i + 1) limit (.maskFlag 0 false)
      | .rows =>
        let f := (match e.part with | .maskFlag _ f => f | _ => false) || h
        if (i + 1) % c = 0 ∨ i + 1 = limit then canHold s m (i / c) → unitLeaves s e (withElem t m (i / c) (if f then 1 else 0)) (i + 1) limit (.maskFlag 0 false)
        else unitLeaves s e t (i + 1) limit (.maskFlag 0 f)
    let va := (elemAt d i).1
    let n := elemBytes (descFmt d)
    let goes (t : State) : Prop := unitLeaves s e t (i + 1) e.count e.part
    let faults (f : TrapInfo) : Prop := runUnit s e = .error (.trap f)
    let walks : List Instr := [.dpref da y, .dflush da y, .dinv da y, .dpreq mask da db y]
    let masked : Prop := e.instr = .dpreq mask da db y → (mask = .none ∧ b = 1) ∨ (mask = .rows ∧ bitsAre s p (i / descCount d) b) ∨
      (mask = .elems ∧ bitsAre s p i b)
    (e.instr ∈ walks → masked → i < e.count →
      (e.instr = .dpreq mask da db y → b = 0 → runUnit s e = .ok ⟨s, { e with progress := i + 1, stall := none }, false⟩) ∧
      ((e.instr = .dpreq mask da db y → b ≠ 0) →
        (va < 0 ∨ 2 ^ 55 < va + n → faults { cause := .noMapping, esw := 2 * 2 ^ 16 }) ∧
        (0 ≤ va → va + n ≤ 2 ^ 55 →
          (∀ l pa, translate s (engineAccessor s) .read va.toNat = .ok (.here l pa) →
            (pteClass l.entry = 3 → faults { cause := .deviceAccessSize, esw := 2 * 2 ^ 16, va := va.toNat }) ∧
            (pteClass l.entry ≠ 3 →
              (e.instr = .dpref da y → goes s) ∧
              (e.instr = .dflush da y ∨ e.instr = .dinv da y →
                (writeBackDue s pa = none → goes (writeBackRange s pa n)) ∧ ∀ x, writeBackDue s pa = some x → runUnit s e = .error x) ∧
              (e.instr = .dpreq mask da db y → runUnit s e = .ok ⟨s, { e with progress := i + 1, stall := none }, false⟩))) ∧
          (∀ l, translate s (engineAccessor s) .read va.toNat = .ok (.absent l) →
            (e.instr = .dpref da y → goes s) ∧
            (e.instr = .dflush da y ∨ e.instr = .dinv da y → faults { cause := .noMapping, esw := 2 * 2 ^ 16, va := va.toNat }) ∧
            (∀ ps fs, e.instr = .dpreq mask da db y → e.part = .pages ps fs → pteClass l.entry ≠ 3 → runUnit s e =
              .ok ⟨postPageRequest s s.core.ctx va.toNat l none, { e with progress := i + 1, part := .pages (ps ++ [i]) fs, stall := none }, false⟩)) ∧
          (∀ f, translate s (engineAccessor s) .read va.toNat = .error (.trap f) →
            (e.instr = .dpref da y → goes (standHw s f.hw)) ∧
            (e.instr ≠ .dpref da y → faults { f with esw := f.esw ||| 2 * 2 ^ 16 }))))) ∧
    (e.instr = .dpreq mask da db y → e.count ≤ i → ∀ ps fs, e.part = .pages ps fs →
      let at_ (k : Nat) : Nat := (elemAt d k).1.toNat
      let inside (k : Nat) : Prop := 0 ≤ (elemAt d k).1 ∧ (elemAt d k).1 + n ≤ 2 ^ 55
      ((∀ k ∈ ps, inside k ∧ ∃ l pa, translate s (engineAccessor s) .read (at_ k) = .ok (.here l pa) ∧ pteClass l.entry ≠ 3) →
        runUnit s e = .ok ⟨s, e, true⟩) ∧
      (∀ k l, ps = [k] → inside k → translate s (engineAccessor s) .read (at_ k) = .ok (.absent l) → pteClass l.entry ≠ 3 →
        (at_ k / 65536 ∈ fs → faults { cause := .noMapping, esw := 2 * 2 ^ 16, va := at_ k, progress := k + 1 }) ∧
        (at_ k / 65536 ∉ fs → runUnit s e = .ok ⟨postPageRequest s s.core.ctx (at_ k) l none, e, false⟩))) ∧
    (descScale d = none → bitField e.vctl.toNat 4 4 = 0 →
    (e.instr = .dcopy mask dd da rm y → i < e.count → canHold s d i → source i (decide raw) → leaves q e.count (put i (moved i)) hit) ∧
    (e.instr = .dfill dd ha y → i < e.count → canHold s d i →
      receivesBits s e d i ((e.hvals.getD 0 0).toNat % 2 ^ descWidth d) 0 (i + 1) e.count e.part) ∧
    (i < e.count * c → ∀ x, valueIs s q (i / c) x →
      let m := descOf (e.descs.getD 3 0)
      let n := indexVal (x, 0)
      let bad : Prop := runUnit s e = .error (.trap { cause := .vecCount })
      let spot := n.toNat * c + i % c
      (e.instr = .dgather mask oob dd da db rm y → canHold s d i →
        (0 ≤ n → n < descRows p → source spot (decide raw) → leaves m (e.count * c) (put i (moved i)) hit) ∧
        (n < 0 ∨ descRows p ≤ n →
          (oob = true → leaves m (e.count * c) (put i ((roundTo xZero (descFmt d) interior).1, 0)) false) ∧ (oob = false → bad))) ∧
      (e.instr = .dscatter mask oob dd da db rm y →
        (0 ≤ n → n < descRows d → canHold s d spot → source i (decide raw) → leaves m (e.count * c) (put spot (moved spot)) hit) ∧
        (n < 0 ∨ descRows d ≤ n → (oob = true → leaves m (e.count * c) s false) ∧ (oob = false → bad))) ∧
      (e.instr = .dscata mask oob dd da db rm y →
        (∀ old, 0 ≤ n → n < descRows d → canHold s d spot → valueIs s d spot old → source i false →
          let sum := xAdd (decide (rm.getD (modeOfCode (e.vctl.toNat % 8)) = .rdn)) old v
          let o := roundTo sum.1 (descFmt d) (rounding spot)
          leaves m (e.count * c) (put spot (o.1, sum.2 ||| o.2)) hit) ∧
        (n < 0 ∨ descRows d ≤ n → (oob = true → leaves m (e.count * c) s false) ∧ (oob = false → bad)))))

/-- R249, R250, R252, R256 to R259: ARES binds the slot of a handle, a bound one again or the lowest free one within the quota, counts the reference and
writes the map; AREL drops a binding; a version's last reference reclaims it, and the last of an entry unbinds it; AQRY reads the table, and APUB publishes
a version unless the previous one is still referenced or the number is the last. That ARRAY_SHAPE and ADAPTER_QUOTA of ARES and the faults of APUB name
no operand is the model's reading (log 75), and which passes hold pages in the window is that of log 98. -/
def Obligations.AdapterResults : Prop :=
  (∀ (s : State) (a v : Nat), tabWf 0 s.att = true →
    let e := attAt s a
    let t := adapterUnref s a v
    let x := attAt t a
    (v = attVersion e → 1 ≤ attCrefs e → 2 ≤ attCrefs e + attOrefs e →
      attCrefs x = attCrefs e - 1 ∧ attOrefs x = attOrefs e ∧ attState x = attState e ∧ t.cached = s.cached) ∧
    (v ≠ attVersion e → 1 ≤ attOrefs e →
      attOrefs x = attOrefs e - 1 ∧ attCrefs x = attCrefs e ∧
      (attOrefs e = 1 → attOversion x = 0 ∧ attOptr x = 0 ∧ ∀ p ∈ t.cached, ¬ (p.adapter = a ∧ p.version = attOversion e))) ∧
    ((v = attVersion e ∧ attCrefs e = 1 ∧ attOrefs e = 0) ∨ (v ≠ attVersion e ∧ attOrefs e = 1 ∧ attCrefs e = 0) →
      (attState e = 3 → attState x = if attHome e = 1 then 1 else 2) ∧ (attState e = 5 → attState x = 0 ∧ attTag x = 0) ∧
      (attState e = 4 → attState x = 4) ∧ ∀ p ∈ t.cached, p.adapter ≠ a)) ∧
  ∀ (s : State) (e : QEntry) (dd da ha hb hd : Nat) (sel : AqrySel) (y : Sync) (h : Nat),
    let d := descOf (e.descs.getD 0 0); let p := descOf (e.descs.getD 1 0)
    let i := e.progress
    let off := d.amap * 256 + 8 * i
    let world := (curCtx s).world
    let w := e.hvals.headD 0
    let a := h / 2 ^ 44
    let x := attAt s a
    let named : Prop := attState x ≠ 0 ∧ attTag x = h % 2 ^ 44 ∧ attWorld x = world
    let slots := s.core.slots
    let fails (c : Cause) (n : Nat) : Prop := runUnit s e = .error (.trap { cause := c, esw := n * 2 ^ 16 })
    let asked := match e.part with | .pages l _ => l | _ => []
    (e.instr = .ares dd da hb y → i < e.count → spadOk s off 4 = true → bitsAre s p i h →
      let l0 := w.toNat % 2 ^ 16
      let n := bitField w.toNat 16 16
      let binds (t : State) (k : Nat) (l : List Nat) : Prop :=
        runUnit s e = .ok ⟨{ t with core := putSpad t.core off (natLe 2 k ++ [0, 0]) }, { e with progress := i + 1, part := .pages (asked ++ l) [] }, false⟩
      let here (k : Nat) : Prop := ∃ b, tabGet none slots k = some (a, attVersion x, b)
      (h = 0 → binds s 0xFFFF []) ∧ (h ≠ 0 → ¬ named → fails .adapterHandleBad 2) ∧ (h ≠ 0 → named → attState x = 5 → fails .adapterRetired 2) ∧
      (h ≠ 0 → named → attState x ≠ 5 → attLayers x < l0 + n → fails .arrayShape 0) ∧
      (h ≠ 0 → named → attState x ≠ 5 → l0 + n ≤ attLayers x → windowFits s a x l0 n = true →
        (∀ k b, k < 64 → tabGet none slots k = some (a, attVersion x, b) → (∀ j < k, ¬ here j) →
          binds { s with core := { s.core with slots := tabSet none slots k (some (a, attVersion x, b + 1)) } } k [k]) ∧
        ((∀ k < 64, ¬ here k) →
          let room : Prop := quotaCount s (curCtx s).vd (attClass x) + 1 ≤ vdField s (curCtx s).vd (256 + 16 * attClass x) 16
          ((∀ k < 64, tabGet none slots k ≠ none) ∨ ¬ room → fails .adapterQuota 0) ∧
          (∀ k, room → k < 64 → tabGet none slots k = none → (∀ j < k, tabGet none slots j ≠ none) →
            let x' := setField x 96 24 (attCrefs x + 1)
            binds { s with att := tabSet 0 s.att a (if attState x = 1 ∨ attState x = 2 then setField x' 20 3 3 else x'),
                           core := { s.core with slots := tabSet none slots k (some (a, attVersion x, 1)) } } k [k])))) ∧
    (∀ k, e.instr = .arel dd y → i < e.count → spadHolds s off 2 k →
      (k = 0xFFFF → unitLeaves s e s (i + 1) e.count e.part) ∧
      (∀ b v n, k < 64 → tabGet none slots k = some (b, v, n) → 0 < n →
        unitLeaves s e (sweepSlots { s with core := { putSpad s.core off [0xFF, 0xFF] with slots := tabSet none slots k (some (b, v, n - 1)) } })
          (i + 1) e.count e.part) ∧
      (k ≠ 0xFFFF → 64 ≤ k ∨ tabGet none slots k = none ∨ (∃ b v, tabGet none slots k = some (b, v, 0)) → fails .adapterHandleBad 4)) ∧
    (h = w.toNat → e.instr = .aqry sel hd ha y → ∃ r, runUnit s e = .ok ⟨writeNat s hd r, e, true⟩ ∧ r < 2 ^ 64 ∧
      let bits (l : List (Nat × Nat × Nat)) : Prop := bitField r 63 1 = 1 ∧ ∀ z ∈ l, bitField r z.1 z.2.1 = z.2.2
      match sel with
      | .slot =>
        (h < 64 → ∀ b v n, tabGet none slots h = some (b, v, n) → b < 2 ^ 20 → bits [(0, 24, v % 2 ^ 24), (24, 20, b), (44, 16, n % 2 ^ 16), (60, 3, 0)]) ∧
        (64 ≤ h ∨ tabGet none slots h = none → r = 0)
      | .state => (¬ named → r = 0) ∧ (named → bits [(0, 3, attState x), (3, 1, attHome x), (6, 16, attLayers x), (22, 16, attKf x), (38, 16, attNf x),
          (54, 6, bitField x 14 6), (60, 3, 0)] ∧ attRank x = 8 * 2 ^ bitField r 4 2)
      | .ver => (¬ named → r = 0) ∧ (named → bits [(0, 24, attVersion x), (24, 24, attCrefs x), (48, 15, 0)])
      | .old => (¬ named → r = 0) ∧ (named → bits [(0, 24, attOversion x), (24, 24, attOrefs x), (48, 15, 0)])) ∧
    (h = w.toNat → e.instr = .apub hd ha hb y →
      let q := (e.hvals.getD 1 0).toNat
      let gives (t : State) (st : Nat) : Prop := runUnit s e = .ok ⟨writeNat t hd (st + attVersion (attAt t a) * 2 ^ 16), e, true⟩
      (¬ named → fails .adapterHandleBad 0) ∧ (named → attState x = 5 → fails .adapterRetired 0) ∧
      (named → attState x ≠ 5 → tabWf 0 s.att = true →
        (attOrefs x ≠ 0 → gives s 1) ∧ (attOrefs x = 0 → attVersion x = 0xFFFFFF → gives s 2) ∧
        (attOrefs x = 0 → attVersion x ≠ 0xFFFFFF → q < 2 ^ 52 → ∃ t, gives t 0 ∧ t = { s with att := t.att, cached := t.cached } ∧
          let x' := attAt t a
          (∀ b, b ≠ a → attAt t b = attAt s b) ∧ attVersion x' = attVersion x + 1 ∧ attCptr x' = q ∧ attCrefs x' = 0 ∧ attOrefs x' = attCrefs x ∧
          (attCrefs x ≠ 0 → attOversion x' = attVersion x ∧ attOptr x' = attCptr x ∧ t.cached = s.cached) ∧
          (attCrefs x = 0 → attOversion x' = 0 ∧ attOptr x' = 0 ∧ ∀ z ∈ t.cached, ¬ (z.adapter = a ∧ z.version = attVersion x)) ∧
          bitField x' 0 72 = bitField x 0 72 ∧ attTag x' = attTag x)))

/-- R48, R49, R326, R329 to R331, R333: a group instruction at the head of the group engine. On a JOINED slot it sends its contribution once, to every
member's package, and waits until every member's is held; announcements that disagree with rank 0's abort the group, and a member that has left its slot;
on any other slot it faults. The model's choices: a member's own disagreement is announced with op 1 and aborts the group with reason 4 (log 55), and the
contribution goes to the other packages at the head of the queue (log 106), each at the cost of the flits of 8 bytes for an element at one port (log
95). In its final phase GRED gives each element the tree over rank, rounded once, GBCAST the root's bits, and GGATH the elements of member after
member. -/
def Obligations.CollectiveResults : Prop :=
  ∀ (s : State) (e : QEntry) (k dd da hb : Nat) (op : ScanOp) (rm : Rm) (y : Sync) (f : Nat → XR) (u : Nat → Nat) (seq : Nat) (sent : Bool),
    let g := groupAt s.core k
    let d := descOf (e.descs.getD 0 0); let p := descOf (e.descs.getD 1 0)
    let i := e.progress
    let n := descN p
    let cs := s.contribs.filter fun c => c.key = g.key && c.seq = seq
    let from_ (q : Nat) : Option Contribution := cs.find? fun c => c.rank = q
    let root := (e.hvals.headD 0).toNat % 65536
    let isOne : Prop := e.instr = .gsync k y ∨ e.instr = .gred op k dd da rm y ∨ e.instr = .gbcast k dd da hb y ∨ e.instr = .ggath k dd da y
    let sends (c : Contribution) : Prop :=
      let flits := max 1 ((8 * max c.bits.length c.vals.length + 223) / 224)
      let t := (otherPackages s g).foldl (fun t p => chargeSend t (curCtx t).vd p flits) s
      runUnit s e = .ok ⟨{ t with
        contribs := s.contribs.filter (fun x => ¬ (x.key = c.key ∧ x.seq = c.seq ∧ x.rank = c.rank)) ++ [c],
        outbox := s.outbox ++ if ∀ m ∈ g.members, m = s.package then [] else [.contribute c] }, { e with part := .group seq true }, false⟩
    let told (kind op fmt root : Nat) (own : Bool) (int : Bool) (bits : List Nat) (vals : List (Bool × Nat × Nat)) : Contribution :=
      ⟨g.key, seq, g.rank, kind, if own then op else 1, n, fmt, root, int, bits, vals, true⟩
    let num : Nat := match op with | .sum => 0 | .max => 1 | .min => 2
    let agree (a b : Contribution) : Prop := a.kind = b.kind ∧ a.op = b.op ∧ a.n = b.n ∧ a.fmt = b.fmt ∧ a.root = b.root
    let apart : Prop := (∃ c ∈ cs, 2 ≤ c.kind ∧ c.op ≠ 0) ∨ ∃ z, from_ 0 = some z ∧ ∃ c ∈ cs, ¬ agree z c
    let left_ : Prop := ∃ c ∈ cs, c.kind = 4
    let all_ : Prop := ∀ q < g.size, ∃ c ∈ cs, c.rank = q ∧ c.sent = true
    2 ≤ e.descs.length → e.part = .group seq sent →
    (e.started = false → g.state = 2 → sent = false →
      (e.instr = .gred op k dd da rm y → (∀ j < n, valueIs s p j (f j)) →
        sends (told 1 num 0 0 true (intClass p) [] ((upFrom 0 n).map fun j => packReal (f j)))) ∧
      (e.instr = .gbcast k dd da hb y → g.rank = root → (∀ j < n, bitsAre s p j (u j)) →
        sends (told 2 0 p.fmt root (descN p = descN d ∧ p.fmt = d.fmt) false ((upFrom 0 n).map u) [])) ∧
      (e.instr = .ggath k dd da y → (∀ j < n, bitsAre s p j (u j)) → sends (told 3 0 p.fmt 0 (p.fmt = d.fmt) false ((upFrom 0 n).map u) []))) ∧
    (isOne → e.started = false → g.state = 2 → sent = true →
      (left_ → runUnit s e = .ok ⟨{ s with core := setGroup s.core k { g with state := 3, reason := 3 } }, e, false⟩) ∧
      (¬ left_ → apart → runUnit s e = .ok ⟨abortGroup s g.key 4 g.members, e, false⟩) ∧
      (¬ left_ → ¬ apart → all_ → runUnit s e = .ok ⟨s, { e with started := true }, false⟩) ∧
      (¬ left_ → ¬ apart → ¬ all_ → runUnit s e = .ok ⟨s, e, false⟩)) ∧
    (isOne → e.started = false → g.state ≠ 2 →
      runUnit s e = .error (.trap { cause := .groupAborted, esw := if g.state = 3 then g.reason else 5 })) ∧
    (e.started = true → e.instr = .gsync k y → runUnit s e = .ok ⟨s, e, true⟩) ∧
    (e.started = true → i < descN d → descScale d = none → canHold s d i →
      (∀ x : Nat → XR, (∀ q < g.size, ∃ c, from_ q = some c ∧ c.vals[i]? = some (packReal (x q)) ∧ ∀ b t r, x q = .fin b t r → r ≠ 0) →
        let pick (b : XR → XR → Bool) (x y : XR) : FV := (if xIsNan x || xIsNan y then .nan else if b x y then y else x, 0)
        let comb : XR → XR → FV := match op with | .sum => xAdd false | .max => pick xBelow | .min => pick fun x y => xBelow y x
        e.instr = .gred op k dd da rm y → 1 ≤ g.size →
        ∀ v, tree (combine (cs.all (·.integer)) comb) ((upFrom 0 g.size).map fun q => (x q, 0)) = some v → receives s e d i rm v (i + 1) (descN d) e.part) ∧
      (∀ c b, cs.find? (fun c => c.rank = c.root) = some c → c.bits[i]? = some b → e.instr = .gbcast k dd da hb y →
        receivesBits s e d i b 0 (i + 1) (descN d) e.part) ∧
      (∀ c b, from_ (i / n) = some c → c.bits[i % n]? = some b → e.instr = .ggath k dd da y → receivesBits s e d i b 0 (i + 1) (descN d) e.part))

/-- R310, R433 to R435, R438, R439, R441 to R445: the parts that a link instruction at the data engine sends, its results, and what DFLOW does to its
flow. The lowest unsent part takes the flow's next sequence number and goes as one message for each run of its remote elements that stand one behind
another, each charged as a flit, and is kept with its copy; where no credits, no balance or an earlier part that is held allows it, a write's part is held
by its port, and a part that returns bytes is not formed. On a FRAMED flow a row joins the open frame, which closes first when the row is of another batch
or has no room in it, and then when it is full; a frame that closes goes with its index vector before its rows. Bytes that have come back are written, and
the counter falls by the part. The numbering of flows, the form of the messages, the port taken and the flits are the model's (logs 28, 95, 101, 117), as
are that a write's copy goes to its port at once (log 100) and what a flow keeps after CLOSE and RESET (log 76). -/
def Obligations.LinkParts : Prop :=
  ∀ (s : State) (e : QEntry) (fl dd da db hb hd p : Nat) (y : Sync) (u v : Nat → Nat) (bs : List Byte),
    let f := flowAt s.core fl
    let parts := partsOf e
    let part (j : Nat) : Part := tabGet Part.fresh parts j
    let l := descOf (e.descs.getD 0 0); let m := descOf (e.descs.getD 1 0); let q := descOf (e.descs.getD 2 0)
    let h := (e.hvals.headD 0).toNat
    let w (x : Desc) := elemBytes (descFmt x)
    let vd := (curCtx s).vd
    let next_ (cnt : Nat) : Prop := (∀ c, e.part ≠ .abandoned c) ∧ p < cnt ∧ (∀ j < p, (part j).state = .performed) ∧ (part p).state = .unsent ∧
      (∀ j < cnt, p ≤ j → (part j).back = none) ∧ reachable s (flowPeer f) = true ∧ (flowParts s.core fl).length < 2 ^ 20
    let back_ (cnt : Nat) : Prop := (∀ c, e.part ≠ .abandoned c) ∧ p < cnt ∧ (∀ j < p, (part j).state = .performed) ∧ (part p).state ≠ .performed ∧
      (part p).back = some bs
    let clear (n : Nat) : Prop := heldBefore s.core fl f.seq = false ∧ maySend s vd f n = true
    let sends (n idx type : Nat) (copy : List Byte) (runs : List (Nat × Nat × List Byte)) : Prop :=
      let took (t : State) (st : PartState) (ms : List Message) : Prop :=
        runUnit s e = .ok ⟨{ t with core := setFlow s.core fl { f with seq := (f.seq + 1) % 2 ^ 24 }, outbox := s.outbox ++ ms },
          { e with progress := idx, part := .parts (tabSet Part.fresh parts p ⟨st, f.seq, copy, s.now, none⟩) }, false⟩
      let short : State := if heldBefore s.core fl f.seq = false ∧ credited s f n = true then shortPurse s 5 (sendingPort s (flowPeer f)) vd else s
      (clear n → took (chargeSend s vd (flowPeer f) runs.length) (.sent 0 0) (((upFrom 0 runs.length).zip runs).map fun r =>
        .part (flowPeer f) s.package s.core.ctx fl f.seq type r.2.1 (r.1 + (runs.length - 1) * 2 ^ 16 + s.core.jobRank * 2 ^ 32 + r.2.2.1 * 2 ^ 64) r.2.2.2)) ∧
      (¬ clear n → (type = 0 → took short (.refused s.now 0) []) ∧ (type ≠ 0 → runUnit s e = .ok ⟨short, { e with progress := idx }, false⟩))
    let holds (x : Desc) (a n : Nat) (u : Nat → Nat) : Prop := ∀ k < n, bitsAre s x (a + k) (u (a + k))
    let bytes (x : Desc) (a n : Nat) (u : Nat → Nat) : List Byte := (upFrom a n).flatMap fun k => natLe (w x) (u k)
    let spot (x : Desc) (k : Nat) := (elemAt x k).1.toNat
    let runsOf (x : Desc) (z a n : Nat) (rs : List (Nat × Nat)) : Prop :=
      (rs.flatMap fun r => upFrom r.1 r.2) = upFrom a n ∧ (∀ r ∈ rs, 0 < r.2 ∧ ∀ k < r.2, spot x (r.1 + k) = spot x r.1 + k * z) ∧
      ∀ pre r r' post, rs = pre ++ r :: r' :: post → spot x r'.1 ≠ spot x r.1 + r.2 * z
    let lowered (n : Nat) (c : Core) : Core := if flowPbe f then setPb c (flowPbk f) (pbAt c (flowPbk f) - n) else c
    (e.instr = .dput fl dd da db y → l.type = 5 → e.descs.length = 2 →
      let per := 224 / w m
      let n := min per (e.count - p * per)
      ∀ rs, next_ (ceilDiv e.count per) → holds m (p * per) n u → runsOf l (w m) (p * per) n rs → 1 ≤ n →
        sends (n * w m) (p * per) 0 (bytes m (p * per) n u) (rs.map fun r => (spot l r.1, 0, bytes m r.1 r.2 u))) ∧
    (e.instr = .dput fl dd da db y → l.type = 5 → e.descs.length = 3 →
      let per := 224 / w m
      let c := descCount m
      let size := c * w m
      let of := ceilDiv size 224
      let row := p / of
      let piece (j : Nat) := bytes m (row * c + j * per) (min per (c - j * per)) u
      ∀ x, next_ (e.count * of) → valueIs s q row x → holds m (row * c) c u →
        let slot := truncBits (indexVal (x, 0)) 32
        (flowKind f ≠ 1 → sends (min per (c - p % of * per) * w m) row 0 (natLe 4 slot ++ piece (p % of))
          [(descBase l, 1 + slot * 2 + p % of * 2 ^ 33 + size * 2 ^ 65, piece (p % of))]) ∧
        (flowKind f = 1 → p % of = 0 →
          let rows := flowRows f
          let full := framedBytes s.core fl + size
          let e1 := { e with progress := row }
          let closes (s1 : State) (e1 : QEntry) : Prop :=
            let t := closeFrame (setEntry s1 .data e1) fl
            runUnit s e = .ok ⟨t, entryNow t e1, false⟩
          let other : Prop := rows ≠ 0 ∧ (f.hdr ≠ descBase l ∨ 120 ≤ rows ∨ 15360 < full)
          (other → closes s e1) ∧
          (¬ other →
            let f' := { f with fsts := BitVec.ofNat 64 (setField f.fsts.toNat 40 7 (rows + 1)), hdr := descBase l, since := if rows = 0 then s.now else f.since }
            let s1 := { s with core := setFlow s.core fl f' }
            let e2 := { e1 with part := .parts ((upFrom 0 of).foldl (fun t j =>
              tabSet Part.fresh t (p + j) { Part.fresh with state := .framed, copy := natLe 4 slot ++ piece j }) parts) }
            (rows + 1 ≠ 120 → full ≠ 15360 → runUnit s e = .ok ⟨s1, e2, false⟩) ∧ (rows + 1 = 120 ∨ full = 15360 → closes s1 e2)))) ∧
    (let t := closeFrame s fl
     (flowRows f = 0 → t = s) ∧
     (flowRows f ≠ 0 → tabWf Flow.idle s.core.flows = true → flowRows (flowAt t.core fl) = 0 ∧ (∃ ms : List Message, t.outbox = s.outbox ++
         .frame (flowPeer f) s.core.ctx s.core.jobRank fl f.hdr ((framedSlots fl s.core.qdata ++ List.replicate 120 0).take 120) :: ms ∧
         ∀ x ∈ ms, ∃ seq type va arg b, x = .part (flowPeer f) s.package s.core.ctx fl seq type va arg b) ∧
       ∀ x ∈ t.core.qdata, linkFlow x.instr = some fl → ∀ j < partCount x, (partAt (partsOf x) j).state ≠ .framed)) ∧
    (e.instr = .dget fl dd da y → m.type = 5 →
      let per := 224 / w l
      let a := p * per
      let n := min per (e.count - a)
      (∀ rs, next_ (ceilDiv e.count per) → runsOf m (w l) a n rs → 1 ≤ n → sends (n * w l) a 1 [] (rs.map fun r => (spot m r.1, r.2 * w l, []))) ∧
      (back_ (ceilDiv e.count per) → (∀ k < n, canHold s l (a + k)) →
        let t := (upFrom 0 n).foldl (fun s k => withElem s l (a + k) (leNat ((bs.drop (k * w l)).take (w l)))) s
        runUnit s e = .ok ⟨{ t with core := lowered (n * w l) t.core },
          { e with progress := a, part := .parts (tabSet Part.fresh parts p { part p with state := .performed, back := none, copy := [] }) }, false⟩)) ∧
    (m.type = 5 → next_ e.count → bitsAre s q p (u p) →
      (e.instr = .dfadd fl dd da db y → sends (w l) p 3 (natLe (w q) (u p)) [(spot m p, w l, natLe (w q) (u p))]) ∧
      (e.instr = .dfcas fl dd da db y → bitsAre s l p (v p) →
        sends (w l) p 3 (natLe (w q) (u p) ++ natLe (w l) (v p)) [(spot m p, w l + 256, natLe (w q) (u p) ++ natLe (w l) (v p))])) ∧
    (e.instr = .dfadd fl dd da db y ∨ e.instr = .dfcas fl dd da db y → back_ e.count → canHold s l p →
      let t := withElem s l p (leNat (bs.take (w l)))
      runUnit s e = .ok ⟨{ t with core := lowered (w l) t.core },
        { e with progress := p, part := .parts (tabSet Part.fresh parts p { part p with state := .performed, back := none, copy := [] }) }, false⟩) ∧
    (e.instr = .dfencef fl da hb y → l.type = 5 → p = 0 → next_ 1 → e.stall = none →
      (writesBefore s.core fl e.seq = true → runUnit s e = .ok ⟨closeFrame s fl, { e with stall := some (s.now, 0) }, false⟩) ∧
      (writesBefore s.core fl e.seq = false → sends 8 0 0 (natLe 8 h) [(spot l 0, 0, natLe 8 h)])) ∧
    (e.instr = .dput fl dd da db y ∨ e.instr = .dget fl dd da y ∨ e.instr = .dfadd fl dd da db y ∨ e.instr = .dfcas fl dd da db y → ∀ c, e.part = .abandoned c →
      runUnit s e = .error (.trap { cause := c })) ∧
    (e.instr = .dfadd fl dd da db y ∨ e.instr = .dfcas fl dd da db y → (∀ c, e.part ≠ .abandoned c) → (∀ j < e.count, (part j).state = .performed) →
      runUnit s e = .ok ⟨s, e, true⟩) ∧
    ((s.core.qdata.headD e).seq = e.seq →
      let leaves (g : Flow) (what arg : Nat) : Prop :=
        let t := { chargeSend { s with core := setFlow s.core fl g } vd (flowPeer g) 1 with
          outbox := s.outbox ++ [.flow (flowPeer g) s.core.ctx s.core.jobRank fl what arg] }
        runUnit s e = .ok ⟨writeNat t hd (setField g.fsts.toNat 16 24 g.seq), e, true⟩
      let stays : Prop := runUnit s e = .ok ⟨writeNat s hd (setField f.fsts.toNat 16 24 f.seq), e, true⟩
      let bad : Prop := runUnit s e = .error (.trap { cause := .flowError })
      tabWf Flow.idle s.core.flows = true →
      (e.instr = .dflowOpen fl hd da y → (flowState f ≠ 0 → bad) ∧
        (flowState f = 0 → leaves ⟨e.hvals.headD 0, 1, 0, 0, 0⟩ 0 (if (e.hvals.headD 0).getLsbD 12 then 1 else 0))) ∧
      (e.instr = .dflowClose fl hd da y → (flowState f = 0 → stays) ∧ (flowState f = 1 → leaves { f with fsts := 0 } 1 0) ∧ (2 ≤ flowState f → bad)) ∧
      (e.instr = .dflowReset fl hd da y → (flowState f = 0 → stays) ∧ (flowState f = 1 → leaves { f with fsts := 0, hdr := 0, since := 0 } 2 0) ∧
        (2 ≤ flowState f → leaves { f with fsts := 0, seq := 0, hdr := 0, since := 0 } 2 0)) ∧
      (e.instr = .dflowStat fl hd da y → stays))

/-- R165, R308: an engine instruction that completes leaves its queue and adds 1 to the semaphore of its give, once; without a give no semaphore
changes. A stream that waits for its result goes on behind it.

R161, R278, R313: a queued update takes effect only at the head of its engine's queue, and behind no group instruction of its stream; then the
semaphore, the ring or the tile changes as it would have in the C stream. -/
def Obligations.CompletionGives : Prop :=
  (∀ (s : State) (eng : EngineName) (e : QEntry),
    let t := completeEntry s eng e
    let y := syncOf e.instr
    queueOf t.core eng = (queueOf s.core eng).filter (fun x => x.seq ≠ e.seq) ∧
    (∀ x, x ≠ eng → queueOf t.core x = queueOf s.core x) ∧
    (∀ k, (y.bind (·.give)) = some k → t.core.sems = tabSet 0 s.core.sems k (tabGet 0 s.core.sems k + 1)) ∧
    ((y.bind (·.give)) = none → t.core.sems = s.core.sems) ∧
    t.core.spad = s.core.spad ∧ t.mem = s.mem ∧ t.vaults = s.vaults ∧ (∀ st, streamOf t.core st = streamOf s.core st) ∧
    (∀ p, (curStream s).pending = some p → p.on = .result e.seq → resumeHeld s e = advanceBy s 8) ∧
    ((curStream s).pending = none → resumeHeld s e = s)) ∧
  (∀ (s : State) (e : QEntry) (k a n : Nat) (i : Int),
    let eng : EngineName := match e.stream with | .v => .vector | .x => .matrix | _ => .data
    let v := e.hvals.headD 0
    let alone : Prop := (∀ x, (queueOf s.core eng).head? = some x → x.seq = e.seq) ∧ ∀ x ∈ s.core.qgrp, x.stream = e.stream → e.seq < x.seq
    (¬ alone → ∀ ins ∈ [Instr.semadd k a i, .semset k a i, .rcommit k a n, .rrelease k a n, .trel a, .tseal a], e.instr = ins →
      ∃ u, runUnit s e = .ok u ∧ u.s = s ∧ u.e = e ∧ u.done = false) ∧
    (alone →
      (e.instr = .semadd k a i → ∃ u, runUnit s e = .ok u ∧ u.done = true ∧
        u.s = { s with core := { s.core with sems := tabSet 0 s.core.sems k (tabGet 0 s.core.sems k + v.setWidth 32) } }) ∧
      (e.instr = .semset k a i → ∃ u, runUnit s e = .ok u ∧ u.done = true ∧
        u.s = { s with core := { s.core with sems := tabSet 0 s.core.sems k (v.setWidth 32) } }) ∧
      (∀ c, passSlots s.core k v.toNat true = .ok c → e.instr = .rcommit k a n → ∃ u, runUnit s e = .ok u ∧ u.done = true ∧ u.s = { s with core := c }) ∧
      (∀ c, passSlots s.core k v.toNat false = .ok c → e.instr = .rrelease k a n → ∃ u, runUnit s e = .ok u ∧ u.done = true ∧ u.s = { s with core := c }) ∧
      (∀ t, releaseTile s (v.toNat % 2 ^ 32) = .ok t → e.instr = .trel a → ∃ u, runUnit s e = .ok u ∧ u.done = true ∧ u.s = t) ∧
      (∀ t, sealHeld s (v.toNat % 2 ^ 32) = .ok t → e.instr = .tseal a → ∃ u, runUnit s e = .ok u ∧ u.done = true ∧ u.s = t)))

/-! ### Tiles -/

/-- R263 to R265, R275, R281, R282: TDEF allocates the lowest-numbered FREE entry that is not retired, under its next generation; TFREE returns an
entry; TQRY reads an entry, and 0 for a handle that names none.

R279, R280: TSPLIT cuts a tile that the core holds WRITE into P parts along a dimension, each of which it holds WRITE under a handle of its own in
the quad gd; TJOIN makes one tile of parts that follow each other. -/
def Obligations.TileResults : Prop :=
  (∀ (s : State) (d k a i : Nat) (t : Tile),
    let c := ctxAt s s.core.ctx
    let x := descOf (tabGet 0 s.core.descs k)
    let h := (readReg s a).toNat % 2 ^ 32
    let me : Holder := ⟨s.core.job.getD 0, s.core.jobRank⟩
    let new : Tile := { base := x.base, elem := elemBytes (descFmt x), exts := x.exts, strides := x.strides, state := .none, readers := [], writer := none }
    let b := boxBounds new.base new.elem new.exts new.strides
    let free (j : Nat) : Prop := tabGet none c.tiles j = none ∧ tabGet 0 c.gens j ≠ 0xFFFFF
    (checkDesc x [3] (fun _ => true) = none → fmtPacked (descFmt x) = false → descCount x ≠ 0 → x.sfmt = 0 → x.amv = false → 0 ≤ b.1 → b.2 ≤ 2 ^ 55 →
      i < 4096 → free i → (∀ j < i, ¬ free j) →
      exec (.tdef d k) s = .next (advance (writeNat (setCtx s s.core.ctx
        { c with tiles := tabSet none c.tiles i (some new), gens := tabSet 0 c.gens i (tabGet 0 c.gens i + 1) }) d
        (i + tabGet 0 (tabSet 0 c.gens i (tabGet 0 c.gens i + 1)) i * 4096)))) ∧
    (handleNames s h i t → t.state ≠ .read → (t.state = .write → t.writer = some me) → (t.state = .sealed → t.readers = []) →
      exec (.tfree a) s = .next (advance (setCtx s s.core.ctx
        { c with tiles := tabSet none c.tiles i none, requests := c.requests.filter fun r => r.handle % 4096 ≠ i }))) ∧
    (handleNames s h i t →
      (∀ p ∈ [(TqrySel.base, t.base), (.ext01, t.exts.getD 0 1 + t.exts.getD 1 1 * 2 ^ 16 + t.elem * 2 ^ 32),
          (.ext23, t.exts.getD 2 1 + t.exts.getD 3 1 * 2 ^ 16),
          (.state, (match t.state with | .none => 0 | .read => 1 | .write => 2 | .sealed => 3) + (if holdsTile t me then 4 else 0) +
            (if t.state = .write then 1 else t.readers.length) % 65536 * 2 ^ 8 +
            min 255 (c.requests.filter fun r => r.handle % 4096 = i).length * 2 ^ 24)],
        exec (.tqry p.1 d a) s = .next (advance (writeNat s d (2 ^ 63 + p.2))))) ∧
    (h / 4096 % 2 ^ 20 = 0 ∨ tabGet none c.tiles (h % 4096) = none ∨ tabGet 0 c.gens (h % 4096) ≠ h / 4096 % 2 ^ 20 →
      ∀ sel ∈ [TqrySel.state, .base, .ext01, .ext23], exec (.tqry sel d a) s = .next (advance (writeNat s d 0))) ∧
    exec (.tqry .held d a) s = .next (advance (writeNat s d (2 ^ 63 +
      (c.tiles.filter fun p => match p.2 with | none => false | some u => holdsTile u me).length)))) ∧
  (∀ (s : State) (d a b i dim p : Nat) (t : Tile) (ps : List (Nat × Tile)) (c' : Context) (hs : List Nat) (h' : Nat),
    let c := ctxAt s s.core.ctx
    let me : Holder := ⟨s.core.job.getD 0, s.core.jobRank⟩
    let x := t.exts.getD dim 1
    let q := (x + p - 1) / p
    let part (j : Nat) : Tile := { t with base := ((t.base : Int) + (j * q : Nat) * t.strides.getD dim 0).toNat,
                                          exts := t.exts.set dim (min q (x - j * q)), state := .write, readers := [], writer := some me }
    let handle (j : Nat) : Nat := (readReg s (a + j / 2)).toNat / 2 ^ (32 * (j % 2)) % 2 ^ 32
    let drop (c : Context) (i : Nat) : Context :=
      { c with tiles := tabSet none c.tiles i none, requests := c.requests.filter fun r => r.handle % 4096 ≠ i }
    (readReg s b).toNat = dim + 16 * p → dim < 4 → 2 ≤ p → p ≤ 8 →
    (handleNames s ((readReg s a).toNat % 2 ^ 32) i t → t.state = .write → t.writer = some me → (p - 1) * q < x → tenuresHeld c me + p ≤ 65 →
      p ≤ freeEntries (drop c i) p (List.range 4096) → allocTiles (drop c i) ((List.range p).map part) = (c', hs) → 1 ≤ tenuresHeld c me →
      exec (.tsplit d a b) s = .next (advance (writeQuad (setCtx s s.core.ctx c') d hs))) ∧
    (ps.length = p → (∀ j < p, ∀ e, ps[j]? = some e → handleNames s (handle j) e.1 e.2 ∧ e.2.state = .write ∧ e.2.writer = some me) →
      (ps.map (·.1)).Nodup → (∀ e ∈ ps, e.2.elem = (ps.headD default).2.elem ∧ e.2.strides = (ps.headD default).2.strides ∧
        e.2.exts.set dim 0 = (ps.headD default).2.exts.set dim 0) →
      (∀ j e f, ps[j]? = some e → ps[j + 1]? = some f → (f.2.base : Int) = e.2.base + e.2.exts.getD dim 1 * e.2.strides.getD dim 0) →
      (let total := ps.foldl (fun n e => n + e.2.exts.getD dim 1) 0
       let one := (ps.headD default).2
       let joined : Tile := ⟨one.base, one.elem, one.exts.set dim total, one.strides, .write, [], some me⟩
       total ≤ 65535 → allocTile (ps.foldl (fun c e => drop c e.1) c) joined = some (c', h') →
       exec (.tjoin d a b) s = .next (advance (writeNat (setCtx s s.core.ctx c') d h')))))

/-- R268 to R273, R276, R278: a TACQ whose pages pass and whose tile meets no tenure, seal or earlier request in its way takes the tenure at once; a
TRY form answers 0 then and 1 otherwise; another TACQ enters the arrival order and waits. In the C stream TREL and TSEAL move the tile that the core
holds, and fault TILE_NOT_HELD on another.

R269, R272: no tenure is granted over another's: a write is granted only when no tile that meets this one is held by another core or sealed with
readers, and a read only when none is held WRITE by another; a read of a free tile adds the reader, a write makes the core the writer. That a request takes effect
at its step, and that the order holds back only requests of another core, are the model's (logs 7, 73). -/
def Obligations.TenureResults : Prop :=
  (∀ (s : State) (d a i : Nat) (t : Tile) (u : State),
    let h := (readReg s a).toNat % 2 ^ 32
    let me : Holder := ⟨s.core.job.getD 0, s.core.jobRank⟩
    let c (u : State) := ctxAt u u.core.ctx
    let take (w : Bool) : State := setCtx u u.core.ctx (grantTenure (c u) i t ⟨u.core.job.getD 0, u.core.jobRank⟩ w)
    let may (w : Bool) : Prop := grantable (c u) i t ⟨u.core.job.getD 0, u.core.jobRank⟩ w (c u).requests = true
    (∀ p ∈ [(Instr.tacqR a, Instr.tacqRTry d a, false), (.tacqW a, .tacqWTry d a, true)], acquireChecks s h p.2.2 = .ok (u, i, t) →
      (may p.2.2 → exec p.1 s = .next (advance (take p.2.2)) ∧ exec p.2.1 s = .next (advance (writeNat (take p.2.2) d 0))) ∧
      (¬ may p.2.2 → exec p.2.1 s = .next (advance (writeNat u d 1)) ∧
        exec p.1 s = .next (waitOn (setCtx u u.core.ctx { c u with
          requests := (c u).requests ++ [⟨(c u).nextReq, u.focus, u.cur, ⟨u.core.job.getD 0, u.core.jobRank⟩, h, p.2.2⟩],
          nextReq := (c u).nextReq + 1 }) (.tenure (c u).nextReq)))) ∧
    (s.cur = .c → handleNames s h i t →
      (t.state = .write → t.writer = some me →
        exec (.trel a) s = .next (advance (putTile s i (some { t with state := .none, writer := none }))) ∧
        (∀ x ∈ [Instr.tseal a, .tsealDet a], (x = .tsealDet a → sealReady s h s.core.issued = true) →
          exec x s = .next (advance (putTile s i (some { t with state := .sealed, writer := none, readers := [] }))))) ∧
      (t.state = .read → me ∈ t.readers → let r := t.readers.filter (· ≠ me)
        exec (.trel a) s = .next (advance (putTile s i (some { t with readers := r, state := if r = [] then .none else .read })))) ∧
      (t.state = .sealed → me ∈ t.readers →
        exec (.trel a) s = .next (advance (putTile s i (some { t with readers := t.readers.filter (· ≠ me) })))) ∧
      (me ∉ t.readers → t.writer ≠ some me → trapsWith (.trel a) s .tileNotHeld) ∧
      (t.state ≠ .write ∨ t.writer ≠ some me → trapsWith (.tseal a) s .tileNotHeld))) ∧
  (∀ (c : Context) (i j : Nat) (t u : Tile) (h : Holder) (w : Bool) (rs : List TenureReq),
    tabSorted c.tiles = true → tabGet none c.tiles i = some t → grantable c i t h w rs = true →
    ((j, some u) ∈ c.tiles → j = i ∨ tilesOverlap t u = true →
      (u.state = .write → u.writer = some h) ∧ (w = true → u.state = .read → ∀ x ∈ u.readers, x = h) ∧ (w = true → u.state = .sealed → u.readers = [])) ∧
    (∀ r ∈ rs, ∀ v, tabGet none c.tiles (r.handle % 4096) = some v → r.handle % 4096 = i ∨ tilesOverlap t v = true →
      r.holder = h ∨ (r.write = false ∧ w = false)) ∧
    (∃ v, tabGet none (grantTenure c i t h w).tiles i = some v ∧ (w = true → v.state = .write ∧ v.writer = some h ∧ v.readers = []) ∧
      (w = false → v.readers = t.readers ++ [h] ∧ (t.state ≠ .sealed → v.state = .read) ∧ (t.state = .sealed → v.state = .sealed))))

/-! ### Groups, queues and pages -/

/-- R325, R326, R328: a GJOIN that is not refused makes its slot JOINING with the record's fields, sends the join, and waits; a refused one faults with
its reason. GLEAVE of a slot whose group instructions have completed frees it, and waits before. That the join goes as a message to every other package of
the record (log 106), and that the first of several reasons refuses (log 23), are the model's choices. -/
def Obligations.MembershipResults : Prop :=
  ∀ (s : State) (a k : Nat),
    (∀ (t : State) (r : GroupRec), loadRecord s (readReg s a) = .ok (t, r) →
      (refusal t k r = none → tabSorted t.core.groups = true →
        (recRank r ≠ 0 ∨ ∀ i ∈ t.joins, i.key = recKey r → sameRecord i (joinOf t k r) = true) →
        ∃ u, exec (.gjoin a k) s = .next (waitOn u (.group k)) ∧
          (groupAt u.core k).state = 1 ∧ (groupAt u.core k).key = recKey r ∧ (groupAt u.core k).rank = recRank r ∧
          (groupAt u.core k).size = recSize r ∧ (groupAt u.core k).staging = recStage r ∧ u.joins = t.joins ++ [joinOf t k r] ∧
          u.outbox = t.outbox ++ (r.members.filter (· ≠ t.package)).eraseDups.map (fun p => .join p { joinOf t k r with place := none }) ∧
          (∀ i, i ≠ k → groupAt u.core i = groupAt t.core i)) ∧
      (∀ n, refusal t k r = some n →
        exec (.gjoin a k) s = .next (trapCur (abortGroup t (recKey r) 7 r.members) { cause := .groupMemberRefused, esw := n }))) ∧
    (tabSorted s.core.groups = true → (∀ e ∈ s.core.qgrp, slotOf e.instr = some k → e.stopped = true) → ∃ t, exec (.gleave k) s = .next (advance t) ∧
      groupAt t.core k = GroupSlot.free ∧ (∀ i, i ≠ k → groupAt t.core i = groupAt s.core i) ∧ (∀ st, streamOf t.core st = streamOf s.core st) ∧
      t.mem = s.mem) ∧
    ((∃ e ∈ s.core.qgrp, slotOf e.instr = some k ∧ e.stopped = false) → waitsFor (.gleave k) s (.leave k))

/-- R351, R352: LAUNCH appends its record to a ring that devices may fill, with VDN set, and gives the index of its slot; into a full ring LAUNCH faults
QUEUE_FULL and LAUNCH.TRY gives bit 63; QSTAT reads the queue's registers. The record is written at the step (log 7). -/
def Obligations.LaunchResults : Prop :=
  ∀ (s t u : State) (d a b : Nat) (bs : List Byte) (acc : Accessor),
    let v := (ctxAt s s.core.ctx).vd
    let q := (readReg s b).toNat % 8
    let x := queueAt s v q
    let waiting := (x.tail + 2 ^ 32 - progSeen x) % 2 ^ 32
    let size := 2 ^ (x.qctl.toNat % 32)
    let forms := [Instr.launch d a b, .launchTry d a b]
    (x.qctl.getLsbD 5 = false ∨ x.qctl.getLsbD 6 = false → ∀ i ∈ forms, trapsWith i s .launchBad) ∧
    (x.qctl.getLsbD 5 = true → x.qctl.getLsbD 6 = true →
      (size ≤ waiting → trapsWith (.launch d a b) s .queueFull ∧ exec (.launchTry d a b) s = .next (advance (writeReg s d (1 <<< 63)))) ∧
      (waiting < size → scalarLoad s (readReg s a) 64 = .ok (t, bs) → ringAccessor t v q = some acc →
        memStore t acc ((queueAt t v q).qbase.toNat + 64 * ((queueAt t v q).tail % 2 ^ qlog (queueAt t v q)))
          (bs.take 0x28 ++ natLe 2 v ++ bs.drop 0x2A) = .ok u →
        ∀ i ∈ forms, exec i s = .next (advance (writeNat
          (setQueue u v q { queueAt u v q with tail := ((queueAt u v q).tail + 1) % 2 ^ 32 }) d x.tail)))) ∧
    (let z := queueAt s v ((readReg s a).toNat % 8)
     exec (.qstat .tail d a) s = .next (advance (writeNat s d z.tail)) ∧
     exec (.qstat .prog d a) s = .next (advance (writeNat s d (progSeen z + if z.stale then 2 ^ 32 else 0))) ∧
     exec (.qstat .done d a) s = .next (advance (writeNat s d (doneSeen z))) ∧
     exec (.qstat .state d a) s = .next (advance (writeNat s d (z.qctl.toNat % 128 + qstsSeen z % 16 * 2 ^ 7))))

/-- R405, R423: TLBINV at level P removes exactly the translations of its pages from the executing context; every other page of every context keeps
its own.

R411, R424: PMIG at level P answers 3 for a page it cannot move, 2 for one that moves already, 0 for one that stands where it is wanted and 1 when
the pool has no frame; otherwise it starts the migration or the request, and waits. That a range of length 0 faults on no address, and that the removal
takes effect at its step, are the model's (logs 7, 47). -/
def Obligations.TlbResults : Prop :=
  (∀ (s : State) (a b : Nat),
    s.cur = .c → s.core.tstat.getLsbD 0 = true →
    let c := ctxAt s s.core.ctx
    let lo := (readReg s a).toNat
    let n := (readReg s b).toNat
    let meets (size q : Nat) : Prop := 0 < n ∧ q * size < lo + n ∧ lo < (q + 1) * size
    let leaves (i : Instr) (small large : Nat → Prop) : Prop := ∃ tlb, exec i s = .next (advance (setCtx s s.core.ctx { c with tlb := tlb })) ∧
      ∀ q, let gone : Prop := small q ∨ ∃ e, tabGet none c.tlb q = some e ∧ e.large = true ∧ large (q / 8192)
        (gone → tabGet none tlb q = none) ∧ (¬ gone → tabGet none tlb q = tabGet none c.tlb q)
    tabSorted c.tlb = true →
    leaves (.tlbinvPage a) (fun q => q = lo / 65536) (fun q => q = lo / 65536 / 8192) ∧
    (n = 0 ∨ lo + n ≤ 2 ^ 55 → leaves (.tlbinvRange a b) (meets 65536) (meets (2 ^ 29))) ∧
    (n ≠ 0 → 2 ^ 55 < lo + n → exec (.tlbinvRange a b) s = .next (trapCur s { cause := .noMapping, va := lo })) ∧
    exec .tlbinvCtx s = .next (advance (setCtx s s.core.ctx { c with tlb := [] }))) ∧
  (∀ (s : State) (d a : Nat) (op : PmigOp) (l : Leaf),
    s.cur = .c → s.core.tstat.getLsbD 0 = true →
    let va := (readReg s a).toNat
    let e := l.entry
    let absent := bitAt e 8
    let tier := if op = .toHbm then 0 else 1
    let there : Prop := if op = .evict then absent = true else absent = false ∧ bitField e 9 1 = tier
    let pool := if tier = 0 then (vdAt s (ctxAt s s.core.ctx).vd).hbmPool else (vdAt s (ctxAt s s.core.ctx).vd).cxlPool
    let answers (n : Nat) : Prop := exec (.pmig op d a) s = .next (advance (writeNat s d n))
    (∀ x, walk s s.core.ctx va = .ok l → leafWorld s s.core.ctx va l = .ok () → leafFrame s s.core.ctx va l = .error x →
      exec (.pmig op d a) s = .next (settle s (.error x))) ∧
    (walk s s.core.ctx va = .ok l → leafWorld s s.core.ctx va l = .ok () → leafFrame s s.core.ctx va l = .ok () →
    (l.large = true ∨ bitField e 2 2 = 3 → answers 3) ∧
    (l.large = false → bitField e 2 2 ≠ 3 →
      (bitAt e 12 = true → answers 2) ∧
      (bitAt e 12 = false →
        (there → answers 0) ∧
        (¬ there → op ≠ .evict → absent = false → pool = [] → answers 1) ∧
        (¬ there → op = .evict → exec (.pmig op d a) s = .next (waitOn (startMigration s s.core.ctx va l none) (.page va))) ∧
        (¬ there → op ≠ .evict → absent = true →
          exec (.pmig op d a) s = .next (waitOn (postPageRequest s s.core.ctx va l (some tier)) (.page va))) ∧
        (∀ f t, ¬ there → op ≠ .evict → absent = false → takeFrame s (ctxAt s s.core.ctx).vd tier = some (t, f) →
          exec (.pmig op d a) s = .next (waitOn (startMigration t s.core.ctx va l (some f)) (.page va)))))))

/-! ### Control and status registers, traps and returns -/

/-- R43, R44, R319, R372, R373, R376: a CSR instruction gives the register's old value; CSRW, CSRS and CSRC give the writable fields the new value, the
old OR the operand, or the old AND its complement, unless the map refuses it; the fields of VSTAT clear where CSRW or CSRC has a 1. Nothing else of the
register changes. That CSRS and CSRC form the whole new word, which the map then judges field by field, is the model's reading (log 58). -/
def Obligations.CsrResults : Prop :=
  ∀ (s : State) (d a n : Nat),
    csrOk n = true → (csrPriv n = true → s.cur = .c ∧ s.core.tstat.getLsbD 0 = true) → tabSorted s.ctxs = true →
    let old := csrRead s n
    let v := readReg s a
    exec (.csrr d n) s = .next (advance (writeReg s d old)) ∧
    (∀ p ∈ [(Instr.csrw d a n, v, true), (.csrs d a n, old ||| v, false), (.csrc d a n, old &&& ~~~v, true)],
      ∃ t, exec p.1 s = .next (advance (writeReg t d old)) ∧ (∀ st, streamOf t.core st = streamOf s.core st) ∧ t.mem = s.mem ∧
        (∀ m, m ≠ n → csrRead t m = csrRead s m) ∧
        (n = 0 → csrRead t n = if p.2.2 then old &&& ~~~(v &&& 0xFF) else old) ∧
        (n = 1 → csrRead t n = if 6 ≤ p.2.1.toNat % 8 then old &&& ~~~0xF8 ||| p.2.1 &&& 0xF8 else old &&& ~~~0xFF ||| p.2.1 &&& 0xFF) ∧
        (n ≠ 0 → n ≠ 1 → let f := csrField n p.2.1
          (f.2 → (n = 0x100 ∨ n = 0x101 → old &&& ~~~f.1 = 0) → csrRead t n = old &&& ~~~f.1 ||| p.2.1 &&& f.1) ∧ (¬ f.2 → csrRead t n = old)))

/-- R354, R372, R378, R423, R424: at level U the instructions and the CSRs of level P fault PRIVILEGED. -/
def Obligations.PrivilegeFaults : Prop :=
  ∀ (s : State) (d a b n : Nat) (op : PmigOp),
    s.cur ≠ .c ∨ s.core.tstat.getLsbD 0 = false →
    (∀ i ∈ [Instr.rte, .tlbinvPage a, .tlbinvRange a b, .tlbinvCtx, .pmig op d a], trapsWith i s .privileged) ∧
    (csrOk n = true → csrPriv n = true → ∀ i ∈ [Instr.csrr d n, .csrw d a n, .csrs d a n, .csrc d a n], trapsWith i s .privileged) ∧
    (csrOk n = false → ∀ i ∈ [Instr.csrr d n, .csrw d a n, .csrs d a n, .csrc d a n], trapsWith i s .reservedField)

/-- R356: taking a trap writes the stream's record, with the cause, the PC, the words, the status word, the progress, the address and the stacks as they
stand, and puts the stream in TRAPPED before the trap is served. -/
def Obligations.TrapRecords : Prop :=
  ∀ (s u : State) (w : TrapAt) (t : TrapInfo),
    let c := coreAt s w.core
    let x := streamOf c w.st
    let r : TrapRecord := { cause := causeCode t.cause, engine := w.engine, async := w.async, level := decide (w.st = .c) && c.tstat.getLsbD 0,
                            valid := true, mett := decide (x.state = .met), pc := w.pc, words := w.words, esw := BitVec.ofNat 64 t.esw,
                            progress := t.progress, va := BitVec.ofNat 64 t.va, loops := x.loops, rets := x.rets, debug := false }
    t.hw = [] → x.pending = none →
    (writeRecord s w.core w.st r (some r.cause) = .ok u → tabSorted u.others = true → ∃ v, raiseTrap s w t = serveTrap v w.core w.st r w.resume ∧
      (streamOf (coreAt v w.core) w.st).state = .trapped ∧ (streamOf (coreAt v w.core) w.st).record = r ∧
      (streamOf (coreAt v w.core) w.st).pc = (streamOf (coreAt u w.core) w.st).pc ∧ (streamOf (coreAt v w.core) w.st).regs = (streamOf (coreAt u w.core) w.st).regs ∧
      v.mem = u.mem ∧ v.jobs = u.jobs) ∧
    (writeRecord s w.core w.st r (some r.cause) = .error u → ∀ n, (coreAt u w.core).job = some n → raiseTrap s w t = killJob u n r.cause)

/-- R359 to R361: a delegated trap of the C stream at level U enters the handler: TEPC holds where the stream resumes, INH is 1, the stacks are empty
and the PC is TVEC; an engine stream that waits for a fence, for its ring claims, for the reclaim of the array or for the result of its AQRY, APUB or
DFLOW, which leaves its queue, issues that instruction again (R81, R165, R258). That of an engine stream sets its PEND bit. One of class D that the
context's debugger serves raises WAITING. A trap that no handler serves, one at level P, and one of class K kill the job; the faults that its other
streams hold for their boundaries meet it: their records are written, and the cause is that of the first stream in the order C, D, V, X that kills
(log 99, the model's choice of what meets). WINCTL.CTX names the context that the debugger serves (log 20). -/
def Obligations.TrapsServed : Prop :=
  ∀ (s : State) (k n : Nat) (st q : StreamName) (r y : TrapRecord) (p : Pending) (resume : Word),
    let c := coreAt s k
    let x := ctxAt s c.ctx
    let debug (cause : Nat) : Prop := causeClass cause = .debug ∧ (vdAt s x.vd).dbgctl.getLsbD 0 = true ∧ userDebug s c.ctx = true
    let may (cause : Nat) : Prop := delegated x cause = true ∧ x.tvec ≠ 0 ∧ c.c.state ≠ .met
    let kills (r : TrapRecord) : Prop := causeClass r.cause = .killing ∨ (¬ debug r.cause ∧ (r.level = true ∨ ¬ may r.cause))
    let alone (l : List StreamName) : Prop := ∀ m, m ∉ l → (streamOf c m).state = .trapped ∨ (streamOf c m).fault = none
    let enters : Prop := ¬ kills r ∧ ¬ debug r.cause ∧ st = .c
    let dropped (w : Wait) : Prop := match w with | .result _ | .engines .. | .sealing .. | .page _ | .ring .. | .lease => True | _ => False
    let t := serveTrap s k st r resume
    k = s.focus →
    (enters →
      t.core.tepc = resume ∧ t.core.tstat.getLsbD 0 = true ∧ (∀ b, b ≠ 0 → t.core.tstat.getLsbD b = c.tstat.getLsbD b) ∧
      t.core.c = { c.c with loops := [], rets := [], pc := x.tvec, state := .run, pending := none } ∧ t.mem = s.mem ∧ t.jobs = s.jobs ∧
      (q ≠ .c →
        ((∀ a, (streamOf c q).pending = some a → ¬ dropped a.on) → streamOf t.core q = streamOf c q) ∧
        ((streamOf c q).state = .wait → (streamOf c q).pending = some p → dropped p.on →
          (∀ n, p.on = .result n → ∀ e ∈ c.qdata ++ c.qmat, e.seq = n → isXlease e.instr = false) →
          (streamOf t.core q).state = .run ∧ (streamOf t.core q).pending = none ∧ (streamOf t.core q).pc = (streamOf c q).pc ∧
          (streamOf t.core q).regs = (streamOf c q).regs ∧ (streamOf t.core q).draws = (streamOf c q).draws ∧
          ∀ n, p.on = .result n → ∀ e ∈ t.core.qdata ++ t.core.qmat, e.seq ≠ n))) ∧
    (¬ kills r → ¬ debug r.cause → st ≠ .c →
      t.core.tstat.getLsbD (streamNum st) = true ∧ (∀ b, b ≠ streamNum st → t.core.tstat.getLsbD b = c.tstat.getLsbD b) ∧
      (∀ n, streamOf t.core n = streamOf c n) ∧ t.mem = s.mem ∧ t.jobs = s.jobs) ∧
    (debug r.cause → tabSorted s.vds = true →
      (streamOf t.core st).record = { (streamOf c st).record with debug := true } ∧ (∀ m, m ≠ st → streamOf t.core m = streamOf c m) ∧
      (vdAt t x.vd).dbgsts.getLsbD 16 = true ∧ t.mem = s.mem ∧ t.jobs = s.jobs) ∧
    (kills r → alone [st] → c.job = some n → t = killJob s n r.cause) ∧
    (kills r → q ≠ st → alone [st, q] → faultRecord c q = some y → c.job = some n →
      t = killJob (Written.state (writeRecord s k q y none)) n (if kills y ∧ streamNum q < streamNum st then y.cause else r.cause))

/-- R377, R379 to R381: TRAP completes and raises SYSCALL at its own address, to resume behind it; BRK raises BRK_HIT at its address; ICIV drops the
cached words of its range, or all; YIELD without a candidate to make room for only completes.

R378: RTE at level P ends the handler: the C stream goes on at TEPC with the loop and return stacks of its record, INH and the REL bits are 0, and
a stream whose REL and PEND bits are both set runs again. With TSTAT.KILL it kills the job with KCAUSE, or SYSCALL when that is 0. That ICIV takes effect at
its step, where a stream without a record runs on, and that a trap keeps the mark of a debugger's step, are the model's (logs 7, 59, 91). -/
def Obligations.TrapAndCacheResults : Prop :=
  (∀ (s : State) (a b code : Nat),
    let t := curStream s
    let c := ctxAt s s.core.ctx
    let lo := (readReg s a).toNat
    let n := (readReg s b).toNat
    (let done := advance (setCur s { t with step := stepOver t.step })
     exec (.trap a code) s = .next (raiseTrap done ⟨s.focus, s.cur, 0, false, t.pc, wordsOf s.words, (curStream done).pc⟩
       { cause := .syscall, esw := code, va := (readReg s a).toNat })) ∧
    exec (.brk code) s = .next (trapCur s { cause := .brkHit, esw := code }) ∧
    (n = 0 → exec (.iciv a b) s = .next (advance (setCtx s s.core.ctx { c with icache := [] }))) ∧
    (n ≠ 0 → lo + n ≤ 2 ^ 55 → exec (.iciv a b) s = .next (advance (setCtx s s.core.ctx
      { c with icache := c.icache.filter fun p => p.1 + 4 ≤ lo || lo + n ≤ p.1 }))) ∧
    (n ≠ 0 → 2 ^ 55 < lo + n → exec (.iciv a b) s = .next (trapCur s { cause := .noMapping, va := lo })) ∧
    ((∀ k j, s.core.job = some k → jobAt s k = some j → permCheckpoint j = false ∨ s.core.tstat.getLsbD 0 = true ∨ candidateWaits s j = false) →
      exec .yield s = .next (advance s)) ∧
    (∀ k j, s.core.job = some k → jobAt s k = some j → permCheckpoint j = true → s.core.tstat.getLsbD 0 = false → candidateWaits s j = true →
      exec .yield s = .next (checkpointJob (advance s) k (causeCode .yielded)))) ∧
  (∀ (s : State) (n : Nat),
    s.cur = .c → s.core.tstat.getLsbD 0 = true →
    (s.core.tstat.getLsbD 11 = true → s.core.job = some n →
      exec .rte s = .next (killJob s n (let k := s.core.tstat.toNat / 2 ^ 16 % 256; if k = 0 then 0x0F else k))) ∧
    (s.core.tstat.getLsbD 11 = false → s.core.c.step = .off → ∃ t, exec .rte s = .next t ∧
      t.core.c.pc = s.core.tepc ∧ t.core.c.state = .run ∧ t.core.c.loops = s.core.c.record.loops ∧ t.core.c.rets = s.core.c.record.rets ∧
      t.core.c.regs = s.core.c.regs ∧ t.core.tstat.getLsbD 0 = false ∧ (∀ b ∈ [8, 9, 10], t.core.tstat.getLsbD b = false) ∧
      (∀ st ∈ [StreamName.d, .v, .x], let b := streamNum st
        (s.core.tstat.getLsbD (7 + b) = true → s.core.tstat.getLsbD b = true → (streamOf s.core st).state = .trapped →
          (streamOf t.core st).state = (if (streamOf s.core st).record.mett then .met else .run) ∧ t.core.tstat.getLsbD b = false ∧
          (streamOf t.core st).pc = (streamOf s.core st).pc) ∧
        (s.core.tstat.getLsbD (7 + b) = false ∨ s.core.tstat.getLsbD b = false →
          streamOf t.core st = streamOf s.core st ∧ t.core.tstat.getLsbD b = s.core.tstat.getLsbD b))))

/-! ### Events of streams and engines -/

/-- R80, R81, R158, R165, R177, R272, R317 to R321, R325, R360, R374: a wait whose condition holds is released: into its instruction, behind its fence, with
its tenure, with the group that forms, or on to its ring claims and its queue; one that has lasted 2^WEXP cycles without that traps, and is the next step's
turn when its time has come; a stream traps with the fault that its engine has left for it; the C stream enters the handler for a PEND bit; a due timer
acts; and the detector traps the first waiting stream of a core that has been stuck for 1,024 cycles, before any watchdog does. -/
def Obligations.StreamEvents : Prop :=
  ∀ (s u : State) (k since : Nat) (st : StreamName) (p : Pending) (f : EngineFault) (r : Ready),
    let c := coreAt s k
    let t := streamOf c st
    let waits : Prop := t.state = .wait ∧ t.pending = some p
    let b : State := { focusOn s k with cur := st, words := wordList p.words }
    let traps (i : Instr) (cause : Cause) (va : Nat) : Prop :=
      exec i s = .next (raiseTrap s ⟨k, st, 0, true, t.pc, p.words, t.pc⟩ { cause := cause, va := va })
    let atEdge : Prop := coreRuns s k = true ∧ c.tstat.getLsbD 0 = false ∧ (c.c.state = .run ∨ c.c.state = .wait) ∧ c.c.fault = none
    let again : State := { updStream s k st (fun t => { t with state := .run, pending := none }) with pin := some (.stream k st) }
    (coreRuns s k = true → waits → waitHolds s c st p.on = true → p.ready = none →
      ((∀ all bound, p.on ≠ .engines all bound) → (∀ h bound, p.on ≠ .sealing h bound) → (∀ id, p.on ≠ .tenure id) → (∀ g, p.on ≠ .group g) →
        exec (.waitRelease k st) s = .next again) ∧
      (∀ g, p.on = .group g → exec (.waitRelease k st) s = exec (.groupFormed (groupAt c g).key) s) ∧
      (∀ all bound, p.on = .engines all bound → exec (.waitRelease k st) s = .next (advanceBy b 4)) ∧
      (∀ h bound, p.on = .sealing h bound → sealHeld b h = .ok u → exec (.waitRelease k st) s = .next (advanceBy u 4)) ∧
      (∀ id, p.on = .tenure id →
        (requestReady (ctxAt s c.ctx) id = true → exec (.waitRelease k st) s = .next (grantRequest s c.ctx id)) ∧
        (requestReady (ctxAt s c.ctx) id = false → exec (.waitRelease k st) s = .next again))) ∧
    (coreRuns s k = true → waits → waitHolds s c st p.on = true → p.ready = some r →
      (claimAndQueue b r = .ok u → exec (.waitRelease k st) s = .next (advanceBy u 8)) ∧
      (∀ w q, claimAndQueue b r = .error (.claim w q) → w ≠ .lease →
        exec (.waitRelease k st) s = .next (setCur b { curStream b with pending := some { p with on := w } }))) ∧
    (coreRuns s k = true → waits → waitHolds s c st p.on = false → detectorDue s c = false →
      (s.now < p.since + 2 ^ p.wexp → exec (.waitTimeout k st) s = .next s) ∧
      (p.since + 2 ^ p.wexp ≤ s.now → (∀ va n, p.on = .access va n → traps (.waitTimeout k st) .tenureTimeout va) ∧
        ((∀ va n, p.on ≠ .access va n) → traps (.waitTimeout k st) .waitTimeout 0))) ∧
    (coreRuns s k = true → waits → waitHolds s c st p.on = false → p.since + 2 ^ p.wexp ≤ s.now → k = s.focus ∨ (k, c) ∈ s.others → s.pin = none →
      (∃ n, (n = s.focus ∨ n ∈ s.others.map (·.1)) ∧ (pinDue s).pin = some (.event (.syncDeadlock n)) ∧ detectorDue s (coreAt s n) = true) ∨
      ∃ n q, (pinDue s).pin = some (.event (.waitTimeout n q)) ∧ watchdogDue s n q = true) ∧
    (coreRuns s k = true → t.state = .run ∨ t.state = .wait → t.fault = some f → exec (.engineFaultRaise k st) s =
      .next (raiseTrap (updStream s k st fun t => { t with fault := none }) ⟨k, st, f.num, f.async, f.pc, f.words, t.pc⟩
        { cause := f.cause, esw := f.esw.toNat, progress := f.progress, va := f.va.toNat })) ∧
    (atEdge → (∃ q ∈ [StreamName.d, .v, .x], c.tstat.getLsbD (streamNum q) = true) →
      let a := abandonWait s k .c
      let x := (coreAt a k).c
      let r : TrapRecord := ⟨0, 0, false, false, true, false, x.pc, heldWords c.c, 0, 0, 0, x.loops, x.rets, false⟩
      ∀ z ∈ [StreamName.d, .v, .x], c.tstat.getLsbD (streamNum z) = true →
      (∀ y ∈ [StreamName.d, .v, .x], streamNum y < streamNum z → c.tstat.getLsbD (streamNum y) = false) →
      writeRecord a k .c r (some (streamOf (coreAt a k) z).record.cause) = .ok u →
      exec (.handlerEntry k) s = .next (enterHandler (updStream u k .c fun t => { t with record := r }) k x.pc)) ∧
    (atEdge → c.tcmp ≠ 0 → c.tcmp.toNat ≤ c.cycle.toNat →
      let b := putCore s k { c with tcmp := 0 }
      let x := ctxAt s c.ctx
      (x.tdel1.getLsbD 21 = true → x.tvec ≠ 0 → exec (.timer k) s =
        .next (raiseTrap b ⟨k, .c, 0, true, c.c.pc, heldWords c.c, c.c.pc⟩ { cause := .timer })) ∧
      (x.tdel1.getLsbD 21 = false ∨ x.tvec = 0 → exec (.timer k) s = .next b)) ∧
    (coreStuck s c = true → c.stuckSince = some since → waits → (∀ q, streamNum q < streamNum st → (streamOf c q).state ≠ .wait) →
      (since + 1024 ≤ s.now → traps (.syncDeadlock k) .syncDeadlock 0 ∧ traps (.waitTimeout k st) .syncDeadlock 0) ∧
      (s.now < since + 1024 → exec (.syncDeadlock k) s = .next s))

/-- R161, R165, R177, R183, R226 to R229, R235, R270, R272, R273, R276, R289: an engine works on the instruction that it has come to until that completes,
faults or stands still; a turn of fewer units ends only where no aligned 16-byte part is left half done (log 90, the model's choice of which units
share one); an instruction that takes effect at the head does so; no engine goes on before what the ports have recorded is merged (R311, log 120), and no group
instruction completes before an earlier update of its stream (R306); an array instruction starts when its core holds the array; a tenure request that
nothing stands against is granted and its TACQ completes, or faults when it breaks a limit by now; a free array goes to the first core that asks for
it, which takes its state from its save area (log 97) once no migration holds that, and a grant that is due ends at a boundary between array instructions. -/
def Obligations.EngineEvents : Prop :=
  ∀ (s : State) (k array core : Nat) (rest : List Nat) (eng : EngineName) (e : QEntry) (o o2 : UnitOut) (t : TrapInfo) (r : TenureReq) (tile : Tile)
      (p : Pending),
    let b := focusOn s k
    let work : Prop := enginesRun b k = true ∧ b.core.merge = none ∧ workEntry b eng = some e ∧ e.stopped = false
    let at_ : State := { b with cur := e.stream }
    (work → runUnit at_ e = .ok o →
      let after (o : UnitOut) : State := retireCur (resumeHeld (completeEntry o.s eng o.e) o.e)
      let u := setEntry o.s eng o.e
      (o.done = true → updateBefore b.core eng e = false → exec (.engineInstructionComplete k eng) s = .next (after o) ∧
        (takesEffectLate e.instr = true → exec (.engineHeadEffect k eng) s = .next (after o))) ∧
      (o.done = true → updateBefore b.core eng e = true → exec (.engineInstructionComplete k eng) s = .next b) ∧
      (o.done = false → o.e = e → workEntry u eng = some e → exec (.engineInstructionComplete k eng) s = .next u) ∧
      (o.done = false → o.e ≠ e →
        (∀ v, engineRun eng (fun _ _ => true) (2 ^ 64 - 1) u = (v, .over) → exec (.engineInstructionComplete k eng) s = .next v) ∧
        (k < coreCount → workEntry u eng = some o.e → o.e.stopped = false →
          (cutHere u o.e e.progress o.e.progress = true → takeTurn s (.engine k eng 1) = .next u) ∧
          (cutHere u o.e e.progress o.e.progress = false → runUnit { u with cur := o.e.stream } o.e = .ok o2 → o2.done = true →
            updateBefore u.core eng o.e = false → takeTurn s (.engine k eng 1) = .next (after o2))))) ∧
    (∀ errs w, enginesRun b k = true → b.core.merge = some errs → mergeParts b = (w, true) → w.core.merge.isSome = true →
      exec (.engineInstructionComplete k eng) s = .next w) ∧
    (∀ errs w, enginesRun b k = true → b.core.merge = some errs → mergeParts b = (w, false) →
      exec (.engineInstructionComplete k eng) s = .next (engineUnits { w with core := { mergeErrors errs w.core with merge := none } } eng (2 ^ 64))) ∧
    (work → runUnit at_ e = .error (.trap t) → exec (.engineInstructionComplete k eng) s = .next (engineFault b eng e t)) ∧
    (work → eng = .matrix → e.started = false → b.core.lease = .held → grantDue at_ k = false → b.focus = k →
      ((∃ h y, e.instr = .xcellop h y) ∨ (∃ x m y, e.instr = .xzero x m y) ∨ (∃ a h y, e.instr = .xside a h y) ∨
        (∃ z d m y, e.instr = .xdrain z d m y) ∨ (∃ x a d y, e.instr = .xbias x a d y)) →
      exec (.arrayInstructionStart k) s = .next (setEntry at_ .matrix { e with started := true })) ∧
    (let x := ctxAt s k
     let i := r.handle % 4096
     let y : Context := { x with requests := x.requests.filter fun q => q.id ≠ r.id }
     x.requests.find? (fun q => q.id = r.id) = some r → tileAt x i = some tile → coreRuns s r.core = true →
      (grantable x i tile r.holder r.write (x.requests.takeWhile fun q => q.id ≠ r.id) = true →
        (holdsTile tile r.holder = false → tenuresHeld y r.holder < 64 → exec (.tenureGrant k r.id) s =
          .next (advanceBy { focusOn (setCtx s k (grantTenure y i tile r.holder r.write)) r.core with cur := r.stream, words := [] } 4)) ∧
        (holdsTile tile r.holder = true ∨ 64 ≤ tenuresHeld y r.holder →
          let w := streamOf (coreAt (setCtx s k y) r.core) r.stream
          exec (.tenureGrant k r.id) s =
            .next (raiseTrap (setCtx s k y) ⟨r.core, r.stream, 0, false, w.pc, heldWords w, w.pc⟩ { cause := .tileTooMany }))) ∧
      (grantable x i tile r.holder r.write (x.requests.takeWhile fun q => q.id ≠ r.id) = false → exec (.tenureGrant k r.id) s = .next s)) ∧
    (let n := noteShort s array
     (arrayAt n array).holder = none → leaseOrder n array = core :: rest →
      let g := focusOn (setArray n (core / 8) ⟨some core, core % 8⟩) core
      let held (a : ArrayState) : State := { g with core := { g.core with lease := .held, leaseAt := g.now, arr := a } }
      let restored (a : ArrayState) := held { a with passes := 0, cycles := 0 }
      (∀ l, g.core.lease = .waiting → g.core.qmat = e :: l → isXlease e.instr = true → exec (.leaseGrant array) s =
        .next (resumeHeld (completeEntry { held ArrayState.fresh with cur := e.stream } .matrix e) e)) ∧
      (g.core.lease = .reclaim → restoredArray n core = .error .busy → exec (.leaseGrant array) s = .next n) ∧
      (∀ a, g.core.lease ≠ .waiting → restoredArray n core = .ok a → restoredArray g core = .ok a →
        (g.core.x.state ≠ .wait → exec (.leaseGrant array) s = .next (restored a)) ∧
        (g.core.x.state = .wait → g.core.x.pending = some p → p.on = .lease →
          exec (.leaseGrant array) s = .next (releaseWait (restored a) core .x p)))) ∧
    (let n := noteShort s array
     (arrayAt n array).holder ≠ none ∨ leaseOrder n array = [] → exec (.leaseGrant array) s = .next n) ∧
    (let c := coreAt s core
     (arrayAt s array).holder = some core → c.lease = .held → arrayBoundary s core = true →
      (grantDue s core = false → exec (.leaseGrantEnd array) s = .next s) ∧
      (c.arr.passes < 16 → c.arr.cycles < 8192 → ticking s c = true → 0 < purseFunds (purseAt s 1 (core / 8) (ctxAt s c.ctx).vd) →
        grantDue s core = false) ∧
      (16 ≤ c.arr.passes ∨ 8192 ≤ c.arr.cycles ∨ ticking s c = false →
        (leaseOrder s (core / 8) ≠ [] → exec (.leaseGrantEnd array) s =
          .next (releaseArray (saveArray (putCore s core { c with lease := .lapsed }) core) core)) ∧
        (leaseOrder s (core / 8) = [] → ticking s c = true → exec (.leaseGrantEnd array) s =
          .next (putCore s core { c with arr := { c.arr with passes := 0, cycles := 0 } })) ∧
        (leaseOrder s (core / 8) = [] → ticking s c = false → exec (.leaseGrantEnd array) s = .next s)))

/-! ### Events of jobs and queues -/

/-- R127, R128, R132, R135, R311, R338, R339, R341 to R348, R362 to R364, R366, R386: records are read and become jobs; the chosen job is proposed for its
cores, placed and started, and a chosen job that waits has those in its way yield; a completion word is incremented and its event posted and written;
jobs are checkpointed, resumed from the bytes of their frames with what the ports have recorded, and killed, at a slice's end or a drain's limit too;
and a virtual device's queues are switched out and in. Which event comes first and which cores are proposed rest on logs 31, 46, 49, 77 and 79, the
model's choices; the parts of a frame without a layout on log 24; that the record of a queue without a context is read and then refused on log 30; that a
dispatch revokes the units lent among the cores it takes on log 70; and what kills a job at its placement on log 110. -/
def Obligations.JobEvents : Prop :=
  ∀ (s u : State) (v q n k o die cause pa old : Nat) (cores : List Nat) (j : Job) (image : List Core) (bs ds : List Byte) (e : HeldEvent)
      (rest : List HeldEvent) (l : Leaf) (yield taken : List Nat) (more : List (Nat × Job)) (img : Memory) (c : Core) (st : StreamName),
    let d := vdAt s v
    let x := queueAt s v q
    let jobIs : Prop := jobAt s n = some j
    let acc : Accessor := ⟨k, false, none, vdHome s j.vd⟩
    let vacc : Accessor := ⟨k, false, none, vdHome s v⟩
    let reads : Prop := d.paused = false ∧ d.stopped = false ∧ inReset s v = false ∧ settleReading s v q = s ∧ x.resident = true ∧ x.qctl.getLsbD 6 = true
    let taken_ (good : LaunchRec → Prop) : Prop := ∃ r : Job,
      r.state = .reading ∧ r.vd = v ∧ r.queue = q ∧ r.index = x.prog ∧ r.arrival = s.now ∧ r.cores = [] ∧ good r.rcd ∧
      exec (.recordRead v q) s =
        .next (settleRecord { setJob (setQueue s v q { x with prog := (x.prog + 1) % 2 ^ 32 }) s.nextJob r with nextJob := s.nextJob + 1 } s.nextJob r)
    let slot := x.qbase.toNat + 64 * (x.prog % 2 ^ qlog x)
    (reads → x.tail = x.prog → exec (.recordRead v q) s = .next s) ∧
    (reads → x.tail ≠ x.prog → queueContext s v q = some k → agentLoad s k slot 2 64 = .ok (.ok bs) → taken_ fun r => r = recordOf bs) ∧
    (reads → x.tail ≠ x.prog → queueContext s v q = none → taken_ fun _ => True) ∧
    (queueContext s j.vd j.queue = none → settleRecord s n j = refuseLaunch s n j false) ∧
    (∀ t, reads → x.tail ≠ x.prog → queueContext s v q = some k → agentLoad s k slot 2 64 = .error (.trap t) →
      exec (.recordRead v q) s = .next (fetchFailed (standHw s t.hw) v q (causeCode t.cause))) ∧
    (∀ kern w, checkLaunch s j = (.pass kern, w) → jobSize { j with kern := kern, state := .queued, asked := [] } ≠ 0 →
      settleRecord s n j = setJob s n { j with kern := kern, state := .queued, asked := [] }) ∧
    (waitingJobs s die = [] → chosenJob s die = some (n, j) → contextFor s j = some k → placeOk s j.vd k j cores = true →
      onHome s j cores = true → heldFrom s n j cores = false → exec (.dispatch die cores) s = .next { s with pin := some (.event (.jobPlace n cores)) }) ∧
    (choices s die = (n, j) :: more → placeable s j = false → yielding s j = some (yield, taken) → exec (.dispatch die cores) s =
      .next (taken.foldl revokeUnit (yield.foldl (fun s m => preemptJob s m (effPrio s j = 7)) s))) ∧
    (choices s die = [] → exec (.dispatch die cores) s = .next s) ∧
    (jobIs → contextFor s j = some k → chosenJob s (dispatcherOf s j) = some (n, j) → placeOk s j.vd k j cores = true →
      onHome s j cores = true → heldFrom s n j cores = false → queueContext s j.vd j.queue = some o → readImages s o j = .ok (.ok (ds, bs)) →
      let w := ((upFrom 0 cores.length).zip cores).foldl (fun s p => putCore s p.2 (startCore n j k p.1 ds bs)) (lendUnits s j.vd cores)
      let w := setCtx w k { ctxAt w k with state := .running, job := some n }
      exec (.jobPlace n cores) s =
        .next (setJob w n { j with state := .running, asked := [], ctx := k, cores := cores, resident := 0, sliceAt := 0, drainAt := none })) ∧
    (∀ rank st, let c := startCore n j k rank ds bs
      c.job = some n ∧ c.ctx = k ∧ c.jobRank = rank ∧ c.qdata = [] ∧ c.qvec = [] ∧ c.qmat = [] ∧ c.qgrp = [] ∧ c.sems = [] ∧ c.tstat = 0 ∧
      (streamOf c st).state = .run ∧ (streamOf c st).pc = 0 ∧ (streamOf c st).loops = [] ∧ (streamOf c st).rets = [] ∧
      regOf (streamOf c st) 1 = j.rcd.args ∧ regOf (streamOf c .c) 2 = BitVec.ofNat 64 j.rcd.kobj ∧
      (∀ i, i ≠ 1 → i ≠ 2 ∨ st ≠ .c → regOf (streamOf c st) i = 0)) ∧
    (jobIs → j.ending = some cause → wordContext s j = some k → (∀ l, translate s acc .atomic j.rcd.csem ≠ .ok (.absent l)) →
      memAtomic s acc j.rcd.csem 4 = .ok (u, pa, old) →
      let w := setJob (physWrite u pa (natLe 4 (old + 1)) (tagOf u acc pa)) n { j with ending := none }
      exec (.completionWordIncrement n) s = .next (postCompletion w j (statusOf j.state) (if j.state = .retired then 0 else cause))) ∧
    (d.held = e :: rest → e.rgen ≠ d.rgen → exec (.eventWrite v) s = .next (setVd s v { d with held := rest })) ∧
    (d.held = e :: rest → e.rgen = d.rgen → d.scheduled = true → d.paused = false → inReset s v = false →
      (d.evtail + 2 ^ 32 - d.evhead) % 2 ^ 32 < 2 ^ bitField d.evctl.toNat 0 5 → firstContext s v = some k →
      let va := d.evbase.toNat + 16 * (d.evtail % 2 ^ bitField d.evctl.toNat 0 5)
      translate s vacc .write va = .ok (.here l pa) → (paTier pa).isSome = true → checkTag s pa 16 (ctxAt s k).world va false = .ok () →
      storeErrors s pa 16 va = .ok () →
      let w := setVd (physWrite s pa (eventBytes d e) (tagOf s vacc pa)) v { d with held := rest, evtail := (d.evtail + 1) % 2 ^ 32 }
      exec (.eventWrite v) s = .next (if d.evctl.getLsbD 5 then w else sendMsix w v 0)) ∧
    (jobIs → bitAt j.rcd.perm 1 = true → jobRuns s n = true → j.state = .running → retireIfMet s n = s →
      let b := j.cores.foldl settleCore s
      let image := j.cores.map fun c => savedCore (coreAt b c)
      let why := checkpointReason cause
      let saved := (writeFrames b j.ctx n why image).bind fun f => saveVaults f j.ctx n why (vaultSaveVa (ctxAt f j.ctx)) (lentVaults f j.cores)
      jobRuns b n = true →
      (saved = .error u → exec (.checkpoint n cause) s = .next (killJob u n why)) ∧
      (saved = .ok u →
        let w := freeCores u j.cores
        exec (.checkpoint n cause) s = .next (setJob (setCtx w j.ctx { ctxAt w j.ctx with state := .saved }) n
          { j with state := .saved, cores := [], image := image, drainAt := none, lent := (lentVaults u j.cores).length, savedAt := some (w.now, j.cores) }))) ∧
    (jobIs → j.state = .saved → (vdAt s j.vd).paused = false → inReset s j.vd = false → vdField s j.vd 31 1 = 1 → heldBack s j.vd cores = false →
      placeOk s j.vd j.ctx j cores = true →
      let b := lendUnits s j.vd cores
      let given (t : State) : Prop := exec (.resume n cores) s = .next (cores.foldl returnMargin t)
      let ranks := j.image.length
      j.lent ≤ (lentVaults b cores).length →
      (∀ r t, r < ranks → (∀ q < r, frameSound b j.ctx q = .ok ()) →
        (frameSound b j.ctx r = .error .busy → exec (.resume n cores) s = .next s) ∧
        (frameSound b j.ctx r = .error (.trap t) → given (killJob (standHw b t.hw) n (causeCode .reservedField)))) ∧
      ((∀ r < ranks, frameSound b j.ctx r = .ok ()) → readFrames b j.ctx 0 j.image = .ok image →
        let w := setJob ((cores.zip (j.image.zip image)).foldl (fun s p => putCore s p.1 (awaitMerge p.2.1 p.2.2)) b) n
          { j with state := .running, cores := cores, image := [], lent := 0, sliceAt := j.resident }
        restoreVaults w j.ctx (vaultSaveVa (ctxAt w j.ctx)) ((lentVaults w cores).take j.lent) = .ok u →
        let x := cores.foldl mergeOn (setCtx u j.ctx { ctxAt b j.ctx with state := .running, haltPending := false })
        ((ctxAt b j.ctx).haltPending = false → given x) ∧ ((ctxAt b j.ctx).haltPending = true → given (agentStatus (haltRunning x j.ctx))))) ∧
    (readRegion s k 17 (frameVa (ctxAt s k) 0) 0 (2 ^ 20) = .ok img → readFrames s k 0 [c] = .ok [restoredCore img c]) ∧
    (∀ a b, readFrame s k (frameVa (ctxAt s k) 0 + 0x1801) 1 = .ok [a] → (a ≠ 1 → frameSound s k 0 = .error (.trap { cause := .reservedField })) ∧
      (a = 1 → readFrame s k (frameVa (ctxAt s k) 0 + 0x34000) 1024 = .error b → frameSound s k 0 = .error b)) ∧
    (let x := streamOf (restoredCore img c) st
     let at_ := 0x800 + 0x400 * streamNum st
     x.pc = frameWord img at_ ∧ (frameNat img (at_ + 8) 8 = 0 → x.state = .run) ∧ (frameNat img (at_ + 8) 8 = 1 → x.state = .met) ∧
       (frameNat img (at_ + 8) 8 = 2 → x.state = .trapped) ∧
       (∀ i < if st = .c then 64 else 16, tabGet 0 x.regs i = frameWord img (at_ + 0x10 + 8 * i)) ∧
       (∀ i < 32, tabGet 0 (restoredCore img c).sems i = BitVec.ofNat 32 (frameNat img (0x1C40 + 4 * i) 4)) ∧
       (restoredCore img c).tepc = frameWord img 0x1DA8 ∧ (restoredCore img c).tstat = frameWord img 0x1DB0) ∧
    (jobIs → cause < 96 → j.state = .queued ∨ j.state = .reading → exec (.kill n cause) s = .next (finishAs s n j .killed cause)) ∧
    (cause < 96 → retireIfMet s n = s → exec (.kill n cause) s = .next (killJob s n cause)) ∧
    (let slice := vdField s j.vd 6 16
     let left := j.rcd.est - j.resident / 1024
     let drains : Prop := bitAt j.rcd.perm 0 = true ∧ left ≤ 128
     jobIs → jobRuns s n = true → slice ≠ 0 → slice * 1024 + j.sliceAt ≤ j.resident → othersWait s j = true →
      (drains → j.drainAt = none → exec (.sliceEnd n) s = .next (setJob s n { j with drainAt := some j.resident })) ∧
      (¬ drains → bitAt j.rcd.perm 1 = true → exec (.sliceEnd n) s = .next (checkpointJob s n (causeCode .preemptCheckpoint))) ∧
      (¬ drains → bitAt j.rcd.perm 1 = false → bitAt j.rcd.perm 2 = true → retireIfMet s n = s →
        exec (.sliceEnd n) s = .next (killJob s n (causeCode .preemptKill)))) ∧
    (let b := setJob s n { j with drainAt := none }
     jobIs → jobRuns s n = true → j.drainAt = some old → old + 2 ^ 17 ≤ j.resident →
      (bitAt j.rcd.perm 1 = true → exec (.drainTimeout n) s = .next (checkpointJob b n (causeCode .preemptCheckpoint))) ∧
      (bitAt j.rcd.perm 1 = false → bitAt j.rcd.perm 2 = true → retireIfMet b n = b →
        exec (.drainTimeout n) s = .next (killJob b n (causeCode .drainTimeout))) ∧
      (bitAt j.rcd.perm 1 = false → bitAt j.rcd.perm 2 = false → exec (.drainTimeout n) s = .next b)) ∧
    (d.scheduled = true → exec (.queueSwitchOut v) s = .next (mapQueues (setVd s v { d with scheduled := false }) v fun q =>
      { q with resident := false, stale := true, savedProg := q.prog, savedDone := q.done })) ∧
    (let r := setField d.rcdNew 512 384 (bitField d.rcd 512 384)
     d.scheduled = false → d.paused = false → inReset s v = false → bitAt r 31 = true → v < 384 → scheduledOn s (bitField r 0 6 / 16) < 32 →
      exec (.queueSwitchIn v) s =
        .next (writeHeld (mapQueues (setVd s v { d with scheduled := true, rcd := r }) v fun q => { q with resident := true, stale := false }) v))

/-! ### Events of the host port -/

/-- R5, R337, R338, R345, R348, R367 to R370, R397, R426 to R431, R449: what a host's request does that R430 accepts, to the queue and event registers,
the debug window, the memory window and the interface's TDISP state, and what it reads; one that R430 does not accept is discarded, and a read that is
not accepted completes Unsupported Request. A function-level reset, and a stop, begin at once and act when nothing is outstanding or 200 µs have
passed. A write of 4 bytes leaves the other half of its register as it was, and the sizes of accesses are the model's choice (log 89); so are the
order of held events, the TDISP answers, the agent's window and the configuration writes (logs 13, 16, 20, 32, 35 to 38), a TRIP bit cleared while its
die stays tripped (log 15), the tee of an access and the answer to a lock beyond 64 streams (log 64), what is outstanding at a reset (log 104), and that
a function which is absent answers no TDISP message (log 125). -/
def Obligations.HostEvents : Prop :=
  ∀ (s : State) (v q off n k value c pa t0 : Nat) (tee : Option Nat) (st : StreamName) (bytes : List Byte) (stop : Bool),
    let d := vdAt s v
    let x := queueAt s v q
    let present : Prop := 6 ≤ s.phase ∧ v < 384
    let free : Prop := present ∧ inReset s v = false
    let takes : Prop := free ∧ ((d.tdisp = .unlocked ∨ d.tdisp = .locked) ∧ tee = none ∨ d.tdisp = .run ∧ tee = some n ∧ d.ide = some n)
    let refuses : Prop := (d.tdisp = .unlocked ∨ d.tdisp = .locked) ∧ tee ≠ none ∨ d.tdisp = .run ∧ (tee = none ∨ d.ide ≠ tee) ∨ d.tdisp = .error
    let outs (m : Message) : State := { s with outbox := s.outbox ++ [m] }
    let t := value % 2 ^ 32
    (takes → q < 8 →
      (x.qctl.getLsbD 5 = true → exec (.qtailWrite v q value tee) s = .next (setQueue s v q { x with qsts := x.qsts ||| 2 })) ∧
      (x.qctl.getLsbD 5 = false → (t + 2 ^ 32 - progSeen x) % 2 ^ 32 ≤ 2 ^ qlog x →
        exec (.qtailWrite v q value tee) s = .next (setQueue s v q { x with tail := t })) ∧
      (x.qctl.getLsbD 5 = false → 2 ^ qlog x < (t + 2 ^ 32 - progSeen x) % 2 ^ 32 →
        exec (.qtailWrite v q value tee) s = .next (setQueue s v q { x with qsts := x.qsts ||| 1 }))) ∧
    (takes → d.held = [] → (t + 2 ^ 32 - d.evhead) % 2 ^ 32 ≤ (d.evtail + 2 ^ 32 - d.evhead) % 2 ^ 32 → tabSorted s.vds = true →
      exec (.evheadWrite v value tee) s = .next (setVd s v { d with evhead := t })) ∧
    (present → inReset s v = true ∨ refuses →
      ∀ i ∈ [Instr.qtailWrite v q value tee, .evheadWrite v value tee, .dbgReturn v tee, .dbgStep v tee, .dbgDisplaced v tee, .dbgKill v tee,
        .dbgInval v tee], exec i s = .next s) ∧
    (present → off < 65536 → 0 < n → off % 8 + n ≤ 8 →
      (inReset s v = true → takeTurn s (.act (.barRead v off n tee)) = .next (outs (.data (natLe n 0)))) ∧
      (inReset s v = false → refuses → off / 4096 = 1 ∨ off / 4096 = 2 → takeTurn s (.act (.barRead v off n tee)) = .next (outs (.completion 1))) ∧
      (inReset s v = false → d.tdisp = .unlocked → tee = none → takeTurn s (.act (.barRead v off n tee)) =
        .next (outs (.data (natLe n (barWord s v (off / 8 * 8) / 2 ^ (off % 8 * 8) % 2 ^ (8 * n))))))) ∧
    (free → d.tdisp = .unlocked → value < 2 ^ 64 →
      (q < 8 → value % 64 = 0 → value / 2 ^ 55 = 0 → exec (.registerWrite (.bar v none) (0x1000 + 0x40 * q) value) s =
        .next (setQueue s v q { x with qbase := BitVec.ofNat 64 value })) ∧
      (exec (.registerWrite (.bar v none) 0x1408 value) s = .next (setVd s v { d with dbgsel := BitVec.ofNat 64 (value % 2 ^ 34) })) ∧
      (exec (.registerWrite (.bar v none) 0x1428 value) s = .next (setVd s v { d with dbgx := BitVec.ofNat 64 value })) ∧
      (takeTurn s (.act (.barWrite4 v 0x1428 value none)) = .next (setVd s v { d with dbgx := (d.dbgx >>> 32) <<< 32 ||| BitVec.ofNat 64 t })) ∧
      (takeTurn s (.act (.barWrite4 v 0x142C value none)) =
        .next (setVd s v { d with dbgx := BitVec.ofNat 64 t <<< 32 ||| BitVec.ofNat 64 (d.dbgx.toNat % 2 ^ 32) })) ∧
      (exec (.registerWrite (.bar v none) 0x1608 value) s =
        .next (setVd s v { d with winbase := BitVec.ofNat 64 (value / 2 ^ 32 % 2 ^ 23 * 2 ^ 32) })) ∧
      (exec (.registerWrite (.config v) 0 value) s = .next (setVd s v { d with memOn := value.testBit 0 })) ∧
      (exec (.registerWrite (.config v) 1 value) s = .next (setVd s v { d with busOn := value.testBit 0 })) ∧
      (exec (.registerWrite (.config v) 2 value) s = .next (setVd s v { d with msixOn := value.testBit 0 }))) ∧
    (free → ∀ x ∈ [(0, d.memOn), (1, d.busOn), (2, d.msixOn), (3, d.msixMask)],
      takeTurn s (.act (.configRead (some v) x.1)) = .next (outs (.data (natLe 4 (if x.2 then 1 else 0))))) ∧
    (¬ free → ∀ x, takeTurn s (.act (.configRead (some v) x)) = .next s) ∧
    (6 ≤ s.phase → takeTurn s (.act (.configRead none 4)) = .next (outs (.data (natLe 8 s.barBase)))) ∧
    (s.phase = 7 →
      exec (.registerWrite .agent 0 value) s = .next { s with agentCtx := value % 512 } ∧
      exec (.registerWrite .agent 0x48 value) s = .next { s with agentSel := BitVec.ofNat 64 (value % 2 ^ 34) } ∧
      ((ctxAt s s.agentCtx).state = .halted → coreOfRank s s.agentCtx (s.agentSel.toNat % 2 ^ 32) = some c → streamNum st = s.agentSel.toNat / 2 ^ 32 % 4 →
        exec (.registerWrite .agent 0x50 value) s = .next (updStream s c st fun t => { t with pc := BitVec.ofNat 64 value }) ∧
        takeTurn s (.act (.agentRead 0x50)) = .next (outs (.data (natLe 8 (streamOf (coreAt s c) st).pc.toNat)))) ∧
      ((ctxAt s s.agentCtx).state ≠ .halted → exec (.registerWrite .agent 0x50 value) s = .next s)) ∧
    (s.phase = 7 → k < 4 → value.testBit 51 = true →
      let u := setHealth s k (setField (healthAt s k) 51 1 0)
      let tj := (tabGet healthReset s.health k).toNat / 2 ^ 32 % 256
      tabSorted s.health = true →
      (tj < 90 → exec (.registerWrite (.health k) 0 value) s = .next { u with tripped := s.tripped.filter fun x => x ≠ k }) ∧
      (90 ≤ tj → exec (.registerWrite (.health k) 0 value) s = .next u)) ∧
    (takes → dbgTarget s v = some (c, st) →
      let back (f : Stream → Stream) : State := updStream (returnStream s c st) c st fun t => if t.state = .run then f t else t
      exec (.dbgReturn v tee) s = .next (back id) ∧ exec (.dbgStep v tee) s = .next (back fun t => { t with step := .armed t.record.level }) ∧
      exec (.dbgDisplaced v tee) s = .next (back fun t => { t with displaced := some (t.record.level, d.dbgx.setWidth 32, (d.dbgx >>> 32).setWidth 32) }) ∧
      (∀ j, (coreAt s c).job = some j → exec (.dbgKill v tee) s = .next (killJob s j (streamOf (coreAt s c) st).record.cause))) ∧
    (takes → dbgTarget s v = none → ∀ i ∈ [Instr.dbgReturn v tee, .dbgStep v tee, .dbgDisplaced v tee, .dbgKill v tee], exec i s = .next s) ∧
    (takes → dbgContext s v = k → (ctxAt s k).state ≠ .free → (ctxAt s k).vd = v → userDebug s k = true →
      exec (.dbgInval v tee) s = .next (setCtx s k { ctxAt s k with icache := [] })) ∧
    (free → off < 2 ^ 32 → n ≠ 0 → off % 4096 + n ≤ 4096 →
      let took : Prop := (d.tdisp = .unlocked ∨ d.tdisp = .locked) ∧ tee = none ∨ d.tdisp = .run ∧ tee ≠ none ∧ d.ide = tee
      (took → windowContext s v = some k → windowSpot s k (d.winbase.toNat + off) n false = .ok pa →
        exec (.windowRead v off n tee) s = .next (outs (.data (physBytes s pa n)))) ∧
      (took → windowContext s v = some k → bytes.length = n → windowSpot s k (d.winbase.toNat + off) n true = .ok pa →
        exec (.windowWrite v off bytes tee) s = .next (physWrite s pa bytes (ownerTag s k pa))) ∧
      (took → windowContext s v = none → exec (.windowRead v off n tee) s =
        .next { setVd s v { d with winctl := BitVec.ofNat 64 (setField d.winctl.toNat 10 1 1) } with outbox := s.outbox ++ [.completion 2] }) ∧
      (refuses → exec (.windowRead v off n tee) s = .next (outs (.completion 1)) ∧ (bytes.length = n → exec (.windowWrite v off bytes tee) s = .next s))) ∧
    (free → d.tdisp = .unlocked → streamFree s n = true → exec (.lockInterfaceRequest v n) s =
      .next { setVd s v { d with tdisp := .locked, ide := some n, report := some (reportOf s v n) } with outbox := s.outbox ++ [.tdisp v 1 none] }) ∧
    (present → d.tdisp ≠ .unlocked ∨ inReset s v = true ∨ streamFree s n = false → exec (.lockInterfaceRequest v n) s = .next (outs (.tdisp v 0 none))) ∧
    (d.tdisp = .locked → free → exec (.startInterfaceRequest v) s =
      .next { setVd s v { d with tdisp := .run } with outbox := s.outbox ++ [.tdisp v 1 none] }) ∧
    (present → d.tdisp ≠ .locked ∨ inReset s v = true → exec (.startInterfaceRequest v) s = .next (outs (.tdisp v 0 none))) ∧
    (present → d.tdisp = .unlocked → d.resetting = none → exec (.stopInterfaceRequest v) s = .next (outs (.tdisp v 1 none))) ∧
    (¬ present → ∀ i ∈ [Instr.lockInterfaceRequest v n, .startInterfaceRequest v, .stopInterfaceRequest v, .getDeviceInterfaceState v,
        .getDeviceInterfaceReport v, .functionLevelReset v], exec i s = .next s) ∧
    (let begins (stop : Bool) : State := setVd (dropUnplaced s v) v { d with resetting := some (s.now, stop) }
     (present → d.tdisp ≠ .unlocked → d.resetting = none → exec (.stopInterfaceRequest v) s = .next (begins true)) ∧
     (free → exec (.functionLevelReset v) s = .next (begins false)) ∧
     (inReset s v = true → exec (.functionLevelReset v) s = .next s)) ∧
    (d.resetting = some (t0, stop) →
      let r := resetFunction s v
      let w := setVd r v { vdAt r v with tdisp := .unlocked, ide := none, report := none }
      (outstandingOn s v = true → s.now < t0 + 200 * 1750 → endReset s v = s) ∧
      (outstandingOn s v = false ∨ t0 + 200 * 1750 ≤ s.now →
        endReset s v = if stop then { w with outbox := w.outbox ++ [.tdisp v 1 none] } else w)) ∧
    (present → exec (.getDeviceInterfaceState v) s = .next (outs (.tdisp v (16 + tdispNum d.tdisp) none))) ∧
    (present → d.tdisp = .locked ∨ d.tdisp = .run → exec (.getDeviceInterfaceReport v) s = .next (outs (.tdisp v 2 d.report))) ∧
    (present → d.tdisp = .unlocked ∨ d.tdisp = .error → exec (.getDeviceInterfaceReport v) s = .next (outs (.tdisp v 0 none))) ∧
    ((∀ p ∈ s.vds, p.2.ide ≠ some n) → exec (.ideFailure n) s = .next s) ∧
    (s.vds.filter (fun p => p.2.ide = some n) = [(v, d)] → d.tdisp = .locked → exec (.ideFailure n) s = .next (setVd s v { d with tdisp := .error })) ∧
    (s.vds.filter (fun p => p.2.ide = some n) = [(v, d)] → d.tdisp = .run →
      exec (.ideFailure n) s = .next (killVd (setVd s v { d with tdisp := .error, stopped := true }) v (causeCode .tdispError) 1)) ∧
    (let r := resetRegisters d
     r.queues = [] ∧ r.scheduled = false ∧ r.evbase = 0 ∧ r.evctl = 0x24 ∧ r.evhead = 0 ∧ r.evtail = 0 ∧ r.rgen = (d.rgen + 1) % 2 ^ 16 ∧ r.held = [] ∧
      r.resetting = none ∧ r.paused = false ∧ r.rcd = d.rcd ∧ r.winctl = d.winctl ∧ r.dbgsel = d.dbgsel)

/-! ### Events of management -/

/-- R247 to R254, R355, R362, R369 to R371, R383 to R389, R393, R410, R420, R434, R451 to R453: each request of the host driver or of the system debug
agent that passes its checks is carried out and answered DONE, one that fails them is answered REFUSED and changes nothing, and none is accepted before
the bring-up has come to its end; and what the security processor does at a reset, a recovery and a request for evidence. What the spec leaves open in
them is the model's: logs 16 to 19, 32, 39, 41, 53, 62, 63, 66, 68, 70, 71, 103, 107. -/
def Obligations.ManagementEvents : Prop :=
  ∀ (s : State) (k v n a b w z y : Nat) (l m : List Nat) (bs : List Byte) (image : FwImage) (g : PrivRegs),
    let ok (i : Instr) (t : State) : Prop := exec i s = .next { t with outbox := t.outbox ++ [.answer 1 0] }
    let no (i : Instr) : Prop := exec i s = .next { s with outbox := s.outbox ++ [.answer 0 0] }
    let c := ctxAt s k
    let e := attAt s k
    let put (x : Context) : State := setCtx s k x
    let st (x : Nat) : State := setAtt s k (setField e 20 3 x)
    let d := vdAt s v
    (s.phase ≠ 7 → ∀ i ∈ [Instr.contextCreate k v n a b w g, .contextHalt k, .contextUnhalt k, .contextDestroy k, .adapterInstall k n,
        .adapterMoveHome k l, .adapterPin k, .adapterUnpin k, .adapterRetire k, .partitionRecordWrite k n, .vdRecordWrite v n, .pstsQuery k n v,
        .framePoolGive v n l, .pinPoolGive k l, .flowPairing k n a, .fenceUnitRequest n, .quarantineReinit l, .migrationPause v, .marginRevoke n,
        .hallmarkContent k b a n], exec i s = .next s) ∧
    (s.phase = 7 →
      (createFits s k v n a w g.saven = false → no (.contextCreate k v n a b w g)) ∧
      (createFits s k v n a w g.saven = true →
        let p := if b.testBit 2 then b % 8 else 3
        let marks := [firmwareMark s, contextMark n v (vdPart s v) p]
        let new : Context := { Context.reset with state := .idle, vd := v, world := n, table := a, policy := BitVec.ofNat 64 p, marks := marks }
        let base := g.tvec % 2 ^ 64
        let len := g.tvlen % 2 ^ 25
        ok (.contextCreate k v n a b w g) (setCtx (changePot s (0x800000000 + v) ⟨n, 1⟩) k
          { new with hall := digestOf marks, savebase := BitVec.ofNat 64 w, saven := BitVec.ofNat 64 g.saven,
                     tvec := BitVec.ofNat 64 (if base % 8 = 0 ∧ base / 2 ^ 55 = 0 then base else 0),
                     tvlen := BitVec.ofNat 64 (if len % 4 = 0 ∧ len ≤ 2 ^ 24 then len else 0),
                     tdel0 := BitVec.ofNat 64 g.tdel0, tdel1 := BitVec.ofNat 64 (g.tdel1 % 2 ^ 32) })) ∧
      (let may : Prop := c.policy.getLsbD 2 = false ∨ c.policy.getLsbD 1 = true
       (c.state = .idle ∨ c.state = .halted → may → ok (.contextHalt k) s) ∧
       (c.state = .saved → may → ok (.contextHalt k) (put { c with haltPending := true })) ∧
       (c.state = .running → may → let h := haltRunning s k
         ok (.contextHalt k) { h with outbox := h.outbox ++ [.answer 3 (causeCode .haltRequest)] }) ∧
       (c.state = .free ∨ ¬ may → no (.contextHalt k))) ∧
      (c.state = .saved → ok (.contextUnhalt k) (put { c with haltPending := false })) ∧
      (c.state = .halted → let h := releaseHolding (unhaltCores s k)
        ((ctxAt h k).job = none → ok (.contextUnhalt k) h) ∧ ((ctxAt h k).job = some n → ok (.contextUnhalt k) (retireIfMet h n))) ∧
      (c.state = .free ∨ c.state = .idle ∨ c.state = .running → no (.contextUnhalt k)) ∧
      (c.state = .free → no (.contextDestroy k)) ∧
      (c.state ≠ .free → ∀ h, (c.job = none ∧ h = dropHeld s k ∨ c.job = some n ∧ h = dropHeld (killJobFor s n (causeCode .flrKilled) 2) k) →
        ok (.contextDestroy k) (setCtx { h with cached := h.cached.filter fun p => p.ctx ≠ k, pairings := h.pairings.filter fun p => p.1 ≠ k } k
          Context.reset)) ∧
      (c.state = .idle → agentLoad s k a (n / 65536 + 2) n = .ok (.ok bs) →
        let marks := c.marks ++ [hallmark 3 c.marks.length (b % 2 ^ 64) (sha512 bs)]
        ok (.hallmarkContent k b a n) (put { c with marks := marks, hall := digestOf marks })) ∧
      (c.state ≠ .idle → no (.hallmarkContent k b a n)) ∧
      (installFits s k n = true → ok (.adapterInstall k n) (setAtt s k (installed n))) ∧ (installFits s k n = false → no (.adapterInstall k n)) ∧
      (attState e ≠ 0 → l.length = adapterPages e → factorsRead s e l.length 0 = .ok () →
        (∀ f ∈ l, paTier (f * 65536) = some (1 - attHome e) ∧ checkPot s (f * 65536) (attWorld e) false false 0 = .ok ()) →
        let m := ((upFrom 0 l.length).zip l).foldl (fun s p => movePage s e p.1 p.2) s
        let e' := setField e 23 1 (1 - attHome e)
        ok (.adapterMoveHome k l) (setAtt m k (if attState e = 1 ∨ attState e = 2 then setField e' 20 3 (attHomeState e') else e'))) ∧
      (attState e = 0 → ok (.adapterMoveHome k l) s ∧ no (.adapterPin k) ∧ no (.adapterUnpin k) ∧ no (.adapterRetire k)) ∧
      (attState e = 1 ∨ attState e = 2 ∨ attState e = 3 → (∀ die < 4, adapterPages e ≤ (pinPlaces s die).length) →
        (factorsRead s e (adapterPages e) 0 = .ok () → ok (.adapterPin k) (setAtt (pinAll s k e) k (setField e 20 3 4))) ∧
        (∀ x, factorsRead s e (adapterPages e) 0 = .error x → let t := absorb s (.error x : Res Unit)
          exec (.adapterPin k) s = .next { t with outbox := t.outbox ++ [.answer 0 0] })) ∧
      (attState e = 4 → ok (.adapterPin k) s ∧
        (let u := { s with pinned := s.pinned.filter fun p => p.adapter ≠ k }
         ok (.adapterUnpin k) (setAtt u k (setField e 20 3 (if 0 < attCrefs e + attOrefs e then 3 else attHomeState e))) ∧
         (0 < attCrefs e + attOrefs e → ok (.adapterRetire k) (setAtt u k (setField e 20 3 5))) ∧
         (attCrefs e + attOrefs e = 0 → ok (.adapterRetire k) (setAtt u k (setField (setField e 20 3 0) 272 44 0))))) ∧
      (attState e = 1 ∨ attState e = 2 → ok (.adapterUnpin k) s ∧ ok (.adapterRetire k) (setAtt s k (setField (setField e 20 3 0) 272 44 0))) ∧
      (attState e = 3 → ok (.adapterUnpin k) s ∧ ok (.adapterRetire k) (st 5)) ∧
      (attState e = 5 → ok (.adapterUnpin k) s ∧ ok (.adapterRetire k) s ∧ no (.adapterPin k)) ∧
      (let r := n % 2 ^ 226
       (partitionFits s k r = true →
         ok (.partitionRecordWrite k n) (applyParts { revokePart s k with partsNew := tabSet none s.partsNew k (some r) })) ∧
       (partitionFits s k r = false → no (.partitionRecordWrite k n))) ∧
      (rcdFits s v (rcdWritten n) = true → ok (.vdRecordWrite v n) (setVd s v { d with rcdNew := rcdWritten n })) ∧
      (rcdFits s v (rcdWritten n) = false → no (.vdRecordWrite v n)) ∧
      (n < arbiterCount k → v < 384 → let p := purseAt s k n v
        exec (.pstsQuery k n v) s = .next { s with outbox := s.outbox ++ [.answer 2 ((p.bal % 2 ^ 17).toNat + p.bor * 2 ^ 17 +
          (if p.idle then 2 ^ 33 else 0) + (if p.short then 2 ^ 34 else 0))] }) ∧
      (v < 384 → l.eraseDups = l → (∀ f ∈ l, paTier (f * 65536) = some n ∧ frameMapped s f = true ∧ (potAt s f).state = 0 ∧ pooled s f = false) →
        (n = 0 → ok (.framePoolGive v n l) (setVd s v { d with hbmPool := d.hbmPool ++ l })) ∧
        (n = 1 → ok (.framePoolGive v n l) (setVd s v { d with cxlPool := d.cxlPool ++ l }))) ∧
      (k < 4 → (∀ x ∈ l, x < 96 ∧ s.fenced.contains (1024 + k * 96 + x) = false ∧ ∀ q ∈ upFrom (k * 16) 16,
          (recVaults (tabGet 0 s.parts q)).testBit x = false ∧ (recVaults (partNow s q)).testBit x = false) →
        ok (.pinPoolGive k l) { s with pinPools := tabSet [] s.pinPools k (l.foldl (fun t x => setAdd x t) (tabGet [] s.pinPools k)) }) ∧
      (k < 512 → c.state ≠ .free → n < 4096 → a < 512 → ok (.flowPairing k n a)
        { s with pairings := (s.pairings.filter fun p => !(p.1 = k && p.2.1 = n)) ++ [(k, n, a)] }) ∧
      (n < 192 ∨ 1024 ≤ n ∧ n < 1408 ∨ 2048 ≤ n ∧ n < 2112 ∨ 3072 ≤ n ∧ n < 3104 ∨ 3584 ≤ n ∧ n < 3588 → ok (.fenceUnitRequest n) (fenceUnit s n)) ∧
      (let f := fenceUnit s n
       let told := s.outbox ++ [.error 0x4E 0 0 n]
       (n ∈ s.fenced → f = s) ∧
       (n ∉ s.fenced → f.fenced = setAdd n s.fenced ∧
        (n < 192 → ((∀ a b, tabGet .home s.margins n ≠ .lent a b) → tabGet .home f.margins n = .fenced) ∧
          (∀ a b, tabGet .home s.margins n = .lent a b → f.margins = s.margins) ∧ f.outbox = told ∧ ∀ q ∈ upFrom (n / 48 * 16) 16, q < 64 →
          (recClusters (tabGet 0 f.parts q)).testBit (n % 48) = false) ∧
        (1024 ≤ n → n < 1408 → f.outbox = told ∧ ∀ q ∈ upFrom ((n - 1024) / 96 * 16) 16, q < 64 →
          (tabGet 0 f.parts q).testBit (96 + (n - 1024) % 96) = false) ∧
        (3072 ≤ n → n < 3104 → f.portsDown = setAdd (n - 3072) s.portsDown ∧ f.outbox = told) ∧
        (3584 ≤ n → n < 3588 → f.cxlDown = setAdd (n - 3584) s.cxlDown ∧ f.outbox = told ++ [.error (causeCode .poisonCxl) 0 0 (n - 3584)]))) ∧
      ((∀ f ∈ l, (potAt s f).state = 4) → ok (.quarantineReinit l) (l.foldl reinitFrame { s with epoch := s.epoch + 1 })) ∧
      ((∃ f ∈ l, (potAt s f).state ≠ 4) → no (.quarantineReinit l)) ∧
      (v < 384 → ok (.migrationPause v) ((vdJobs s v).foldl (fun s p => pauseJob s p.1) (setVd s v { d with paused := true }))) ∧
      (n < 192 → ((∀ p q, tabGet .home s.margins n ≠ .lent p q) → ok (.marginRevoke n) s) ∧
        (∀ p q, tabGet .home s.margins n = .lent p q → ok (.marginRevoke n) ((jobsOn s n).foldl revokeJob s))) ∧
      (192 ≤ n → no (.marginRevoke n))) ∧
    (s.identity = false → exec (.spdmMessage k) s = .next s) ∧
    (s.identity = true →
      let marks := if c.state = .free then [firmwareMark s] else c.marks
      let e := marks.flatten ++ (digestOf marks).flatMap fun w => natLe 8 w.toNat
      exec (.spdmMessage k) s = .next
        { s with outbox := s.outbox ++
          [.spdm marks (digestOf marks) (Config.certificate s.idSeed) (Config.ed25519Sign s.idSeed e) (Config.mlDsaSign s.idSeed e)] }) ∧
    (exec (.packageReset n l m) s = .next
      { State.reset with
        turn := s.turn, tick := s.tick, now := s.now, outbox := s.outbox, package := n % 4096, epoch := s.epoch, fwFused := s.fwFused,
        idSeed := s.idSeed, flash := s.flash, firstBoot := s.firstBoot, ageing := s.ageing, fwVersion := 0, fwHash := [],
        portsDown := l.filter (· < 32), cxlDown := m.filter (· < 4), identity := false, phase := 1 }) ∧
    (imageRuns s image = true ↔ Config.ed25519Verifies (sha512 image.bytes) image.ed25519 = true ∧
      Config.mlDsaVerifies (sha512 image.bytes) image.mlDsa = true ∧ s.fwFused ≤ image.version.toNat) ∧
    (s.phase = 1 → imageRuns s s.flash = false → imageRuns s image = true →
      exec (.recoveryImageSupply image.version image.bytes (image.ed25519, image.mlDsa)) s = .next { s with flash := image, phase := 2 }) ∧
    (s.phase ≠ 1 ∨ imageRuns s s.flash = true ∨ imageRuns s image = false →
      exec (.recoveryImageSupply image.version image.bytes (image.ed25519, image.mlDsa)) s = .next s) ∧
    (let up (t : State) : Prop := takeTurn s (.act .bringUp) = .next t
     (s.phase = 1 → (imageRuns s s.flash = true → up { s with phase := 2 }) ∧ (imageRuns s s.flash = false → up s)) ∧
     (s.phase = 2 → up { s with phase := 3, fwVersion := s.flash.version.toNat, fwHash := sha512 s.flash.bytes }) ∧
     (s.phase = 3 → up { s with phase := 4 }) ∧
     (s.phase = 4 → up { s with phase := 5, pot := [], majors := [], minors := [], treeCtrs := [], treeDirty := [] }) ∧
     (s.phase = 5 → up { s with phase := 6 }) ∧
     (s.phase = 6 → up { s with phase := 7, identity := true }) ∧
     (7 ≤ s.phase → up s)) ∧
    takeTurn s (.act .firmwareFail) = .next
      (((jobList s).filter fun p => standing p.2).foldl (fun s p => killJob s p.1 (causeCode .firmwareFault)) s) ∧
    (y < 256 → z < 6 → (rangeTier (k * 65536)).isSome = true → frameMapped s k = true →
      exec (.pageOwnershipChange k y z) s = .next (changePot s k ⟨y, z⟩)) ∧
    (y < 256 → exec (.worldKeyInstall y) s = .next { s with keys := setAdd y s.keys })

/-! ### Events of power, purses and pages -/

/-- R388, R390, R410, R411, R432, R433, R447 to R450: a purse's refill, once in a period; the governor's measurements and recovery steps; what it does on
a die's temperature; the ageing measurement and what the host reads of it; the end of a page request and of a migration; and a CXL link or a fabric
port that goes down, which counts as an error of its unit. The times of a measurement, the controllers' margins, the tag of a page sent to the host, the
errors of an evicted page, the numbering of the units, what counts against a unit, and that a frame which is no longer FREE is none for a request are the
model's (logs 14, 15, 39, 42, 53, 65, 94, 96, 121). -/
def Obligations.PowerAndPageEvents : Prop :=
  ∀ (s : State) (k n w f tier page : Nat) (cool : Bool) (l l2 : List Nat) (got : Option (List Byte)) (bs : List Byte) (r : PageRequest) (m : Migration)
    (x : Served),
    let h (die : Nat) : Nat := (tabGet healthReset s.health die).toNat
    let cstep (die : Nat) : Nat := h die / 2 ^ 43 % 256
    let vstep (die : Nat) : Nat := h die / 2 ^ 40 % 8
    let all (g : Nat → Nat) : State := mapHealth s g
    let slow (x : Nat) : Nat := setField x 43 8 (min 30 (x / 2 ^ 43 % 256 + 1))
    (n < arbiterCount k → tabGet 0 s.refills (k * 2048 + n) < s.now / 1024 →
      let vs := servedVds s k n
      let b := vs.foldl (adoptPcfg k) { s with refills := tabSet 0 s.refills (k * 2048 + n) (s.now / 1024) }
      let turns := min refillEnough (s.now / 1024 - tabGet 0 s.refills (k * 2048 + n))
      exec (.purseRefill k n) s =
        .next ((refillTimes turns (vs.map fun v => ⟨v, pcfg b v k, purseAt b k n v⟩)).foldl (fun s x => setPurse s k n x.vd x.purse) b)) ∧
    (s.now / 1024 ≤ tabGet 0 s.refills (k * 2048 + n) → exec (.purseRefill k n) s = .next s) ∧
    (let full := min (purseDepth x.cfg : Int) (x.purse.bal + purseFill x.cfg)
     let lent : Prop := purseLend x.cfg = true ∧ x.purse.idle = true ∧ 0 < full
     let back := if purseBorrow x.cfg = true ∧ x.purse.short = true then min (purseDepth x.cfg) (if lent then full.toNat else 0) else 0
     (lent → refill [x] = [{ x with purse := ⟨0, back, true, false⟩ }]) ∧ (¬ lent → refill [x] = [{ x with purse := ⟨full, 0, true, false⟩ }])) ∧
    (2400 < w → exec (.governorMeasure w) s =
      .next { (if vstep 0 < 7 then all fun x => setField x 40 3 (vstep 0 + 1) else all slow) with govRun := 0, pin := s.pin }) ∧
    (2250 ≤ w → w ≤ 2400 → exec (.governorMeasure w) s = .next { s with govRun := 0 }) ∧
    (w < 2250 → exec (.governorMeasure w) s =
      .next { s with govRun := s.govRun + 1, pin := if 11 ≤ s.govRun + 1 then some (.event .governorRecoveryStep) else s.pin }) ∧
    (11 ≤ s.govRun →
      ((∃ die < 4, cstep die ≠ 0) → exec .governorRecoveryStep s = .next { all (fun x => setField x 43 8 (x / 2 ^ 43 % 256 - 1)) with govRun := 1 }) ∧
      ((∀ die < 4, cstep die = 0) → exec .governorRecoveryStep s = .next { all (fun x => setField x 40 3 (x / 2 ^ 40 % 8 - 1)) with govRun := 1 })) ∧
    (s.govRun < 11 → exec .governorRecoveryStep s = .next s) ∧
    (k < 4 → let b := setHealth s k (setField (h k) 32 8 (min 255 w))
      (w < 100 → let c := if w < 90 ∧ (h k).testBit 51 = false then { b with tripped := b.tripped.filter (· ≠ k) } else b
        exec (.thermalClockStep k w) s = .next c ∧ exec (.thermalTrip k w false) s = .next c) ∧
      (100 ≤ w → w < 110 → let c := setHealth b k (slow (tabGet healthReset b.health k).toNat)
        exec (.thermalClockStep k w) s = .next c ∧ exec (.thermalTrip k w false) s = .next c) ∧
      (let c := setHealth { b with tripped := setAdd k b.tripped } k (setField (tabGet healthReset b.health k).toNat 51 1 1)
       let d := ((jobList c).filter fun p => onDie c k p.2).foldl (fun s p => killJob s p.1 (causeCode .thermalTrip)) c
       let e := { d with outbox := d.outbox ++ [.error (causeCode .thermalTrip) 0 0 k] }
       (110 ≤ w → exec (.thermalClockStep k w) s = .next e) ∧ (110 ≤ w ∨ cool = true → exec (.thermalTrip k w cool) s = .next e))) ∧
    (k < 4 → l.length = 64 →
      let boot := bootFreqs s k l
      let shifts := ((upFrom 0 64).zip l).map fun p => monitorShift (tabGet 0 boot (64 * k + p.1)) p.2
      let past := (tabGet [] s.ageing k).filter fun q => decide (s.now ≤ q.1 + 1000 * hourCycles)
      let old := past.headD (s.now, shifts)
      let worst := largestShift shifts
      let eolh := hoursToEnd (old.2.getD worst.1 0) worst.2 (s.now - old.1)
      exec (.ageingMeasure k l l2) s = .next { setHealth s k (setField (setField (h k) 0 32 eolh) 52 6 worst.1) with
        firstBoot := boot, ageing := tabSet [] s.ageing k (past ++ [(s.now, shifts)]),
        margin := ((upFrom 0 216).zip l2).foldl (fun t q => tabSet 0 t q.1 q.2) s.margin }) ∧
    (0 < n → monitorShift n w = (if w ≤ n then n - w else w - n) * 10 ^ 9 / n) ∧
    (5 * 10 ^ 7 ≤ w → hoursToEnd n w k = 0) ∧ (w < 5 * 10 ^ 7 → w ≤ n → hoursToEnd n w k = 2 ^ 32 - 1) ∧
    (w < 5 * 10 ^ 7 → n < w → hoursToEnd n w k = min (2 ^ 32 - 1) ((5 * 10 ^ 7 - w) * k / ((w - n) * 6300000000000))) ∧
    (s.phase = 7 → k < 4 → takeTurn s (.act (.healthRead k)) = .next { s with outbox := s.outbox ++ [.health k (h k) s.margin] }) ∧
    (s.pageReqs.find? (fun q => q.ctx = k && q.page = page) = some r →
      let b := { s with pageReqs := s.pageReqs.filter fun q => q ≠ r }
      (walk s k (page * 65536) = .error .busy → exec (.pageRequestDone k page got) s = .next s) ∧
      (walk s k (page * 65536) ≠ .error .busy →
        r.frame = none ∨ (∃ x, r.frame = some x ∧ (potAt s x.1).state ≠ 0) → exec (.pageRequestDone k page got) s = .next (failRequest b r.ctx r.page 1)) ∧
      (walk s k (page * 65536) ≠ .error .busy → r.frame = some (f, tier) → (potAt s f).state = 0 →
        (openContents r got = none → exec (.pageRequestDone k page got) s = .next (failRequest (giveFrame b r.vd tier f) r.ctx r.page 4)) ∧
        (∀ e, openContents r got = some bs → walk b r.ctx (r.page * 65536) = .error e →
          exec (.pageRequestDone k page got) s = .next (clearAsked (giveFrame (absorb b (.error e : Res Unit)) r.vd tier f) r.ctx r.page)) ∧
        (∀ l, openContents r got = some bs → walk b r.ctx (r.page * 65536) = .ok l →
          (l.entry ≠ r.leaf → exec (.pageRequestDone k page got) s = .next (clearAsked (giveFrame b r.vd tier f) r.ctx r.page)) ∧
          (l.entry = r.leaf →
            let i := changePot (fillFrame b f bs) f (frameOwner (pteWorld r.leaf))
            let i := writeEntry i r.ctx l.place (setField (setField (setField r.leaf 8 1 0) 9 1 tier) 16 36 f)
            exec (.pageRequestDone k page got) s = .next (writeHeld (clearAsked (endPmigs i r.ctx r.page 0) r.ctx r.page) r.vd))))) ∧
    (s.pageReqs.find? (fun q => q.ctx = k && q.page = page) = none → exec (.pageRequestDone k page got) s = .next s) ∧
    (s.migs.find? (fun q => q.ctx = k && q.page = page) = some m →
      let b := (m.old :: m.frame.toList).foldl meetErrors (flushFrame { s with migs := s.migs.filter fun q => q ≠ m } m.old)
      let fits : Prop := framesSound b m = true ∧ evictable b m = true ∧ leNat (physBytes b m.leafAt 8) = m.leaf
      (fits → m.frame = some f →
        let c := movePot (copyFrame b m.old f) f (frameOwner (pteWorld m.leaf))
        let c := writeEntry c m.ctx m.leafAt (setField (setField (setField m.leaf 12 1 0) 9 1 (tierOf f)) 16 36 f)
        exec (.migrationComplete k page) s = .next (endPmigs (scrubFrame c m.vd m.old) m.ctx m.page 0)) ∧
      (fits → m.frame = none →
        let tag := Config.hostTag b.tick % 2 ^ 36
        let c := writeEntry (sendPage b m.conf m.vd m.old (pteWorld m.leaf) tag) m.ctx m.leafAt (setField (setField (setField m.leaf 12 1 0) 8 1 1) 16 36 tag)
        exec (.migrationComplete k page) s = .next (endPmigs (scrubFrame c m.vd m.old) m.ctx m.page 0)) ∧
      (¬ fits → exec (.migrationComplete k page) s = .next (abandonMigration b m))) ∧
    (s.migs.find? (fun q => q.ctx = k && q.page = page) = none → exec (.migrationComplete k page) s = .next s) ∧
    (k < 4 → exec (.cxlLinkDown k) s = .next { s with cxlDown := setAdd k s.cxlDown, outbox := s.outbox ++ [.error (causeCode .poisonCxl) 0 0 k] }) ∧
    (k < 32 → let down := noteError { s with portsDown := setAdd k s.portsDown } (3072 + k)
      (8 < n → exec (.flitCrcFail k n) s = .next down) ∧ takeTurn s (.act (.lockLoss k)) = .next down ∧
      (n ≤ 8 → exec (.flitCrcFail k n) s = .next s))

/-! ### Events of the fabric and of groups -/

/-- R302, R310, R311, R325, R326, R331, R369, R433, R435 to R439, R442: a part that arrives is answered and, in an ORDERED flow, taken in sequence; a
response, a refusal and a resend move a part of a core, but while its job is halted; late parts, open frames and flags come to their limits; a package
that goes down ends flows and groups; and a group is formed, aborted, and hears its members' joins and contributions. The layout of a message, the runs of
a part, the port that sends, what is charged, the order of reasons, that the joins, withdrawals and refusals of members are turns, and that of two members
of one rank the later is refused, are the model's (logs 23, 28, 40, 43, 45, 95, 101, 106, 117, 118). -/
def Obligations.FabricEvents : Prop :=
  ∀ (s t : State) (k c pkg ctx flow seq type va arg part key n : Nat) (bs out : List Byte) (e : QEntry) (p refusals crc : Nat) (y : Contribution)
    (j : JoinRec),
    let peer := rxKey pkg ctx (argRank arg) flow
    let row : RxPart := ⟨seq % 2 ^ 24, type, va, arg, bs⟩
    let rx := rxFlowAt s peer
    let said (u : State) (kind status : Nat) (bs : List Byte) : State :=
      { u with outbox := u.outbox ++ [.response (keyPkg peer) (keyCtx peer) (keyRank peer) (keyFlow peer) (seq % 2 ^ 24) kind status bs] }
    let answered (u : State) (kind st : Nat) (bs : List Byte) : State :=
      said (chargeSend u (ctxAt u k).vd (keyPkg peer) (flitsOf bs.length)) kind st bs
    let arrives : Prop := (type = 0 ∨ type = 1 ∨ type = 3) ∧ localContext s pkg ctx = some k
    let turned : Prop := (ctxAt s k).state = .free ∨ rx.dead = true ∨ inReset s (ctxAt s k).vd = true
    let i : Instr := .remotePartArrive pkg ctx flow seq type va arg bs
    (type = 6 → exec i s = .next (flowControl s peer (arg / 2 ^ 64 % 8))) ∧
    (type ≠ 0 → type ≠ 1 → type ≠ 3 → type ≠ 6 → exec i s = .next s) ∧
    (type = 0 ∨ type = 1 ∨ type = 3 → localContext s pkg ctx = none → exec i s = .next (respond s peer seq 5 65536 [])) ∧
    (arrives → turned → exec i s = .next (said s 5 65536 [])) ∧
    (arrives → ¬ turned → (ctxAt s k).state = .halted → exec i s = .next { s with holding := s.holding ++ [(k, .arrive pkg ctx flow row)] }) ∧
    (arrives → ¬ turned → (ctxAt s k).state ≠ .halted →
      let late : Prop := rx.ordered = true ∧ 2 ^ 23 ≤ (seq % 2 ^ 24 + 2 ^ 24 - rx.next) % 2 ^ 24
      (late → exec i s = .next s) ∧
      (¬ late → rx.held = [] → tabSorted s.rxFlows = true →
        let here := setRxFlow s peer { rx with held := [row] }
        let b := setRxFlow here peer { rx with held := [] }
        let turn : Prop := rx.ordered = true → seq % 2 ^ 24 = rx.next
        (¬ turn ∨ arg / 2 ^ 16 % 2 ^ 16 ≠ 0 → exec i s = .next here) ∧
        (turn → arg / 2 ^ 16 % 2 ^ 16 = 0 →
          (landPart b k peer [row] = (t, .ok out) →
            let g := rxFlowAt (answered t (responseType row) 0 out) peer
            exec i s = .next (setRxFlow (answered t (responseType row) 0 out) peer
              (if g.ordered then { g with next := (seq % 2 ^ 24 + 1) % 2 ^ 24 } else g))) ∧
          (landPart b k peer [row] = (t, .error notYet) → exec i s = .next
            { b with purses := t.purses, holding := b.holding ++ [(k, .arrive (keyPkg peer) (keyCtx peer) (keyFlow peer) row)] }) ∧
          (0 < n → n ≠ notYet → landPart b k peer [row] = (t, .error n) →
            (n ≠ 65536 ∨ rx.ordered = false → exec i s = .next (answered t 5 n [])) ∧
            (n = 65536 → rx.ordered = true →
              exec i s = .next (setRxFlow (answered t 5 n []) peer { rxFlowAt (answered t 5 n []) peer with held := [] })))))) ∧
    (responseType row = if type = 1 then 2 else if type = 3 then 4 else 5) ∧
    (∀ kind len ps, landRange s k kind 2 va (len row) = (t, .ok ps) → landRuns s k kind len [row] = (t, .ok [ps])) ∧
    (type = 0 → arg / 2 ^ 64 % 2 = 0 → ∀ more ps, landRuns s k .write (fun p => p.payload.length) (row :: more) = (t, .ok ps) →
      landPart s k peer (row :: more) = (((row :: more).zip ps).foldl (fun s r => writePieces s k r.2 r.1.payload) t, .ok [])) ∧
    (type = 1 → ∀ more ps, landRuns s k .read partArg (row :: more) = (t, .ok ps) →
      landPart s k peer (row :: more) = (t, .ok (ps.flatMap (readPieces t)))) ∧
    (type = 3 → arg / 2 ^ 64 < 256 → ∀ ps, landRange s k .atomic 2 va (arg / 2 ^ 64) = (t, .ok ps) → let old := readPieces t ps
      landPart s k peer [row] = (writePieces t k ps (natLe (arg / 2 ^ 64) (leNat old + leNat bs)), .ok old)) ∧
    (type = 3 → n < 256 → arg / 2 ^ 64 = n + 256 → ∀ ps, landRange s k .atomic 2 va n = (t, .ok ps) → let old := readPieces t ps
      landPart s k peer [row] = (if old = bs.drop n then writePieces t k ps (bs.take n) else t, .ok old)) ∧
    (localContext s pkg ctx = some k →
      let b := { s with rxRows := s.rxRows.filter fun r => !(r.flow = rxKey pkg ctx (flow / 16) flow && r.slot = n) }
      let missing (u : Outcome) : Prop := exec (.rowMissingNotice pkg ctx flow va n) s = u
      let later (p : Tab Purse) : State := { s with purses := p, holding := s.holding ++ [(k, .missing pkg ctx flow va n)] }
      (inReset s (ctxAt s k).vd = true → missing (.next s)) ∧
      (inReset s (ctxAt s k).vd = false →
        ((ctxAt s k).state = .halted → missing (.next (later s.purses))) ∧
        ((ctxAt s k).state ≠ .halted →
          (landRead b k va 64 = (t, .error c) → missing (.next (if c = notYet then later t.purses else t))) ∧
          (landRead b k va 64 = (t, .ok bs) →
            ((batchOf bs).statVa = 0 ∨ (batchOf bs).cap ≤ n → missing (.next t)) ∧
            ((batchOf bs).statVa ≠ 0 → n < (batchOf bs).cap → ∀ u x, landWrite t k ((batchOf bs).statVa + n) [2] = (u, x) →
              (x = .error notYet → missing (.next (later u.purses))) ∧ (x ≠ .error notYet → missing (.next u))))))) ∧
    (localContext s pkg ctx = none → exec (.rowMissingNotice pkg ctx flow va n) s = .next s) ∧
    (c < coreCount → let x := coreAt s c
      x.job ≠ none →
      ((ctxAt s x.ctx).state = .halted →
        exec (.partPerformed c part bs) s = .next { s with holding := s.holding ++ [(x.ctx, .performed c part bs)] } ∧
        exec (.partRefused c part n) s = .next { s with holding := s.holding ++ [(x.ctx, .refused c part n)] } ∧
        exec (.partResend c part) s = .next s ∧ exec (.remoteTimeout c flow) s = .next s) ∧
      ((ctxAt s x.ctx).state ≠ .halted → findPart x part = some (e, p) →
        let at_ := partAt (partsOf e) p
        let f := flowAt x (part / 2 ^ 24)
        (returnsBytes e = false → exec (.partPerformed c part bs) s =
          .next (putCore s c (putPart (lowerPb x f (partSize e p)) e p
            { at_ with state := .performed, copy := if sendsRows e then at_.copy.take 4 else [], back := none }))) ∧
        (returnsBytes e = true → bs.length = partSize e p →
          exec (.partPerformed c part bs) s = .next (putCore s c (putPart x e p { at_ with back := some bs }))) ∧
        (at_.state = .sent refusals crc →
          (n = 0 → exec (.partRefused c part n) s = .next (errorPort s c (part / 2 ^ 24) (some e.seq) .flowError)) ∧
          (0 < n → n < 65536 → refusals + 1 ≠ 16 → exec (.partRefused c part n) s =
            .next (putCore s c (putPart x e p { at_ with state := .refused (s.now + n * 1750) (refusals + 1) }))) ∧
          (0 < n → n < 65536 → refusals + 1 = 16 →
            exec (.partRefused c part n) s = .next (errorPort s c (part / 2 ^ 24) (some e.seq) .remoteRefusedLimit)) ∧
          (65536 ≤ n → crc + 1 = 4 → exec (.partRefused c part n) s = .next (errorPort s c (part / 2 ^ 24) (some e.seq) .linkDataCorrupt)) ∧
          (65536 ≤ n → crc + 1 ≠ 4 → exec (.partRefused c part n) s = .next (resend s c x e p refusals (crc + 1)))) ∧
        (∀ due, at_.state = .refused due refusals →
          let vd := (ctxAt s x.ctx).vd
          let ready : Prop := due ≤ s.now ∧ reachable s (flowPeer f) = true ∧
            (refusals = 0 → p < lowPart e + 256 ∧ heldBefore x (part / 2 ^ 24) at_.seq = false ∧ credited s f (partSize e p) = true)
          let port := sendingPort s (flowPeer f)
          let sent : Part := { at_ with state := .sent refusals 0, sentAt := s.now }
          let ms := partMessages s.package x f (part / 2 ^ 24) e p sent
          (ready → funded s 5 port vd = true → exec (.partResend c part) s = .next
            (chargeSend { putCore s c (putPart x e p sent) with outbox := (putCore s c (putPart x e p sent)).outbox ++ ms } vd (flowPeer f) ms.length)) ∧
          (ready → funded s 5 port vd = false → exec (.partResend c part) s = .next (shortPurse s 5 port vd)) ∧
          (¬ ready → exec (.partResend c part) s = .next s))) ∧
      ((ctxAt s x.ctx).state ≠ .halted →
        (x.qdata.head? = some e → linkFlow e.instr = some flow → (∃ q ∈ partsOf e, (∃ a b, q.2.state = .sent a b) ∧ q.2.back = none ∧
            q.2.sentAt + 3500000 ≤ s.now) →
          exec (.remoteTimeout c flow) s = .next (errorPort s c flow (some e.seq) .remoteTimeout)) ∧
        ((∀ e ∈ x.qdata, partLate s.now flow e = false) → exec (.remoteTimeout c flow) s = .next s))) ∧
    (let b := focusOn s c
     let f := flowAt b.core flow
     enginesRun s c = true →
      (flowRows f ≠ 0 → f.since + flowFtim f * 1750 ≤ s.now → exec (.frameFillTimeout c flow) s = .next (closeFrame b flow)) ∧
      (flowRows f = 0 ∨ s.now < f.since + flowFtim f * 1750 → exec (.frameFillTimeout c flow) s = .next s) ∧
      (∀ fl a h z since w, workEntry b .data = some e → e.instr = .dfencef fl a h z → e.stall = some (since, w) → e.stopped = false →
        let limit := ((e.hvals.drop 1).headD 0).toNat
        (limit ≠ 0 → since + limit * 1750 ≤ s.now → exec (.flagLate c) s = .next (engineFault b .data e { cause := .flagLate })) ∧
        (limit = 0 ∨ s.now < since + limit * 1750 → exec (.flagLate c) s = .next s))) ∧
    (let b := { s with peersDown := setAdd pkg s.peersDown,
                       rxFlows := s.rxFlows.map fun p => (p.1, if keyPkg p.1 = pkg then { p.2 with held := [] } else p.2) }
     let b := (portCores b).foldl (downFlows pkg) b
     exec (.linkDown pkg) s = .next ((groupsWith b pkg).foldl (fun s g => abortGroup s g.1 6 g.2) b)) ∧
    (groupReady s key = false → exec (.groupFormed key) s = .next s) ∧
    (groupReady s key = true → exec (.groupFormed key) s = .next ((s.joins.filter fun j => j.key = key).foldl completeJoin
      { s with joins := s.joins.filter fun j => j.key ≠ key })) ∧
    (takeTurn s (.act (.joinArrive pkg j.key j.rank j.size j.hall j.members)) = .next
      (let r := { j with place := none }
       if keyStands s j.key then { s with outbox := s.outbox ++ [.group pkg j.key j.rank 3 4] }
       else if s.joins.any fun i => i.key = j.key && i.rank = j.rank then { s with outbox := s.outbox ++ [.group pkg j.key j.rank 3 2] }
       else compareJoins { s with joins := s.joins ++ [r] } r)) ∧
    (takeTurn s (.act (.joinWithdrawn key p)) = .next
      { s with joins := s.joins.filter fun j => !(j.key = key && j.rank = p && j.place.isNone) }) ∧
    (s.joins.find? (fun j => j.key = key && j.rank = p && j.place.isSome) = some j → j.place = some (c, n) →
      takeTurn s (.act (.joinRefused key p k)) = .next
        (abortGroup (putCore s c (setGroup (coreAt s c) n { GroupSlot.free with reason := 16 + k })) key 7 j.members)) ∧
    (∀ g : GroupSlot, j.place = some (c, n) → groupAt (focusOn s c).core n = g → g.state = 1 → g.key = j.key →
      let b := { focusOn s c with cur := .c }
      completeJoin s j = advanceBy { b with core := setGroup b.core n { g with state := 2, seq := 0 } } 4) ∧
    (exec (.abortNotice key n) s = .next
      { s with
        core := abortCore key n s.core, others := s.others.map fun p => (p.1, abortCore key n p.2),
        jobs := s.jobs.map fun p => (p.1, p.2.map fun j => { j with image := j.image.map (abortCore key n) }),
        joins := s.joins.filter fun j => j.key ≠ key }) ∧
    (keyHeld s y.key = true → (∀ x ∈ s.contribs, x.key ≠ y.key ∨ x.seq ≠ y.seq ∨ x.rank ≠ y.rank) →
      exec (.groupContributionArrive y) s = .next { s with contribs := s.contribs ++ [y] }) ∧
    (keyHeld s y.key = true → (∀ x ∈ s.contribs, x.sent = false) → y.sent = true →
      exec (.groupContributionArrive y) s = .next
        { s with contribs := (s.contribs.filter fun x => !(x.key = y.key && x.seq = y.seq && x.rank = y.rank)) ++ [y] }) ∧
    (keyHeld s y.key = false → exec (.groupContributionArrive y) s = .next s)

/-! ### Reset, and what every step keeps -/

/-- R5, R80, R126, R134, R227, R263, R322, R337, R345, R355, R367, R373, R385, R389, R393, R410, R429, R449: after the bring-up every context is FREE with
WAITCTL 30, every stream is IDLE in a core without job, lease or membership, every function is CONFIG_UNLOCKED with its queue and event registers at
their reset values, every purse is idle and every margin unit at home; and the invariants of `StepsSettle` and `StepsKeepTables` hold. That State.reset
stands behind the bring-up, and the values of registers for which the spec gives none, are the model's choices (logs 3, 5). -/
def Obligations.ResetState : Prop :=
  let s := State.reset
  settled s ∧ tidy s ∧ s.phase = 7 ∧ s.outbox = [] ∧
  (∀ k, (ctxAt s k).state = .free ∧ (ctxAt s k).waitctl = 30 ∧ (ctxAt s k).tiles = [] ∧ (ctxAt s k).requests = [] ∧ (ctxAt s k).job = none) ∧
  (∀ n st, (streamOf (coreAt s n) st).state = .idle ∧ (coreAt s n).job = none ∧ (coreAt s n).lease = .none ∧
    (coreAt s n).qdata ++ (coreAt s n).qvec ++ (coreAt s n).qmat ++ (coreAt s n).qgrp = [] ∧ ∀ k, (groupAt (coreAt s n) k).state = 0) ∧
  (∀ v q, (queueAt s v q).qctl = 4 ∧ (queueAt s v q).tail = 0 ∧ (queueAt s v q).prog = 0 ∧ (queueAt s v q).done = 0 ∧ (queueAt s v q).qsts = 0 ∧
    (vdAt s v).evctl = 0x24 ∧ (vdAt s v).evhead = 0 ∧ (vdAt s v).evtail = 0 ∧ (vdAt s v).rgen = 0 ∧ (vdAt s v).dbgctl = 4 ∧
    (vdAt s v).tdisp = .unlocked ∧ (vdAt s v).hbmPool = [] ∧ (vdAt s v).cxlPool = []) ∧
  (∀ k n v, (purseAt s k n v).idle = true ∧ (purseAt s k n v).short = false) ∧ (∀ u, tabGet .home s.margins u = .home) ∧
  (∀ die, tabGet healthReset s.health die = 0xFFFFFFFF)

/-- R318, R384: after every step, a partition record waits only while a job that uses its partition is resident, and the count of a core's deadlock
detector runs exactly while the detector's conditions hold. -/
def Obligations.StepsSettle : Prop := ∀ s t : State, settled s → step s = .next t → settled t

/-- R135, R226, R311, R326, R364 to R366, R369: whatever a step writes, scrubs, saves, restores, holds or aborts, the memory, the vaults and the tables of
every core, context, virtual device and peer's flow stay in their one canonical form, so that equal contents are equal data. The statements that ask for
that form of a table therefore hold of every state that a run reaches. -/
def Obligations.StepsKeepTables : Prop := ∀ s t : State, tidy s → step s = .next t → tidy t
end

