-- ==== Sys2Proof/Laws/Elements.lean ====
section
/-! SUPPORT. The elements of operands of the scratchpad: what the statements say of an element's bits, value and place is what the model's reads and
writes give (R147 to R149, R179). -/

namespace Sys2Proof.Claims
open Sys2Proof.Machine

/-- An operand of the scratchpad stands in no ring, so a place is its offset from BASE (R147). -/
theorem spotOf_region {o : Operand} (h : o.d.type = 1) (p : Int) : spotOf o p = descBase o.d + p := by simp [spotOf, h]

/-- An element's place is the one the statements name (R147, R148). -/
theorem elemSpot_region {o : Operand} (h : o.d.type = 1) (k : Nat) : elemSpot o k = elemAt o.d k := by
  simp only [elemSpot, elemAt, spotOf_region h, place]
  split_ifs <;> simp [Int.add_assoc]

/-- Bytes of the scratchpad that can be read are read (R17, R147). -/
theorem opLoad_region {s : State} {o : Operand} {a : Int} {n v : Nat} (ht : o.d.type = 1) (h : spadHolds s a n v) :
    opLoad s o a n = .ok (s, some (spadBytes s a.toNat n)) := by
  obtain ⟨h0, h1, h2, -⟩ := h
  simp [opLoad, withOperand, descSpace, ht, Int.not_lt.2 h0, spadLoad, h1, h2, Except.map]

/-- The raw bits of an element. -/
theorem elemBits_of {s : State} {o : Operand} {k b : Nat} (h : bitsAre s o.d k b) : elemBits s o k = .ok (s, some b) := by
  obtain ⟨ht, v, hv, rfl⟩ := h
  have := hv.2.2.2
  simp only [elemBits, elemSpot_region ht, opLoad_region ht hv, Except.map, this, Option.map]

/-- The raw bits of an element without a residency mask. -/
theorem presentBits_of {s : State} {o : Operand} {k b : Nat} (h : bitsAre s o.d k b) : presentBits s o k = .ok (s, b) := by
  simp [presentBits, elemBits_of h]

/-- A descriptor has four extents (R145). -/
theorem descOf_exts (w : DescWord) : (descOf w).exts.length = 4 := by
  unfold descOf; dsimp only; split_ifs <;> rfl

/-- The value of an element (R179). -/
theorem presentVal_of {s : State} {o : Operand} {k : Nat} {v : XR} (hl : o.d.exts.length = 4) (h : valueIs s o.d k v) : presentVal s o k = .ok (s, v, 0) := by
  obtain ⟨b, hb, hr, hn, hs⟩ := h
  have ht := hb.1
  cases hsf : descScale o.d with
  | none => simp [presentVal, elemVal, elemBits_of hb, elemScale, hsf, hr, hn hsf]
  | some sf =>
    obtain ⟨z, hz, rfl⟩ := hs sf hsf
    have e : scaleSpot o k =
        descBase o.d + (o.d.sbase + (k % descCount o.d / blockSize o.d * scaleBytes sf : Nat) + (k / descCount o.d % o.d.exts.getD 1 0 : Nat) * o.d.sstride) := by
      unfold scaleSpot
      rw [spotOf_region ht]
      rcases hx : o.d.exts with _ | ⟨x, _ | ⟨y, l⟩⟩ <;> rw [hx] at hl <;> simp at hl
      simp [coords, descCount, hsf, hx]
    simp only [presentVal, elemVal, elemBits_of hb, elemScale, hsf, e, opLoad_region ht hz, Except.map, hz.2.2.2, Option.map]
    simp [hr]

/-- Bytes of a number. -/
theorem natLe_length (n x : Nat) : (natLe n x).length = n := by
  induction n generalizing x with
  | zero => rfl
  | succ n ih => simp [natLe, ih]

/-- An element written (R147, R148). -/
theorem putElem_of {s : State} {o : Operand} {k bits : Nat} (h : canHold s o.d k) : putElem s o k bits = .ok (withElem s o.d k bits) := by
  obtain ⟨ht, h0, hk⟩ := h
  have h8 : ∀ f, fmtPacked f = true → elemBytes f = 1 := by intro f; cases f <;> decide
  unfold putElem withElem
  rw [elemSpot_region ht]
  dsimp only
  split_ifs with hp
  · have h1 := h8 _ hp
    rw [h1] at hk
    simp [opStore, withOperand, descSpace, ht, Int.not_lt.2 h0, spadStore, hk, opOldByte]
  · simp [opStore, withOperand, descSpace, ht, Int.not_lt.2 h0, spadStore, natLe_length, hk]

/-- An element whose value a unit of `unitWrite` forms without a change of state receives it (R31, R45, R186). -/
theorem receives_of {s : State} {e : QEntry} {o : Operand} {rm : Rm} {limit : Nat} {v : FV} {f : State → Nat → Res (State × FV)}
    (h : runUnit s e = unitWrite s e o rm limit f) (hf : f s e.progress = .ok (s, v)) (hi : e.progress < limit) (hs : descScale o.d = none)
    (hc : canHold s o.d e.progress) : receives s e o.d e.progress rm v (e.progress + 1) limit e.part := by
  have hm : roundingOf e.vctl e.seed rm o.d.tag e.progress =
      ⟨rm.getD (modeOfCode (e.vctl.toNat % 8)), e.vctl.getLsbD 3, e.seed, o.d.tag, e.progress⟩ := by simp [roundingOf, modeOf, bitField]
  have hu := h
  unfold unitWrite at hu
  rw [if_neg (by omega), if_neg (by simp [hs])] at hu
  simp only [hf, hm, writeChecked, putElem_of hc, entryFlags, raiseFlags] at hu
  unfold receives
  dsimp only
  intro h4
  rw [if_neg (by rw [h4]; decide)] at hu
  refine ⟨fun ht => ?_, fun n ht => ?_⟩
  · rw [ht] at hu
    exact ⟨⟨_, { e with progress := e.progress + 1, stall := none }, decide (e.progress + 1 ≥ limit)⟩, hu.trans rfl, rfl, rfl, by simp⟩
  · rw [hu, ht]

/-- A list of reads that each leave the state unchanged. -/
theorem mapRes_of {α : Type} {f : State → Nat → Res (State × α)} {s : State} {g : Nat → α} {l : List Nat} (h : ∀ k ∈ l, f s k = .ok (s, g k)) :
    mapRes f s l = .ok (s, l.map g) := by
  induction l with
  | nil => rfl
  | cons k l ih => simp [mapRes, h k (by simp), ih fun k hk => h k (by simp [hk])]

/-- A write changes no job, so what can be held stays so. -/
theorem canHold_withElem (s : State) (x y : Desc) (k j bits : Nat) : canHold (withElem s x k bits) y j ↔ canHold s y j := by
  have : (withElem s x k bits).core.job = s.core.job ∧ (withElem s x k bits).jobs = s.jobs := by
    unfold withElem putSpad; dsimp only; split_ifs <;> simp
  have hj : curJob (withElem s x k bits) = curJob s := by
    unfold curJob; rw [this.1]; congr 1
  simp only [canHold, spadOk, hj]

/-- A list of elements written. -/
theorem putElems_of {s : State} {o : Operand} {l : List (Nat × Nat)} (h : ∀ p ∈ l, canHold s o.d p.1) :
    putElems s o l = .ok (l.foldl (fun s p => withElem s o.d p.1 p.2) s) := by
  induction l generalizing s with
  | nil => rfl
  | cons p l ih =>
    obtain ⟨k, b⟩ := p
    simp only [putElems, putElem_of (h (k, b) (by simp)), List.foldl_cons]
    exact ih fun q hq => (canHold_withElem ..).2 (h q (by simp [hq]))

/-- The numbers of a range. -/
theorem mem_upFrom {a n k : Nat} : k ∈ upFrom a n ↔ a ≤ k ∧ k < a + n := by
  induction n generalizing a with
  | zero => simp [upFrom]
  | succ n ih => simp only [upFrom, List.mem_cons, ih]; omega

/-- The values of a row. -/
theorem rowVals_of {s : State} {n : Nat} {f : State → Nat → Res (State × FV)} {g : Nat → FV} (h : ∀ c < n, f s c = .ok (s, g c)) :
    rowVals s n f = .ok (s, (upFrom 0 n).map g) := mapRes_of fun k hk => h k (by rw [mem_upFrom] at hk; omega)

/-- No flag changes nothing. -/
theorem mergeFlags_zero (s : State) : mergeFlags s 0 = s := by simp [mergeFlags, stickyBits]

end Sys2Proof.Claims
end

