-- ==== Sys2Proof/Laws/Encode.lean ====
section
/-! SUPPORT. The fields of an encoded word 0, format by format (R53, R54): every field reads back as it was laid in. -/

namespace Sys2Proof
open Sys2Proof.Machine

theorem encA_fields {e op d a b f : Nat} (he : e < 8) (ho : op < 128) (hd : d < 64) (ha : a < 64) (hb : b < 64) (hf : f < 16) :
    classOf (encA e op d a b f) = e ∧ opOf (encA e op d a b f) = op ∧ bitField (encA e op d a b f) 16 6 = d ∧
    bitField (encA e op d a b f) 10 6 = a ∧ bitField (encA e op d a b f) 4 6 = b ∧ encA e op d a b f % 16 = f ∧
    encA e op d a b f % 1024 = b * 16 + f ∧ (isExtWord (encA e op d a b f) = decide (e = 7 ∧ 64 ≤ op)) := by
  unfold classOf opOf bitField isExtWord encA
  refine ⟨?_, ?_, ?_, ?_, ?_, ?_, ?_, ?_⟩ <;> first | omega | (apply decide_eq_decide.2; omega)

theorem encI_fields {e op d a m : Nat} (he : e < 8) (ho : op < 128) (hd : d < 64) (ha : a < 64) (hm : m < 1024) :
    classOf (encI e op d a m) = e ∧ opOf (encI e op d a m) = op ∧ bitField (encI e op d a m) 16 6 = d ∧
    bitField (encI e op d a m) 10 6 = a ∧ encI e op d a m % 1024 = m ∧ (isExtWord (encI e op d a m) = decide (e = 7 ∧ 64 ≤ op)) := by
  unfold classOf opOf bitField isExtWord encI
  refine ⟨?_, ?_, ?_, ?_, ?_, ?_⟩ <;> first | omega | (apply decide_eq_decide.2; omega)

theorem encK_fields {e op d m : Nat} (he : e < 8) (ho : op < 128) (hd : d < 64) (hm : m < 65536) :
    classOf (encK e op d m) = e ∧ opOf (encK e op d m) = op ∧ bitField (encK e op d m) 16 6 = d ∧ encK e op d m % 65536 = m ∧
    (isExtWord (encK e op d m) = decide (e = 7 ∧ 64 ≤ op)) := by
  unfold classOf opOf bitField isExtWord encK
  refine ⟨?_, ?_, ?_, ?_, ?_⟩ <;> first | omega | (apply decide_eq_decide.2; omega)

theorem encJ_fields {e op z : Nat} (he : e < 8) (ho : op < 128) (hz : z < 2 ^ 22) :
    classOf (encJ e op z) = e ∧ opOf (encJ e op z) = op ∧ encJ e op z % 2 ^ 22 = z ∧ (isExtWord (encJ e op z) = decide (e = 7 ∧ 64 ≤ op)) := by
  unfold classOf opOf isExtWord encJ
  refine ⟨?_, ?_, ?_, ?_⟩ <;> first | omega | (apply decide_eq_decide.2; omega)

theorem encE_fields {e op d a b sub rf : Nat} (he : e < 8) (ho : op < 128) (hd : d < 32) (ha : a < 32) (hb : b < 32) (hs : sub < 16)
    (hr : rf < 8) :
    classOf (encE e op d a b sub rf) = e ∧ opOf (encE e op d a b sub rf) = op ∧ bitField (encE e op d a b sub rf) 17 5 = d ∧
    bitField (encE e op d a b sub rf) 12 5 = a ∧ bitField (encE e op d a b sub rf) 7 5 = b ∧ bitField (encE e op d a b sub rf) 3 4 = sub ∧
    encE e op d a b sub rf % 8 = rf ∧ (isExtWord (encE e op d a b sub rf) = decide (e = 7 ∧ 64 ≤ op)) := by
  unfold classOf opOf bitField isExtWord encE
  refine ⟨?_, ?_, ?_, ?_, ?_, ?_, ?_, ?_⟩ <;> first | omega | (apply decide_eq_decide.2; omega)

/-- An enabled field as its enable bit and its value (R57). -/
theorem encOpt_split (o : Option Nat) (w : Nat) (hw : 0 < w) (h : (match o with | some n => decide (n < w) | none => true) = true) :
    ∃ e n, e < 2 ∧ n < w ∧ (∀ en lo, encOpt en lo o = e * 2 ^ en + n * 2 ^ lo) ∧ enabledField e n = some o := by
  cases o with
  | none => exact ⟨0, 0, by omega, hw, by simp [encOpt], by simp [enabledField]⟩
  | some n => exact ⟨1, n, by omega, by simpa using h, by simp [encOpt], by simp [enabledField]⟩

/-- The arithmetic of a sync word: each field of the sum reads back. -/
theorem syncWord_fields {eg ng e0 n0 e1 n1 e2 n2 er nr b : Nat} (h1 : eg < 2) (h2 : ng < 32) (h3 : e0 < 2) (h4 : n0 < 32) (h5 : e1 < 2)
    (h6 : n1 < 32) (h7 : e2 < 2) (h8 : n2 < 32) (h9 : er < 2) (h10 : nr < 16) (h11 : b < 2) (w : Nat)
    (hw : w = eg * 2147483648 + ng * 67108864 + (e0 * 33554432 + n0 * 1048576) + (e1 * 524288 + n1 * 16384) + (e2 * 8192 + n2 * 256) +
      (er * 8 + nr * 16) + b) :
    w / 2147483648 % 2 = eg ∧ w / 67108864 % 32 = ng ∧ w / 33554432 % 2 = e0 ∧ w / 1048576 % 32 = n0 ∧ w / 524288 % 2 = e1 ∧
    w / 16384 % 32 = n1 ∧ w / 8192 % 2 = e2 ∧ w / 256 % 32 = n2 ∧ w / 8 % 2 = er ∧ w / 16 % 16 = nr ∧ w / 2 % 4 = 0 ∧ w % 2 = b := by
  subst hw
  refine ⟨?_, ?_, ?_, ?_, ?_, ?_, ?_, ?_, ?_, ?_, ?_, ?_⟩ <;> omega

/-- The fields of a sync word read back (R56). -/
theorem syncOf_syncWord (s : Sync) (h : syncOk s = true) : syncOf (syncWord s) = some s := by
  obtain ⟨g, t0, t1, t2, r, nt⟩ := s
  simp only [syncOk, Bool.and_eq_true] at h
  obtain ⟨⟨⟨⟨hg, h0⟩, h1⟩, h2⟩, hr⟩ := h
  obtain ⟨eg, ng, a1, a2, a3, a4⟩ := encOpt_split g 32 (by omega) hg
  obtain ⟨e0, n0, b1, b2, b3, b4⟩ := encOpt_split t0 32 (by omega) h0
  obtain ⟨e1, n1, c1, c2, c3, c4⟩ := encOpt_split t1 32 (by omega) h1
  obtain ⟨e2, n2, d1, d2, d3, d4⟩ := encOpt_split t2 32 (by omega) h2
  obtain ⟨er, nr, f1, f2, f3, f4⟩ := encOpt_split r 16 (by omega) hr
  have hb : b2n nt < 2 := by cases nt <;> simp [b2n]
  obtain ⟨k1, k2, k3, k4, k5, k6, k7, k8, k9, k10, k11, k12⟩ :=
    syncWord_fields a1 a2 b1 b2 c1 c2 d1 d2 f1 f2 hb (syncWord ⟨g, t0, t1, t2, r, nt⟩)
      (by simp only [syncWord, a3, b3, c3, d3, f3]; norm_num)
  generalize syncWord ⟨g, t0, t1, t2, r, nt⟩ = w at *
  have hn : bitAt w 0 = nt := by cases nt <;> simp_all [bitAt, b2n]
  simp only [syncOf, bitField, Nat.reducePow, pow_one, k1, k2, k3, k4, k5, k6, k7, k8, k9, k10, k11, a4, b4, c4, d4, f4, if_true, hn]

end Sys2Proof
end

