-- ==== Sys2Proof/Laws/State.lean ====
section
/-! SUPPORT. The laws of the state's updates: what each update of a field leaves as it was, one lemma to a field and an update. -/

namespace Sys2Proof.Machine

/-! ### A core with a stream replaced -/

@[simp] theorem setStream_descs (c : Core) (n : StreamName) (t : Stream) : (setStream c n t).descs = c.descs := by cases n <;> rfl
@[simp] theorem setStream_sems (c : Core) (n : StreamName) (t : Stream) : (setStream c n t).sems = c.sems := by cases n <;> rfl
@[simp] theorem setStream_pbs (c : Core) (n : StreamName) (t : Stream) : (setStream c n t).pbs = c.pbs := by cases n <;> rfl
@[simp] theorem setStream_rings (c : Core) (n : StreamName) (t : Stream) : (setStream c n t).rings = c.rings := by cases n <;> rfl
@[simp] theorem setStream_spad (c : Core) (n : StreamName) (t : Stream) : (setStream c n t).spad = c.spad := by cases n <;> rfl
@[simp] theorem setStream_dirty (c : Core) (n : StreamName) (t : Stream) : (setStream c n t).dirty = c.dirty := by cases n <;> rfl
@[simp] theorem setStream_spadErr (c : Core) (n : StreamName) (t : Stream) : (setStream c n t).spadErr = c.spadErr := by cases n <;> rfl
@[simp] theorem setStream_vstat (c : Core) (n : StreamName) (t : Stream) : (setStream c n t).vstat = c.vstat := by cases n <;> rfl
@[simp] theorem setStream_vctlLo (c : Core) (n : StreamName) (t : Stream) : (setStream c n t).vctlLo = c.vctlLo := by cases n <;> rfl
@[simp] theorem setStream_vctlSeed (c : Core) (n : StreamName) (t : Stream) : (setStream c n t).vctlSeed = c.vctlSeed := by cases n <;> rfl
@[simp] theorem setStream_cycle (c : Core) (n : StreamName) (t : Stream) : (setStream c n t).cycle = c.cycle := by cases n <;> rfl
@[simp] theorem setStream_tcmp (c : Core) (n : StreamName) (t : Stream) : (setStream c n t).tcmp = c.tcmp := by cases n <;> rfl
@[simp] theorem setStream_tepc (c : Core) (n : StreamName) (t : Stream) : (setStream c n t).tepc = c.tepc := by cases n <;> rfl
@[simp] theorem setStream_tstat (c : Core) (n : StreamName) (t : Stream) : (setStream c n t).tstat = c.tstat := by cases n <;> rfl
@[simp] theorem setStream_tscr0 (c : Core) (n : StreamName) (t : Stream) : (setStream c n t).tscr0 = c.tscr0 := by cases n <;> rfl
@[simp] theorem setStream_tscr1 (c : Core) (n : StreamName) (t : Stream) : (setStream c n t).tscr1 = c.tscr1 := by cases n <;> rfl
@[simp] theorem setStream_qdata (c : Core) (n : StreamName) (t : Stream) : (setStream c n t).qdata = c.qdata := by cases n <;> rfl
@[simp] theorem setStream_qvec (c : Core) (n : StreamName) (t : Stream) : (setStream c n t).qvec = c.qvec := by cases n <;> rfl
@[simp] theorem setStream_qmat (c : Core) (n : StreamName) (t : Stream) : (setStream c n t).qmat = c.qmat := by cases n <;> rfl
@[simp] theorem setStream_qgrp (c : Core) (n : StreamName) (t : Stream) : (setStream c n t).qgrp = c.qgrp := by cases n <;> rfl
@[simp] theorem setStream_issued (c : Core) (n : StreamName) (t : Stream) : (setStream c n t).issued = c.issued := by cases n <;> rfl
@[simp] theorem setStream_rank (c : Core) (n : StreamName) (t : Stream) : (setStream c n t).rank = c.rank := by cases n <;> rfl
@[simp] theorem setStream_lease (c : Core) (n : StreamName) (t : Stream) : (setStream c n t).lease = c.lease := by cases n <;> rfl
@[simp] theorem setStream_leaseAt (c : Core) (n : StreamName) (t : Stream) : (setStream c n t).leaseAt = c.leaseAt := by cases n <;> rfl
@[simp] theorem setStream_arr (c : Core) (n : StreamName) (t : Stream) : (setStream c n t).arr = c.arr := by cases n <;> rfl
@[simp] theorem setStream_slots (c : Core) (n : StreamName) (t : Stream) : (setStream c n t).slots = c.slots := by cases n <;> rfl
@[simp] theorem setStream_groups (c : Core) (n : StreamName) (t : Stream) : (setStream c n t).groups = c.groups := by cases n <;> rfl
@[simp] theorem setStream_flows (c : Core) (n : StreamName) (t : Stream) : (setStream c n t).flows = c.flows := by cases n <;> rfl
@[simp] theorem setStream_job (c : Core) (n : StreamName) (t : Stream) : (setStream c n t).job = c.job := by cases n <;> rfl
@[simp] theorem setStream_ctx (c : Core) (n : StreamName) (t : Stream) : (setStream c n t).ctx = c.ctx := by cases n <;> rfl
@[simp] theorem setStream_jobRank (c : Core) (n : StreamName) (t : Stream) : (setStream c n t).jobRank = c.jobRank := by cases n <;> rfl
@[simp] theorem setStream_stuckSince (c : Core) (n : StreamName) (t : Stream) : (setStream c n t).stuckSince = c.stuckSince := by cases n <;> rfl
@[simp] theorem setStream_merge (c : Core) (n : StreamName) (t : Stream) : (setStream c n t).merge = c.merge := by cases n <;> rfl

/-- The stream written reads back. -/
@[simp] theorem streamOf_setStream (c : Core) (n : StreamName) (t : Stream) : streamOf (setStream c n t) n = t := by cases n <;> rfl
/-- The other streams stay. -/
theorem streamOf_setStream_ne (c : Core) {n m : StreamName} (t : Stream) (h : m ≠ n) : streamOf (setStream c n t) m = streamOf c m := by
  cases n <;> cases m <;> first | rfl | exact absurd rfl h
/-- The last of two writes of one stream stands. -/
@[simp] theorem setStream_setStream (c : Core) (n : StreamName) (t u : Stream) : setStream (setStream c n t) n u = setStream c n u := by
  cases n <;> rfl
/-- A stream written as it was changes nothing. -/
@[simp] theorem setStream_streamOf (c : Core) (n : StreamName) : setStream c n (streamOf c n) = c := by cases n <;> rfl

/-! ### The executing stream replaced -/

@[simp] theorem setCur_turn (s : State) (t : Stream) : (setCur s t).turn = s.turn := rfl
@[simp] theorem setCur_hostHeld (s : State) (t : Stream) : (setCur s t).hostHeld = s.hostHeld := rfl
@[simp] theorem setCur_pin (s : State) (t : Stream) : (setCur s t).pin = s.pin := rfl
@[simp] theorem setCur_tick (s : State) (t : Stream) : (setCur s t).tick = s.tick := rfl
@[simp] theorem setCur_now (s : State) (t : Stream) : (setCur s t).now = s.now := rfl
@[simp] theorem setCur_cur (s : State) (t : Stream) : (setCur s t).cur = s.cur := rfl
@[simp] theorem setCur_words (s : State) (t : Stream) : (setCur s t).words = s.words := rfl
@[simp] theorem setCur_held (s : State) (t : Stream) : (setCur s t).held = s.held := rfl
@[simp] theorem setCur_focus (s : State) (t : Stream) : (setCur s t).focus = s.focus := rfl
@[simp] theorem setCur_others (s : State) (t : Stream) : (setCur s t).others = s.others := rfl
@[simp] theorem setCur_outbox (s : State) (t : Stream) : (setCur s t).outbox = s.outbox := rfl
@[simp] theorem setCur_mem (s : State) (t : Stream) : (setCur s t).mem = s.mem := rfl
@[simp] theorem setCur_vaults (s : State) (t : Stream) : (setCur s t).vaults = s.vaults := rfl
@[simp] theorem setCur_vaultErr (s : State) (t : Stream) : (setCur s t).vaultErr = s.vaultErr := rfl
@[simp] theorem setCur_lineErr (s : State) (t : Stream) : (setCur s t).lineErr = s.lineErr := rfl
@[simp] theorem setCur_metaErr (s : State) (t : Stream) : (setCur s t).metaErr = s.metaErr := rfl
@[simp] theorem setCur_l2 (s : State) (t : Stream) : (setCur s t).l2 = s.l2 := rfl
@[simp] theorem setCur_majors (s : State) (t : Stream) : (setCur s t).majors = s.majors := rfl
@[simp] theorem setCur_minors (s : State) (t : Stream) : (setCur s t).minors = s.minors := rfl
@[simp] theorem setCur_treeCtrs (s : State) (t : Stream) : (setCur s t).treeCtrs = s.treeCtrs := rfl
@[simp] theorem setCur_treeDirty (s : State) (t : Stream) : (setCur s t).treeDirty = s.treeDirty := rfl
@[simp] theorem setCur_epoch (s : State) (t : Stream) : (setCur s t).epoch = s.epoch := rfl
@[simp] theorem setCur_touched (s : State) (t : Stream) : (setCur s t).touched = s.touched := rfl
@[simp] theorem setCur_pot (s : State) (t : Stream) : (setCur s t).pot = s.pot := rfl
@[simp] theorem setCur_earlier (s : State) (t : Stream) : (setCur s t).earlier = s.earlier := rfl
@[simp] theorem setCur_keys (s : State) (t : Stream) : (setCur s t).keys = s.keys := rfl
@[simp] theorem setCur_ctxs (s : State) (t : Stream) : (setCur s t).ctxs = s.ctxs := rfl
@[simp] theorem setCur_jobs (s : State) (t : Stream) : (setCur s t).jobs = s.jobs := rfl
@[simp] theorem setCur_nextJob (s : State) (t : Stream) : (setCur s t).nextJob = s.nextJob := rfl
@[simp] theorem setCur_att (s : State) (t : Stream) : (setCur s t).att = s.att := rfl
@[simp] theorem setCur_cached (s : State) (t : Stream) : (setCur s t).cached = s.cached := rfl
@[simp] theorem setCur_pinned (s : State) (t : Stream) : (setCur s t).pinned = s.pinned := rfl
@[simp] theorem setCur_pinPools (s : State) (t : Stream) : (setCur s t).pinPools = s.pinPools := rfl
@[simp] theorem setCur_vds (s : State) (t : Stream) : (setCur s t).vds = s.vds := rfl
@[simp] theorem setCur_barBase (s : State) (t : Stream) : (setCur s t).barBase = s.barBase := rfl
@[simp] theorem setCur_parts (s : State) (t : Stream) : (setCur s t).parts = s.parts := rfl
@[simp] theorem setCur_partsNew (s : State) (t : Stream) : (setCur s t).partsNew = s.partsNew := rfl
@[simp] theorem setCur_margins (s : State) (t : Stream) : (setCur s t).margins = s.margins := rfl
@[simp] theorem setCur_purses (s : State) (t : Stream) : (setCur s t).purses = s.purses := rfl
@[simp] theorem setCur_refills (s : State) (t : Stream) : (setCur s t).refills = s.refills := rfl
@[simp] theorem setCur_arrays (s : State) (t : Stream) : (setCur s t).arrays = s.arrays := rfl
@[simp] theorem setCur_fenced (s : State) (t : Stream) : (setCur s t).fenced = s.fenced := rfl
@[simp] theorem setCur_errTimes (s : State) (t : Stream) : (setCur s t).errTimes = s.errTimes := rfl
@[simp] theorem setCur_pageReqs (s : State) (t : Stream) : (setCur s t).pageReqs = s.pageReqs := rfl
@[simp] theorem setCur_migs (s : State) (t : Stream) : (setCur s t).migs = s.migs := rfl
@[simp] theorem setCur_joins (s : State) (t : Stream) : (setCur s t).joins = s.joins := rfl
@[simp] theorem setCur_contribs (s : State) (t : Stream) : (setCur s t).contribs = s.contribs := rfl
@[simp] theorem setCur_pairings (s : State) (t : Stream) : (setCur s t).pairings = s.pairings := rfl
@[simp] theorem setCur_rxFlows (s : State) (t : Stream) : (setCur s t).rxFlows = s.rxFlows := rfl
@[simp] theorem setCur_rxRows (s : State) (t : Stream) : (setCur s t).rxRows = s.rxRows := rfl
@[simp] theorem setCur_holding (s : State) (t : Stream) : (setCur s t).holding = s.holding := rfl
@[simp] theorem setCur_routes (s : State) (t : Stream) : (setCur s t).routes = s.routes := rfl
@[simp] theorem setCur_hdm (s : State) (t : Stream) : (setCur s t).hdm = s.hdm := rfl
@[simp] theorem setCur_portsDown (s : State) (t : Stream) : (setCur s t).portsDown = s.portsDown := rfl
@[simp] theorem setCur_cxlDown (s : State) (t : Stream) : (setCur s t).cxlDown = s.cxlDown := rfl
@[simp] theorem setCur_peersDown (s : State) (t : Stream) : (setCur s t).peersDown = s.peersDown := rfl
@[simp] theorem setCur_health (s : State) (t : Stream) : (setCur s t).health = s.health := rfl
@[simp] theorem setCur_tripped (s : State) (t : Stream) : (setCur s t).tripped = s.tripped := rfl
@[simp] theorem setCur_govRun (s : State) (t : Stream) : (setCur s t).govRun = s.govRun := rfl
@[simp] theorem setCur_margin (s : State) (t : Stream) : (setCur s t).margin = s.margin := rfl
@[simp] theorem setCur_firstBoot (s : State) (t : Stream) : (setCur s t).firstBoot = s.firstBoot := rfl
@[simp] theorem setCur_ageing (s : State) (t : Stream) : (setCur s t).ageing = s.ageing := rfl
@[simp] theorem setCur_agentCtx (s : State) (t : Stream) : (setCur s t).agentCtx = s.agentCtx := rfl
@[simp] theorem setCur_agentSel (s : State) (t : Stream) : (setCur s t).agentSel = s.agentSel := rfl
@[simp] theorem setCur_agentReg (s : State) (t : Stream) : (setCur s t).agentReg = s.agentReg := rfl
@[simp] theorem setCur_agentX (s : State) (t : Stream) : (setCur s t).agentX = s.agentX := rfl
@[simp] theorem setCur_phase (s : State) (t : Stream) : (setCur s t).phase = s.phase := rfl
@[simp] theorem setCur_package (s : State) (t : Stream) : (setCur s t).package = s.package := rfl
@[simp] theorem setCur_flash (s : State) (t : Stream) : (setCur s t).flash = s.flash := rfl
@[simp] theorem setCur_fwVersion (s : State) (t : Stream) : (setCur s t).fwVersion = s.fwVersion := rfl
@[simp] theorem setCur_fwHash (s : State) (t : Stream) : (setCur s t).fwHash = s.fwHash := rfl
@[simp] theorem setCur_fwFused (s : State) (t : Stream) : (setCur s t).fwFused = s.fwFused := rfl
@[simp] theorem setCur_idSeed (s : State) (t : Stream) : (setCur s t).idSeed = s.idSeed := rfl
@[simp] theorem setCur_identity (s : State) (t : Stream) : (setCur s t).identity = s.identity := rfl
@[simp] theorem setCur_core (s : State) (t : Stream) : (setCur s t).core = setStream s.core s.cur t := rfl

/-- The executing stream written reads back. -/
@[simp] theorem curStream_setCur (s : State) (t : Stream) : curStream (setCur s t) = t := streamOf_setStream s.core s.cur t
/-- The last of two writes stands. -/
@[simp] theorem setCur_setCur (s : State) (t u : Stream) : setCur (setCur s t) u = setCur s u := by simp [setCur]
/-- The executing stream written as it was changes nothing. -/
@[simp] theorem setCur_curStream (s : State) : setCur s (curStream s) = s := by simp [setCur, curStream]

/-! ### A context replaced -/

@[simp] theorem setCtx_turn (s : State) (k : Nat) (c : Context) : (setCtx s k c).turn = s.turn := rfl
@[simp] theorem setCtx_hostHeld (s : State) (k : Nat) (c : Context) : (setCtx s k c).hostHeld = s.hostHeld := rfl
@[simp] theorem setCtx_pin (s : State) (k : Nat) (c : Context) : (setCtx s k c).pin = s.pin := rfl
@[simp] theorem setCtx_tick (s : State) (k : Nat) (c : Context) : (setCtx s k c).tick = s.tick := rfl
@[simp] theorem setCtx_now (s : State) (k : Nat) (c : Context) : (setCtx s k c).now = s.now := rfl
@[simp] theorem setCtx_cur (s : State) (k : Nat) (c : Context) : (setCtx s k c).cur = s.cur := rfl
@[simp] theorem setCtx_words (s : State) (k : Nat) (c : Context) : (setCtx s k c).words = s.words := rfl
@[simp] theorem setCtx_held (s : State) (k : Nat) (c : Context) : (setCtx s k c).held = s.held := rfl
@[simp] theorem setCtx_focus (s : State) (k : Nat) (c : Context) : (setCtx s k c).focus = s.focus := rfl
@[simp] theorem setCtx_core (s : State) (k : Nat) (c : Context) : (setCtx s k c).core = s.core := rfl
@[simp] theorem setCtx_others (s : State) (k : Nat) (c : Context) : (setCtx s k c).others = s.others := rfl
@[simp] theorem setCtx_outbox (s : State) (k : Nat) (c : Context) : (setCtx s k c).outbox = s.outbox := rfl
@[simp] theorem setCtx_mem (s : State) (k : Nat) (c : Context) : (setCtx s k c).mem = s.mem := rfl
@[simp] theorem setCtx_vaults (s : State) (k : Nat) (c : Context) : (setCtx s k c).vaults = s.vaults := rfl
@[simp] theorem setCtx_vaultErr (s : State) (k : Nat) (c : Context) : (setCtx s k c).vaultErr = s.vaultErr := rfl
@[simp] theorem setCtx_lineErr (s : State) (k : Nat) (c : Context) : (setCtx s k c).lineErr = s.lineErr := rfl
@[simp] theorem setCtx_metaErr (s : State) (k : Nat) (c : Context) : (setCtx s k c).metaErr = s.metaErr := rfl
@[simp] theorem setCtx_l2 (s : State) (k : Nat) (c : Context) : (setCtx s k c).l2 = s.l2 := rfl
@[simp] theorem setCtx_majors (s : State) (k : Nat) (c : Context) : (setCtx s k c).majors = s.majors := rfl
@[simp] theorem setCtx_minors (s : State) (k : Nat) (c : Context) : (setCtx s k c).minors = s.minors := rfl
@[simp] theorem setCtx_treeCtrs (s : State) (k : Nat) (c : Context) : (setCtx s k c).treeCtrs = s.treeCtrs := rfl
@[simp] theorem setCtx_treeDirty (s : State) (k : Nat) (c : Context) : (setCtx s k c).treeDirty = s.treeDirty := rfl
@[simp] theorem setCtx_epoch (s : State) (k : Nat) (c : Context) : (setCtx s k c).epoch = s.epoch := rfl
@[simp] theorem setCtx_touched (s : State) (k : Nat) (c : Context) : (setCtx s k c).touched = s.touched := rfl
@[simp] theorem setCtx_pot (s : State) (k : Nat) (c : Context) : (setCtx s k c).pot = s.pot := rfl
@[simp] theorem setCtx_earlier (s : State) (k : Nat) (c : Context) : (setCtx s k c).earlier = s.earlier := rfl
@[simp] theorem setCtx_keys (s : State) (k : Nat) (c : Context) : (setCtx s k c).keys = s.keys := rfl
@[simp] theorem setCtx_jobs (s : State) (k : Nat) (c : Context) : (setCtx s k c).jobs = s.jobs := rfl
@[simp] theorem setCtx_nextJob (s : State) (k : Nat) (c : Context) : (setCtx s k c).nextJob = s.nextJob := rfl
@[simp] theorem setCtx_att (s : State) (k : Nat) (c : Context) : (setCtx s k c).att = s.att := rfl
@[simp] theorem setCtx_cached (s : State) (k : Nat) (c : Context) : (setCtx s k c).cached = s.cached := rfl
@[simp] theorem setCtx_pinned (s : State) (k : Nat) (c : Context) : (setCtx s k c).pinned = s.pinned := rfl
@[simp] theorem setCtx_pinPools (s : State) (k : Nat) (c : Context) : (setCtx s k c).pinPools = s.pinPools := rfl
@[simp] theorem setCtx_vds (s : State) (k : Nat) (c : Context) : (setCtx s k c).vds = s.vds := rfl
@[simp] theorem setCtx_barBase (s : State) (k : Nat) (c : Context) : (setCtx s k c).barBase = s.barBase := rfl
@[simp] theorem setCtx_parts (s : State) (k : Nat) (c : Context) : (setCtx s k c).parts = s.parts := rfl
@[simp] theorem setCtx_partsNew (s : State) (k : Nat) (c : Context) : (setCtx s k c).partsNew = s.partsNew := rfl
@[simp] theorem setCtx_margins (s : State) (k : Nat) (c : Context) : (setCtx s k c).margins = s.margins := rfl
@[simp] theorem setCtx_purses (s : State) (k : Nat) (c : Context) : (setCtx s k c).purses = s.purses := rfl
@[simp] theorem setCtx_refills (s : State) (k : Nat) (c : Context) : (setCtx s k c).refills = s.refills := rfl
@[simp] theorem setCtx_arrays (s : State) (k : Nat) (c : Context) : (setCtx s k c).arrays = s.arrays := rfl
@[simp] theorem setCtx_fenced (s : State) (k : Nat) (c : Context) : (setCtx s k c).fenced = s.fenced := rfl
@[simp] theorem setCtx_errTimes (s : State) (k : Nat) (c : Context) : (setCtx s k c).errTimes = s.errTimes := rfl
@[simp] theorem setCtx_pageReqs (s : State) (k : Nat) (c : Context) : (setCtx s k c).pageReqs = s.pageReqs := rfl
@[simp] theorem setCtx_migs (s : State) (k : Nat) (c : Context) : (setCtx s k c).migs = s.migs := rfl
@[simp] theorem setCtx_joins (s : State) (k : Nat) (c : Context) : (setCtx s k c).joins = s.joins := rfl
@[simp] theorem setCtx_contribs (s : State) (k : Nat) (c : Context) : (setCtx s k c).contribs = s.contribs := rfl
@[simp] theorem setCtx_pairings (s : State) (k : Nat) (c : Context) : (setCtx s k c).pairings = s.pairings := rfl
@[simp] theorem setCtx_rxFlows (s : State) (k : Nat) (c : Context) : (setCtx s k c).rxFlows = s.rxFlows := rfl
@[simp] theorem setCtx_rxRows (s : State) (k : Nat) (c : Context) : (setCtx s k c).rxRows = s.rxRows := rfl
@[simp] theorem setCtx_holding (s : State) (k : Nat) (c : Context) : (setCtx s k c).holding = s.holding := rfl
@[simp] theorem setCtx_routes (s : State) (k : Nat) (c : Context) : (setCtx s k c).routes = s.routes := rfl
@[simp] theorem setCtx_hdm (s : State) (k : Nat) (c : Context) : (setCtx s k c).hdm = s.hdm := rfl
@[simp] theorem setCtx_portsDown (s : State) (k : Nat) (c : Context) : (setCtx s k c).portsDown = s.portsDown := rfl
@[simp] theorem setCtx_cxlDown (s : State) (k : Nat) (c : Context) : (setCtx s k c).cxlDown = s.cxlDown := rfl
@[simp] theorem setCtx_peersDown (s : State) (k : Nat) (c : Context) : (setCtx s k c).peersDown = s.peersDown := rfl
@[simp] theorem setCtx_health (s : State) (k : Nat) (c : Context) : (setCtx s k c).health = s.health := rfl
@[simp] theorem setCtx_tripped (s : State) (k : Nat) (c : Context) : (setCtx s k c).tripped = s.tripped := rfl
@[simp] theorem setCtx_govRun (s : State) (k : Nat) (c : Context) : (setCtx s k c).govRun = s.govRun := rfl
@[simp] theorem setCtx_margin (s : State) (k : Nat) (c : Context) : (setCtx s k c).margin = s.margin := rfl
@[simp] theorem setCtx_firstBoot (s : State) (k : Nat) (c : Context) : (setCtx s k c).firstBoot = s.firstBoot := rfl
@[simp] theorem setCtx_ageing (s : State) (k : Nat) (c : Context) : (setCtx s k c).ageing = s.ageing := rfl
@[simp] theorem setCtx_agentCtx (s : State) (k : Nat) (c : Context) : (setCtx s k c).agentCtx = s.agentCtx := rfl
@[simp] theorem setCtx_agentSel (s : State) (k : Nat) (c : Context) : (setCtx s k c).agentSel = s.agentSel := rfl
@[simp] theorem setCtx_agentReg (s : State) (k : Nat) (c : Context) : (setCtx s k c).agentReg = s.agentReg := rfl
@[simp] theorem setCtx_agentX (s : State) (k : Nat) (c : Context) : (setCtx s k c).agentX = s.agentX := rfl
@[simp] theorem setCtx_phase (s : State) (k : Nat) (c : Context) : (setCtx s k c).phase = s.phase := rfl
@[simp] theorem setCtx_package (s : State) (k : Nat) (c : Context) : (setCtx s k c).package = s.package := rfl
@[simp] theorem setCtx_flash (s : State) (k : Nat) (c : Context) : (setCtx s k c).flash = s.flash := rfl
@[simp] theorem setCtx_fwVersion (s : State) (k : Nat) (c : Context) : (setCtx s k c).fwVersion = s.fwVersion := rfl
@[simp] theorem setCtx_fwHash (s : State) (k : Nat) (c : Context) : (setCtx s k c).fwHash = s.fwHash := rfl
@[simp] theorem setCtx_fwFused (s : State) (k : Nat) (c : Context) : (setCtx s k c).fwFused = s.fwFused := rfl
@[simp] theorem setCtx_idSeed (s : State) (k : Nat) (c : Context) : (setCtx s k c).idSeed = s.idSeed := rfl
@[simp] theorem setCtx_identity (s : State) (k : Nat) (c : Context) : (setCtx s k c).identity = s.identity := rfl

/-! ### A job replaced -/

@[simp] theorem setJob_turn (s : State) (j : Nat) (x : Job) : (setJob s j x).turn = s.turn := rfl
@[simp] theorem setJob_hostHeld (s : State) (j : Nat) (x : Job) : (setJob s j x).hostHeld = s.hostHeld := rfl
@[simp] theorem setJob_pin (s : State) (j : Nat) (x : Job) : (setJob s j x).pin = s.pin := rfl
@[simp] theorem setJob_tick (s : State) (j : Nat) (x : Job) : (setJob s j x).tick = s.tick := rfl
@[simp] theorem setJob_now (s : State) (j : Nat) (x : Job) : (setJob s j x).now = s.now := rfl
@[simp] theorem setJob_cur (s : State) (j : Nat) (x : Job) : (setJob s j x).cur = s.cur := rfl
@[simp] theorem setJob_words (s : State) (j : Nat) (x : Job) : (setJob s j x).words = s.words := rfl
@[simp] theorem setJob_held (s : State) (j : Nat) (x : Job) : (setJob s j x).held = s.held := rfl
@[simp] theorem setJob_focus (s : State) (j : Nat) (x : Job) : (setJob s j x).focus = s.focus := rfl
@[simp] theorem setJob_core (s : State) (j : Nat) (x : Job) : (setJob s j x).core = s.core := rfl
@[simp] theorem setJob_others (s : State) (j : Nat) (x : Job) : (setJob s j x).others = s.others := rfl
@[simp] theorem setJob_outbox (s : State) (j : Nat) (x : Job) : (setJob s j x).outbox = s.outbox := rfl
@[simp] theorem setJob_mem (s : State) (j : Nat) (x : Job) : (setJob s j x).mem = s.mem := rfl
@[simp] theorem setJob_vaults (s : State) (j : Nat) (x : Job) : (setJob s j x).vaults = s.vaults := rfl
@[simp] theorem setJob_vaultErr (s : State) (j : Nat) (x : Job) : (setJob s j x).vaultErr = s.vaultErr := rfl
@[simp] theorem setJob_lineErr (s : State) (j : Nat) (x : Job) : (setJob s j x).lineErr = s.lineErr := rfl
@[simp] theorem setJob_metaErr (s : State) (j : Nat) (x : Job) : (setJob s j x).metaErr = s.metaErr := rfl
@[simp] theorem setJob_l2 (s : State) (j : Nat) (x : Job) : (setJob s j x).l2 = s.l2 := rfl
@[simp] theorem setJob_majors (s : State) (j : Nat) (x : Job) : (setJob s j x).majors = s.majors := rfl
@[simp] theorem setJob_minors (s : State) (j : Nat) (x : Job) : (setJob s j x).minors = s.minors := rfl
@[simp] theorem setJob_treeCtrs (s : State) (j : Nat) (x : Job) : (setJob s j x).treeCtrs = s.treeCtrs := rfl
@[simp] theorem setJob_treeDirty (s : State) (j : Nat) (x : Job) : (setJob s j x).treeDirty = s.treeDirty := rfl
@[simp] theorem setJob_epoch (s : State) (j : Nat) (x : Job) : (setJob s j x).epoch = s.epoch := rfl
@[simp] theorem setJob_touched (s : State) (j : Nat) (x : Job) : (setJob s j x).touched = s.touched := rfl
@[simp] theorem setJob_pot (s : State) (j : Nat) (x : Job) : (setJob s j x).pot = s.pot := rfl
@[simp] theorem setJob_earlier (s : State) (j : Nat) (x : Job) : (setJob s j x).earlier = s.earlier := rfl
@[simp] theorem setJob_keys (s : State) (j : Nat) (x : Job) : (setJob s j x).keys = s.keys := rfl
@[simp] theorem setJob_ctxs (s : State) (j : Nat) (x : Job) : (setJob s j x).ctxs = s.ctxs := rfl
@[simp] theorem setJob_nextJob (s : State) (j : Nat) (x : Job) : (setJob s j x).nextJob = s.nextJob := rfl
@[simp] theorem setJob_att (s : State) (j : Nat) (x : Job) : (setJob s j x).att = s.att := rfl
@[simp] theorem setJob_cached (s : State) (j : Nat) (x : Job) : (setJob s j x).cached = s.cached := rfl
@[simp] theorem setJob_pinned (s : State) (j : Nat) (x : Job) : (setJob s j x).pinned = s.pinned := rfl
@[simp] theorem setJob_pinPools (s : State) (j : Nat) (x : Job) : (setJob s j x).pinPools = s.pinPools := rfl
@[simp] theorem setJob_vds (s : State) (j : Nat) (x : Job) : (setJob s j x).vds = s.vds := rfl
@[simp] theorem setJob_barBase (s : State) (j : Nat) (x : Job) : (setJob s j x).barBase = s.barBase := rfl
@[simp] theorem setJob_parts (s : State) (j : Nat) (x : Job) : (setJob s j x).parts = s.parts := rfl
@[simp] theorem setJob_partsNew (s : State) (j : Nat) (x : Job) : (setJob s j x).partsNew = s.partsNew := rfl
@[simp] theorem setJob_margins (s : State) (j : Nat) (x : Job) : (setJob s j x).margins = s.margins := rfl
@[simp] theorem setJob_purses (s : State) (j : Nat) (x : Job) : (setJob s j x).purses = s.purses := rfl
@[simp] theorem setJob_refills (s : State) (j : Nat) (x : Job) : (setJob s j x).refills = s.refills := rfl
@[simp] theorem setJob_arrays (s : State) (j : Nat) (x : Job) : (setJob s j x).arrays = s.arrays := rfl
@[simp] theorem setJob_fenced (s : State) (j : Nat) (x : Job) : (setJob s j x).fenced = s.fenced := rfl
@[simp] theorem setJob_errTimes (s : State) (j : Nat) (x : Job) : (setJob s j x).errTimes = s.errTimes := rfl
@[simp] theorem setJob_pageReqs (s : State) (j : Nat) (x : Job) : (setJob s j x).pageReqs = s.pageReqs := rfl
@[simp] theorem setJob_migs (s : State) (j : Nat) (x : Job) : (setJob s j x).migs = s.migs := rfl
@[simp] theorem setJob_joins (s : State) (j : Nat) (x : Job) : (setJob s j x).joins = s.joins := rfl
@[simp] theorem setJob_contribs (s : State) (j : Nat) (x : Job) : (setJob s j x).contribs = s.contribs := rfl
@[simp] theorem setJob_pairings (s : State) (j : Nat) (x : Job) : (setJob s j x).pairings = s.pairings := rfl
@[simp] theorem setJob_rxFlows (s : State) (j : Nat) (x : Job) : (setJob s j x).rxFlows = s.rxFlows := rfl
@[simp] theorem setJob_rxRows (s : State) (j : Nat) (x : Job) : (setJob s j x).rxRows = s.rxRows := rfl
@[simp] theorem setJob_holding (s : State) (j : Nat) (x : Job) : (setJob s j x).holding = s.holding := rfl
@[simp] theorem setJob_routes (s : State) (j : Nat) (x : Job) : (setJob s j x).routes = s.routes := rfl
@[simp] theorem setJob_hdm (s : State) (j : Nat) (x : Job) : (setJob s j x).hdm = s.hdm := rfl
@[simp] theorem setJob_portsDown (s : State) (j : Nat) (x : Job) : (setJob s j x).portsDown = s.portsDown := rfl
@[simp] theorem setJob_cxlDown (s : State) (j : Nat) (x : Job) : (setJob s j x).cxlDown = s.cxlDown := rfl
@[simp] theorem setJob_peersDown (s : State) (j : Nat) (x : Job) : (setJob s j x).peersDown = s.peersDown := rfl
@[simp] theorem setJob_health (s : State) (j : Nat) (x : Job) : (setJob s j x).health = s.health := rfl
@[simp] theorem setJob_tripped (s : State) (j : Nat) (x : Job) : (setJob s j x).tripped = s.tripped := rfl
@[simp] theorem setJob_govRun (s : State) (j : Nat) (x : Job) : (setJob s j x).govRun = s.govRun := rfl
@[simp] theorem setJob_margin (s : State) (j : Nat) (x : Job) : (setJob s j x).margin = s.margin := rfl
@[simp] theorem setJob_firstBoot (s : State) (j : Nat) (x : Job) : (setJob s j x).firstBoot = s.firstBoot := rfl
@[simp] theorem setJob_ageing (s : State) (j : Nat) (x : Job) : (setJob s j x).ageing = s.ageing := rfl
@[simp] theorem setJob_agentCtx (s : State) (j : Nat) (x : Job) : (setJob s j x).agentCtx = s.agentCtx := rfl
@[simp] theorem setJob_agentSel (s : State) (j : Nat) (x : Job) : (setJob s j x).agentSel = s.agentSel := rfl
@[simp] theorem setJob_agentReg (s : State) (j : Nat) (x : Job) : (setJob s j x).agentReg = s.agentReg := rfl
@[simp] theorem setJob_agentX (s : State) (j : Nat) (x : Job) : (setJob s j x).agentX = s.agentX := rfl
@[simp] theorem setJob_phase (s : State) (j : Nat) (x : Job) : (setJob s j x).phase = s.phase := rfl
@[simp] theorem setJob_package (s : State) (j : Nat) (x : Job) : (setJob s j x).package = s.package := rfl
@[simp] theorem setJob_flash (s : State) (j : Nat) (x : Job) : (setJob s j x).flash = s.flash := rfl
@[simp] theorem setJob_fwVersion (s : State) (j : Nat) (x : Job) : (setJob s j x).fwVersion = s.fwVersion := rfl
@[simp] theorem setJob_fwHash (s : State) (j : Nat) (x : Job) : (setJob s j x).fwHash = s.fwHash := rfl
@[simp] theorem setJob_fwFused (s : State) (j : Nat) (x : Job) : (setJob s j x).fwFused = s.fwFused := rfl
@[simp] theorem setJob_idSeed (s : State) (j : Nat) (x : Job) : (setJob s j x).idSeed = s.idSeed := rfl
@[simp] theorem setJob_identity (s : State) (j : Nat) (x : Job) : (setJob s j x).identity = s.identity := rfl

/-! ### A virtual device replaced -/

@[simp] theorem setVd_turn (s : State) (v : Nat) (d : VDev) : (setVd s v d).turn = s.turn := rfl
@[simp] theorem setVd_hostHeld (s : State) (v : Nat) (d : VDev) : (setVd s v d).hostHeld = s.hostHeld := rfl
@[simp] theorem setVd_pin (s : State) (v : Nat) (d : VDev) : (setVd s v d).pin = s.pin := rfl
@[simp] theorem setVd_tick (s : State) (v : Nat) (d : VDev) : (setVd s v d).tick = s.tick := rfl
@[simp] theorem setVd_now (s : State) (v : Nat) (d : VDev) : (setVd s v d).now = s.now := rfl
@[simp] theorem setVd_cur (s : State) (v : Nat) (d : VDev) : (setVd s v d).cur = s.cur := rfl
@[simp] theorem setVd_words (s : State) (v : Nat) (d : VDev) : (setVd s v d).words = s.words := rfl
@[simp] theorem setVd_held (s : State) (v : Nat) (d : VDev) : (setVd s v d).held = s.held := rfl
@[simp] theorem setVd_focus (s : State) (v : Nat) (d : VDev) : (setVd s v d).focus = s.focus := rfl
@[simp] theorem setVd_core (s : State) (v : Nat) (d : VDev) : (setVd s v d).core = s.core := rfl
@[simp] theorem setVd_others (s : State) (v : Nat) (d : VDev) : (setVd s v d).others = s.others := rfl
@[simp] theorem setVd_outbox (s : State) (v : Nat) (d : VDev) : (setVd s v d).outbox = s.outbox := rfl
@[simp] theorem setVd_mem (s : State) (v : Nat) (d : VDev) : (setVd s v d).mem = s.mem := rfl
@[simp] theorem setVd_vaults (s : State) (v : Nat) (d : VDev) : (setVd s v d).vaults = s.vaults := rfl
@[simp] theorem setVd_vaultErr (s : State) (v : Nat) (d : VDev) : (setVd s v d).vaultErr = s.vaultErr := rfl
@[simp] theorem setVd_lineErr (s : State) (v : Nat) (d : VDev) : (setVd s v d).lineErr = s.lineErr := rfl
@[simp] theorem setVd_metaErr (s : State) (v : Nat) (d : VDev) : (setVd s v d).metaErr = s.metaErr := rfl
@[simp] theorem setVd_l2 (s : State) (v : Nat) (d : VDev) : (setVd s v d).l2 = s.l2 := rfl
@[simp] theorem setVd_majors (s : State) (v : Nat) (d : VDev) : (setVd s v d).majors = s.majors := rfl
@[simp] theorem setVd_minors (s : State) (v : Nat) (d : VDev) : (setVd s v d).minors = s.minors := rfl
@[simp] theorem setVd_treeCtrs (s : State) (v : Nat) (d : VDev) : (setVd s v d).treeCtrs = s.treeCtrs := rfl
@[simp] theorem setVd_treeDirty (s : State) (v : Nat) (d : VDev) : (setVd s v d).treeDirty = s.treeDirty := rfl
@[simp] theorem setVd_epoch (s : State) (v : Nat) (d : VDev) : (setVd s v d).epoch = s.epoch := rfl
@[simp] theorem setVd_touched (s : State) (v : Nat) (d : VDev) : (setVd s v d).touched = s.touched := rfl
@[simp] theorem setVd_pot (s : State) (v : Nat) (d : VDev) : (setVd s v d).pot = s.pot := rfl
@[simp] theorem setVd_earlier (s : State) (v : Nat) (d : VDev) : (setVd s v d).earlier = s.earlier := rfl
@[simp] theorem setVd_keys (s : State) (v : Nat) (d : VDev) : (setVd s v d).keys = s.keys := rfl
@[simp] theorem setVd_ctxs (s : State) (v : Nat) (d : VDev) : (setVd s v d).ctxs = s.ctxs := rfl
@[simp] theorem setVd_jobs (s : State) (v : Nat) (d : VDev) : (setVd s v d).jobs = s.jobs := rfl
@[simp] theorem setVd_nextJob (s : State) (v : Nat) (d : VDev) : (setVd s v d).nextJob = s.nextJob := rfl
@[simp] theorem setVd_att (s : State) (v : Nat) (d : VDev) : (setVd s v d).att = s.att := rfl
@[simp] theorem setVd_cached (s : State) (v : Nat) (d : VDev) : (setVd s v d).cached = s.cached := rfl
@[simp] theorem setVd_pinned (s : State) (v : Nat) (d : VDev) : (setVd s v d).pinned = s.pinned := rfl
@[simp] theorem setVd_pinPools (s : State) (v : Nat) (d : VDev) : (setVd s v d).pinPools = s.pinPools := rfl
@[simp] theorem setVd_barBase (s : State) (v : Nat) (d : VDev) : (setVd s v d).barBase = s.barBase := rfl
@[simp] theorem setVd_parts (s : State) (v : Nat) (d : VDev) : (setVd s v d).parts = s.parts := rfl
@[simp] theorem setVd_partsNew (s : State) (v : Nat) (d : VDev) : (setVd s v d).partsNew = s.partsNew := rfl
@[simp] theorem setVd_margins (s : State) (v : Nat) (d : VDev) : (setVd s v d).margins = s.margins := rfl
@[simp] theorem setVd_purses (s : State) (v : Nat) (d : VDev) : (setVd s v d).purses = s.purses := rfl
@[simp] theorem setVd_refills (s : State) (v : Nat) (d : VDev) : (setVd s v d).refills = s.refills := rfl
@[simp] theorem setVd_arrays (s : State) (v : Nat) (d : VDev) : (setVd s v d).arrays = s.arrays := rfl
@[simp] theorem setVd_fenced (s : State) (v : Nat) (d : VDev) : (setVd s v d).fenced = s.fenced := rfl
@[simp] theorem setVd_errTimes (s : State) (v : Nat) (d : VDev) : (setVd s v d).errTimes = s.errTimes := rfl
@[simp] theorem setVd_pageReqs (s : State) (v : Nat) (d : VDev) : (setVd s v d).pageReqs = s.pageReqs := rfl
@[simp] theorem setVd_migs (s : State) (v : Nat) (d : VDev) : (setVd s v d).migs = s.migs := rfl
@[simp] theorem setVd_joins (s : State) (v : Nat) (d : VDev) : (setVd s v d).joins = s.joins := rfl
@[simp] theorem setVd_contribs (s : State) (v : Nat) (d : VDev) : (setVd s v d).contribs = s.contribs := rfl
@[simp] theorem setVd_pairings (s : State) (v : Nat) (d : VDev) : (setVd s v d).pairings = s.pairings := rfl
@[simp] theorem setVd_rxFlows (s : State) (v : Nat) (d : VDev) : (setVd s v d).rxFlows = s.rxFlows := rfl
@[simp] theorem setVd_rxRows (s : State) (v : Nat) (d : VDev) : (setVd s v d).rxRows = s.rxRows := rfl
@[simp] theorem setVd_holding (s : State) (v : Nat) (d : VDev) : (setVd s v d).holding = s.holding := rfl
@[simp] theorem setVd_routes (s : State) (v : Nat) (d : VDev) : (setVd s v d).routes = s.routes := rfl
@[simp] theorem setVd_hdm (s : State) (v : Nat) (d : VDev) : (setVd s v d).hdm = s.hdm := rfl
@[simp] theorem setVd_portsDown (s : State) (v : Nat) (d : VDev) : (setVd s v d).portsDown = s.portsDown := rfl
@[simp] theorem setVd_cxlDown (s : State) (v : Nat) (d : VDev) : (setVd s v d).cxlDown = s.cxlDown := rfl
@[simp] theorem setVd_peersDown (s : State) (v : Nat) (d : VDev) : (setVd s v d).peersDown = s.peersDown := rfl
@[simp] theorem setVd_health (s : State) (v : Nat) (d : VDev) : (setVd s v d).health = s.health := rfl
@[simp] theorem setVd_tripped (s : State) (v : Nat) (d : VDev) : (setVd s v d).tripped = s.tripped := rfl
@[simp] theorem setVd_govRun (s : State) (v : Nat) (d : VDev) : (setVd s v d).govRun = s.govRun := rfl
@[simp] theorem setVd_margin (s : State) (v : Nat) (d : VDev) : (setVd s v d).margin = s.margin := rfl
@[simp] theorem setVd_firstBoot (s : State) (v : Nat) (d : VDev) : (setVd s v d).firstBoot = s.firstBoot := rfl
@[simp] theorem setVd_ageing (s : State) (v : Nat) (d : VDev) : (setVd s v d).ageing = s.ageing := rfl
@[simp] theorem setVd_agentCtx (s : State) (v : Nat) (d : VDev) : (setVd s v d).agentCtx = s.agentCtx := rfl
@[simp] theorem setVd_agentSel (s : State) (v : Nat) (d : VDev) : (setVd s v d).agentSel = s.agentSel := rfl
@[simp] theorem setVd_agentReg (s : State) (v : Nat) (d : VDev) : (setVd s v d).agentReg = s.agentReg := rfl
@[simp] theorem setVd_agentX (s : State) (v : Nat) (d : VDev) : (setVd s v d).agentX = s.agentX := rfl
@[simp] theorem setVd_phase (s : State) (v : Nat) (d : VDev) : (setVd s v d).phase = s.phase := rfl
@[simp] theorem setVd_package (s : State) (v : Nat) (d : VDev) : (setVd s v d).package = s.package := rfl
@[simp] theorem setVd_flash (s : State) (v : Nat) (d : VDev) : (setVd s v d).flash = s.flash := rfl
@[simp] theorem setVd_fwVersion (s : State) (v : Nat) (d : VDev) : (setVd s v d).fwVersion = s.fwVersion := rfl
@[simp] theorem setVd_fwHash (s : State) (v : Nat) (d : VDev) : (setVd s v d).fwHash = s.fwHash := rfl
@[simp] theorem setVd_fwFused (s : State) (v : Nat) (d : VDev) : (setVd s v d).fwFused = s.fwFused := rfl
@[simp] theorem setVd_idSeed (s : State) (v : Nat) (d : VDev) : (setVd s v d).idSeed = s.idSeed := rfl
@[simp] theorem setVd_identity (s : State) (v : Nat) (d : VDev) : (setVd s v d).identity = s.identity := rfl

/-! ### A purse replaced -/

@[simp] theorem setPurse_turn (s : State) (k n v : Nat) (p : Purse) : (setPurse s k n v p).turn = s.turn := rfl
@[simp] theorem setPurse_hostHeld (s : State) (k n v : Nat) (p : Purse) : (setPurse s k n v p).hostHeld = s.hostHeld := rfl
@[simp] theorem setPurse_pin (s : State) (k n v : Nat) (p : Purse) : (setPurse s k n v p).pin = s.pin := rfl
@[simp] theorem setPurse_tick (s : State) (k n v : Nat) (p : Purse) : (setPurse s k n v p).tick = s.tick := rfl
@[simp] theorem setPurse_now (s : State) (k n v : Nat) (p : Purse) : (setPurse s k n v p).now = s.now := rfl
@[simp] theorem setPurse_cur (s : State) (k n v : Nat) (p : Purse) : (setPurse s k n v p).cur = s.cur := rfl
@[simp] theorem setPurse_words (s : State) (k n v : Nat) (p : Purse) : (setPurse s k n v p).words = s.words := rfl
@[simp] theorem setPurse_held (s : State) (k n v : Nat) (p : Purse) : (setPurse s k n v p).held = s.held := rfl
@[simp] theorem setPurse_focus (s : State) (k n v : Nat) (p : Purse) : (setPurse s k n v p).focus = s.focus := rfl
@[simp] theorem setPurse_core (s : State) (k n v : Nat) (p : Purse) : (setPurse s k n v p).core = s.core := rfl
@[simp] theorem setPurse_others (s : State) (k n v : Nat) (p : Purse) : (setPurse s k n v p).others = s.others := rfl
@[simp] theorem setPurse_outbox (s : State) (k n v : Nat) (p : Purse) : (setPurse s k n v p).outbox = s.outbox := rfl
@[simp] theorem setPurse_mem (s : State) (k n v : Nat) (p : Purse) : (setPurse s k n v p).mem = s.mem := rfl
@[simp] theorem setPurse_vaults (s : State) (k n v : Nat) (p : Purse) : (setPurse s k n v p).vaults = s.vaults := rfl
@[simp] theorem setPurse_vaultErr (s : State) (k n v : Nat) (p : Purse) : (setPurse s k n v p).vaultErr = s.vaultErr := rfl
@[simp] theorem setPurse_lineErr (s : State) (k n v : Nat) (p : Purse) : (setPurse s k n v p).lineErr = s.lineErr := rfl
@[simp] theorem setPurse_metaErr (s : State) (k n v : Nat) (p : Purse) : (setPurse s k n v p).metaErr = s.metaErr := rfl
@[simp] theorem setPurse_l2 (s : State) (k n v : Nat) (p : Purse) : (setPurse s k n v p).l2 = s.l2 := rfl
@[simp] theorem setPurse_majors (s : State) (k n v : Nat) (p : Purse) : (setPurse s k n v p).majors = s.majors := rfl
@[simp] theorem setPurse_minors (s : State) (k n v : Nat) (p : Purse) : (setPurse s k n v p).minors = s.minors := rfl
@[simp] theorem setPurse_treeCtrs (s : State) (k n v : Nat) (p : Purse) : (setPurse s k n v p).treeCtrs = s.treeCtrs := rfl
@[simp] theorem setPurse_treeDirty (s : State) (k n v : Nat) (p : Purse) : (setPurse s k n v p).treeDirty = s.treeDirty := rfl
@[simp] theorem setPurse_epoch (s : State) (k n v : Nat) (p : Purse) : (setPurse s k n v p).epoch = s.epoch := rfl
@[simp] theorem setPurse_touched (s : State) (k n v : Nat) (p : Purse) : (setPurse s k n v p).touched = s.touched := rfl
@[simp] theorem setPurse_pot (s : State) (k n v : Nat) (p : Purse) : (setPurse s k n v p).pot = s.pot := rfl
@[simp] theorem setPurse_earlier (s : State) (k n v : Nat) (p : Purse) : (setPurse s k n v p).earlier = s.earlier := rfl
@[simp] theorem setPurse_keys (s : State) (k n v : Nat) (p : Purse) : (setPurse s k n v p).keys = s.keys := rfl
@[simp] theorem setPurse_ctxs (s : State) (k n v : Nat) (p : Purse) : (setPurse s k n v p).ctxs = s.ctxs := rfl
@[simp] theorem setPurse_jobs (s : State) (k n v : Nat) (p : Purse) : (setPurse s k n v p).jobs = s.jobs := rfl
@[simp] theorem setPurse_nextJob (s : State) (k n v : Nat) (p : Purse) : (setPurse s k n v p).nextJob = s.nextJob := rfl
@[simp] theorem setPurse_att (s : State) (k n v : Nat) (p : Purse) : (setPurse s k n v p).att = s.att := rfl
@[simp] theorem setPurse_cached (s : State) (k n v : Nat) (p : Purse) : (setPurse s k n v p).cached = s.cached := rfl
@[simp] theorem setPurse_pinned (s : State) (k n v : Nat) (p : Purse) : (setPurse s k n v p).pinned = s.pinned := rfl
@[simp] theorem setPurse_pinPools (s : State) (k n v : Nat) (p : Purse) : (setPurse s k n v p).pinPools = s.pinPools := rfl
@[simp] theorem setPurse_vds (s : State) (k n v : Nat) (p : Purse) : (setPurse s k n v p).vds = s.vds := rfl
@[simp] theorem setPurse_barBase (s : State) (k n v : Nat) (p : Purse) : (setPurse s k n v p).barBase = s.barBase := rfl
@[simp] theorem setPurse_parts (s : State) (k n v : Nat) (p : Purse) : (setPurse s k n v p).parts = s.parts := rfl
@[simp] theorem setPurse_partsNew (s : State) (k n v : Nat) (p : Purse) : (setPurse s k n v p).partsNew = s.partsNew := rfl
@[simp] theorem setPurse_margins (s : State) (k n v : Nat) (p : Purse) : (setPurse s k n v p).margins = s.margins := rfl
@[simp] theorem setPurse_refills (s : State) (k n v : Nat) (p : Purse) : (setPurse s k n v p).refills = s.refills := rfl
@[simp] theorem setPurse_arrays (s : State) (k n v : Nat) (p : Purse) : (setPurse s k n v p).arrays = s.arrays := rfl
@[simp] theorem setPurse_fenced (s : State) (k n v : Nat) (p : Purse) : (setPurse s k n v p).fenced = s.fenced := rfl
@[simp] theorem setPurse_errTimes (s : State) (k n v : Nat) (p : Purse) : (setPurse s k n v p).errTimes = s.errTimes := rfl
@[simp] theorem setPurse_pageReqs (s : State) (k n v : Nat) (p : Purse) : (setPurse s k n v p).pageReqs = s.pageReqs := rfl
@[simp] theorem setPurse_migs (s : State) (k n v : Nat) (p : Purse) : (setPurse s k n v p).migs = s.migs := rfl
@[simp] theorem setPurse_joins (s : State) (k n v : Nat) (p : Purse) : (setPurse s k n v p).joins = s.joins := rfl
@[simp] theorem setPurse_contribs (s : State) (k n v : Nat) (p : Purse) : (setPurse s k n v p).contribs = s.contribs := rfl
@[simp] theorem setPurse_pairings (s : State) (k n v : Nat) (p : Purse) : (setPurse s k n v p).pairings = s.pairings := rfl
@[simp] theorem setPurse_rxFlows (s : State) (k n v : Nat) (p : Purse) : (setPurse s k n v p).rxFlows = s.rxFlows := rfl
@[simp] theorem setPurse_rxRows (s : State) (k n v : Nat) (p : Purse) : (setPurse s k n v p).rxRows = s.rxRows := rfl
@[simp] theorem setPurse_holding (s : State) (k n v : Nat) (p : Purse) : (setPurse s k n v p).holding = s.holding := rfl
@[simp] theorem setPurse_routes (s : State) (k n v : Nat) (p : Purse) : (setPurse s k n v p).routes = s.routes := rfl
@[simp] theorem setPurse_hdm (s : State) (k n v : Nat) (p : Purse) : (setPurse s k n v p).hdm = s.hdm := rfl
@[simp] theorem setPurse_portsDown (s : State) (k n v : Nat) (p : Purse) : (setPurse s k n v p).portsDown = s.portsDown := rfl
@[simp] theorem setPurse_cxlDown (s : State) (k n v : Nat) (p : Purse) : (setPurse s k n v p).cxlDown = s.cxlDown := rfl
@[simp] theorem setPurse_peersDown (s : State) (k n v : Nat) (p : Purse) : (setPurse s k n v p).peersDown = s.peersDown := rfl
@[simp] theorem setPurse_health (s : State) (k n v : Nat) (p : Purse) : (setPurse s k n v p).health = s.health := rfl
@[simp] theorem setPurse_tripped (s : State) (k n v : Nat) (p : Purse) : (setPurse s k n v p).tripped = s.tripped := rfl
@[simp] theorem setPurse_govRun (s : State) (k n v : Nat) (p : Purse) : (setPurse s k n v p).govRun = s.govRun := rfl
@[simp] theorem setPurse_margin (s : State) (k n v : Nat) (p : Purse) : (setPurse s k n v p).margin = s.margin := rfl
@[simp] theorem setPurse_firstBoot (s : State) (k n v : Nat) (p : Purse) : (setPurse s k n v p).firstBoot = s.firstBoot := rfl
@[simp] theorem setPurse_ageing (s : State) (k n v : Nat) (p : Purse) : (setPurse s k n v p).ageing = s.ageing := rfl
@[simp] theorem setPurse_agentCtx (s : State) (k n v : Nat) (p : Purse) : (setPurse s k n v p).agentCtx = s.agentCtx := rfl
@[simp] theorem setPurse_agentSel (s : State) (k n v : Nat) (p : Purse) : (setPurse s k n v p).agentSel = s.agentSel := rfl
@[simp] theorem setPurse_agentReg (s : State) (k n v : Nat) (p : Purse) : (setPurse s k n v p).agentReg = s.agentReg := rfl
@[simp] theorem setPurse_agentX (s : State) (k n v : Nat) (p : Purse) : (setPurse s k n v p).agentX = s.agentX := rfl
@[simp] theorem setPurse_phase (s : State) (k n v : Nat) (p : Purse) : (setPurse s k n v p).phase = s.phase := rfl
@[simp] theorem setPurse_package (s : State) (k n v : Nat) (p : Purse) : (setPurse s k n v p).package = s.package := rfl
@[simp] theorem setPurse_flash (s : State) (k n v : Nat) (p : Purse) : (setPurse s k n v p).flash = s.flash := rfl
@[simp] theorem setPurse_fwVersion (s : State) (k n v : Nat) (p : Purse) : (setPurse s k n v p).fwVersion = s.fwVersion := rfl
@[simp] theorem setPurse_fwHash (s : State) (k n v : Nat) (p : Purse) : (setPurse s k n v p).fwHash = s.fwHash := rfl
@[simp] theorem setPurse_fwFused (s : State) (k n v : Nat) (p : Purse) : (setPurse s k n v p).fwFused = s.fwFused := rfl
@[simp] theorem setPurse_idSeed (s : State) (k n v : Nat) (p : Purse) : (setPurse s k n v p).idSeed = s.idSeed := rfl
@[simp] theorem setPurse_identity (s : State) (k n v : Nat) (p : Purse) : (setPurse s k n v p).identity = s.identity := rfl

/-! ### Registers -/

/-- Register 0 reads as zero (R10). -/
@[simp] theorem regOf_zero (t : Stream) : regOf t 0 = 0 := rfl
/-- Register 0 discards a write (R10). -/
@[simp] theorem setRegOf_zero (t : Stream) (v : Word) : setRegOf t 0 v = t := rfl
@[simp] theorem readReg_zero (s : State) : readReg s 0 = 0 := rfl
@[simp] theorem writeReg_zero (s : State) (v : Word) : writeReg s 0 v = s := by simp [writeReg]

@[simp] theorem setRegOf_pc (t : Stream) (i : Nat) (v : Word) : (setRegOf t i v).pc = t.pc := by unfold setRegOf; split <;> rfl
@[simp] theorem setRegOf_rets (t : Stream) (i : Nat) (v : Word) : (setRegOf t i v).rets = t.rets := by unfold setRegOf; split <;> rfl
@[simp] theorem setRegOf_loops (t : Stream) (i : Nat) (v : Word) : (setRegOf t i v).loops = t.loops := by unfold setRegOf; split <;> rfl
@[simp] theorem setRegOf_draws (t : Stream) (i : Nat) (v : Word) : (setRegOf t i v).draws = t.draws := by unfold setRegOf; split <;> rfl
@[simp] theorem setRegOf_state (t : Stream) (i : Nat) (v : Word) : (setRegOf t i v).state = t.state := by unfold setRegOf; split <;> rfl
@[simp] theorem setRegOf_before (t : Stream) (i : Nat) (v : Word) : (setRegOf t i v).before = t.before := by unfold setRegOf; split <;> rfl
@[simp] theorem setRegOf_pending (t : Stream) (i : Nat) (v : Word) : (setRegOf t i v).pending = t.pending := by unfold setRegOf; split <;> rfl
@[simp] theorem setRegOf_record (t : Stream) (i : Nat) (v : Word) : (setRegOf t i v).record = t.record := by unfold setRegOf; split <;> rfl
@[simp] theorem setRegOf_fault (t : Stream) (i : Nat) (v : Word) : (setRegOf t i v).fault = t.fault := by unfold setRegOf; split <;> rfl
@[simp] theorem setRegOf_step (t : Stream) (i : Nat) (v : Word) : (setRegOf t i v).step = t.step := by unfold setRegOf; split <;> rfl
@[simp] theorem setRegOf_displaced (t : Stream) (i : Nat) (v : Word) : (setRegOf t i v).displaced = t.displaced := by unfold setRegOf; split <;> rfl

theorem curStream_writeReg (s : State) (i : Nat) (v : Word) : curStream (writeReg s i v) = setRegOf (curStream s) i v := by simp [writeReg]

@[simp] theorem writeReg_turn (s : State) (i : Nat) (v : Word) : (writeReg s i v).turn = s.turn := rfl
@[simp] theorem writeReg_hostHeld (s : State) (i : Nat) (v : Word) : (writeReg s i v).hostHeld = s.hostHeld := rfl
@[simp] theorem writeReg_pin (s : State) (i : Nat) (v : Word) : (writeReg s i v).pin = s.pin := rfl
@[simp] theorem writeReg_tick (s : State) (i : Nat) (v : Word) : (writeReg s i v).tick = s.tick := rfl
@[simp] theorem writeReg_now (s : State) (i : Nat) (v : Word) : (writeReg s i v).now = s.now := rfl
@[simp] theorem writeReg_cur (s : State) (i : Nat) (v : Word) : (writeReg s i v).cur = s.cur := rfl
@[simp] theorem writeReg_words (s : State) (i : Nat) (v : Word) : (writeReg s i v).words = s.words := rfl
@[simp] theorem writeReg_held (s : State) (i : Nat) (v : Word) : (writeReg s i v).held = s.held := rfl
@[simp] theorem writeReg_focus (s : State) (i : Nat) (v : Word) : (writeReg s i v).focus = s.focus := rfl
@[simp] theorem writeReg_others (s : State) (i : Nat) (v : Word) : (writeReg s i v).others = s.others := rfl
@[simp] theorem writeReg_outbox (s : State) (i : Nat) (v : Word) : (writeReg s i v).outbox = s.outbox := rfl
@[simp] theorem writeReg_mem (s : State) (i : Nat) (v : Word) : (writeReg s i v).mem = s.mem := rfl
@[simp] theorem writeReg_vaults (s : State) (i : Nat) (v : Word) : (writeReg s i v).vaults = s.vaults := rfl
@[simp] theorem writeReg_vaultErr (s : State) (i : Nat) (v : Word) : (writeReg s i v).vaultErr = s.vaultErr := rfl
@[simp] theorem writeReg_lineErr (s : State) (i : Nat) (v : Word) : (writeReg s i v).lineErr = s.lineErr := rfl
@[simp] theorem writeReg_metaErr (s : State) (i : Nat) (v : Word) : (writeReg s i v).metaErr = s.metaErr := rfl
@[simp] theorem writeReg_l2 (s : State) (i : Nat) (v : Word) : (writeReg s i v).l2 = s.l2 := rfl
@[simp] theorem writeReg_majors (s : State) (i : Nat) (v : Word) : (writeReg s i v).majors = s.majors := rfl
@[simp] theorem writeReg_minors (s : State) (i : Nat) (v : Word) : (writeReg s i v).minors = s.minors := rfl
@[simp] theorem writeReg_treeCtrs (s : State) (i : Nat) (v : Word) : (writeReg s i v).treeCtrs = s.treeCtrs := rfl
@[simp] theorem writeReg_treeDirty (s : State) (i : Nat) (v : Word) : (writeReg s i v).treeDirty = s.treeDirty := rfl
@[simp] theorem writeReg_epoch (s : State) (i : Nat) (v : Word) : (writeReg s i v).epoch = s.epoch := rfl
@[simp] theorem writeReg_touched (s : State) (i : Nat) (v : Word) : (writeReg s i v).touched = s.touched := rfl
@[simp] theorem writeReg_pot (s : State) (i : Nat) (v : Word) : (writeReg s i v).pot = s.pot := rfl
@[simp] theorem writeReg_earlier (s : State) (i : Nat) (v : Word) : (writeReg s i v).earlier = s.earlier := rfl
@[simp] theorem writeReg_keys (s : State) (i : Nat) (v : Word) : (writeReg s i v).keys = s.keys := rfl
@[simp] theorem writeReg_ctxs (s : State) (i : Nat) (v : Word) : (writeReg s i v).ctxs = s.ctxs := rfl
@[simp] theorem writeReg_jobs (s : State) (i : Nat) (v : Word) : (writeReg s i v).jobs = s.jobs := rfl
@[simp] theorem writeReg_nextJob (s : State) (i : Nat) (v : Word) : (writeReg s i v).nextJob = s.nextJob := rfl
@[simp] theorem writeReg_att (s : State) (i : Nat) (v : Word) : (writeReg s i v).att = s.att := rfl
@[simp] theorem writeReg_cached (s : State) (i : Nat) (v : Word) : (writeReg s i v).cached = s.cached := rfl
@[simp] theorem writeReg_pinned (s : State) (i : Nat) (v : Word) : (writeReg s i v).pinned = s.pinned := rfl
@[simp] theorem writeReg_pinPools (s : State) (i : Nat) (v : Word) : (writeReg s i v).pinPools = s.pinPools := rfl
@[simp] theorem writeReg_vds (s : State) (i : Nat) (v : Word) : (writeReg s i v).vds = s.vds := rfl
@[simp] theorem writeReg_barBase (s : State) (i : Nat) (v : Word) : (writeReg s i v).barBase = s.barBase := rfl
@[simp] theorem writeReg_parts (s : State) (i : Nat) (v : Word) : (writeReg s i v).parts = s.parts := rfl
@[simp] theorem writeReg_partsNew (s : State) (i : Nat) (v : Word) : (writeReg s i v).partsNew = s.partsNew := rfl
@[simp] theorem writeReg_margins (s : State) (i : Nat) (v : Word) : (writeReg s i v).margins = s.margins := rfl
@[simp] theorem writeReg_purses (s : State) (i : Nat) (v : Word) : (writeReg s i v).purses = s.purses := rfl
@[simp] theorem writeReg_refills (s : State) (i : Nat) (v : Word) : (writeReg s i v).refills = s.refills := rfl
@[simp] theorem writeReg_arrays (s : State) (i : Nat) (v : Word) : (writeReg s i v).arrays = s.arrays := rfl
@[simp] theorem writeReg_fenced (s : State) (i : Nat) (v : Word) : (writeReg s i v).fenced = s.fenced := rfl
@[simp] theorem writeReg_errTimes (s : State) (i : Nat) (v : Word) : (writeReg s i v).errTimes = s.errTimes := rfl
@[simp] theorem writeReg_pageReqs (s : State) (i : Nat) (v : Word) : (writeReg s i v).pageReqs = s.pageReqs := rfl
@[simp] theorem writeReg_migs (s : State) (i : Nat) (v : Word) : (writeReg s i v).migs = s.migs := rfl
@[simp] theorem writeReg_joins (s : State) (i : Nat) (v : Word) : (writeReg s i v).joins = s.joins := rfl
@[simp] theorem writeReg_contribs (s : State) (i : Nat) (v : Word) : (writeReg s i v).contribs = s.contribs := rfl
@[simp] theorem writeReg_pairings (s : State) (i : Nat) (v : Word) : (writeReg s i v).pairings = s.pairings := rfl
@[simp] theorem writeReg_rxFlows (s : State) (i : Nat) (v : Word) : (writeReg s i v).rxFlows = s.rxFlows := rfl
@[simp] theorem writeReg_rxRows (s : State) (i : Nat) (v : Word) : (writeReg s i v).rxRows = s.rxRows := rfl
@[simp] theorem writeReg_holding (s : State) (i : Nat) (v : Word) : (writeReg s i v).holding = s.holding := rfl
@[simp] theorem writeReg_routes (s : State) (i : Nat) (v : Word) : (writeReg s i v).routes = s.routes := rfl
@[simp] theorem writeReg_hdm (s : State) (i : Nat) (v : Word) : (writeReg s i v).hdm = s.hdm := rfl
@[simp] theorem writeReg_portsDown (s : State) (i : Nat) (v : Word) : (writeReg s i v).portsDown = s.portsDown := rfl
@[simp] theorem writeReg_cxlDown (s : State) (i : Nat) (v : Word) : (writeReg s i v).cxlDown = s.cxlDown := rfl
@[simp] theorem writeReg_peersDown (s : State) (i : Nat) (v : Word) : (writeReg s i v).peersDown = s.peersDown := rfl
@[simp] theorem writeReg_health (s : State) (i : Nat) (v : Word) : (writeReg s i v).health = s.health := rfl
@[simp] theorem writeReg_tripped (s : State) (i : Nat) (v : Word) : (writeReg s i v).tripped = s.tripped := rfl
@[simp] theorem writeReg_govRun (s : State) (i : Nat) (v : Word) : (writeReg s i v).govRun = s.govRun := rfl
@[simp] theorem writeReg_margin (s : State) (i : Nat) (v : Word) : (writeReg s i v).margin = s.margin := rfl
@[simp] theorem writeReg_firstBoot (s : State) (i : Nat) (v : Word) : (writeReg s i v).firstBoot = s.firstBoot := rfl
@[simp] theorem writeReg_ageing (s : State) (i : Nat) (v : Word) : (writeReg s i v).ageing = s.ageing := rfl
@[simp] theorem writeReg_agentCtx (s : State) (i : Nat) (v : Word) : (writeReg s i v).agentCtx = s.agentCtx := rfl
@[simp] theorem writeReg_agentSel (s : State) (i : Nat) (v : Word) : (writeReg s i v).agentSel = s.agentSel := rfl
@[simp] theorem writeReg_agentReg (s : State) (i : Nat) (v : Word) : (writeReg s i v).agentReg = s.agentReg := rfl
@[simp] theorem writeReg_agentX (s : State) (i : Nat) (v : Word) : (writeReg s i v).agentX = s.agentX := rfl
@[simp] theorem writeReg_phase (s : State) (i : Nat) (v : Word) : (writeReg s i v).phase = s.phase := rfl
@[simp] theorem writeReg_package (s : State) (i : Nat) (v : Word) : (writeReg s i v).package = s.package := rfl
@[simp] theorem writeReg_flash (s : State) (i : Nat) (v : Word) : (writeReg s i v).flash = s.flash := rfl
@[simp] theorem writeReg_fwVersion (s : State) (i : Nat) (v : Word) : (writeReg s i v).fwVersion = s.fwVersion := rfl
@[simp] theorem writeReg_fwHash (s : State) (i : Nat) (v : Word) : (writeReg s i v).fwHash = s.fwHash := rfl
@[simp] theorem writeReg_fwFused (s : State) (i : Nat) (v : Word) : (writeReg s i v).fwFused = s.fwFused := rfl
@[simp] theorem writeReg_idSeed (s : State) (i : Nat) (v : Word) : (writeReg s i v).idSeed = s.idSeed := rfl
@[simp] theorem writeReg_identity (s : State) (i : Nat) (v : Word) : (writeReg s i v).identity = s.identity := rfl

end Sys2Proof.Machine
end

