-- ==== Sys2Proof/Laws/Issue.lean ====
section
/-! SUPPORT. What the issue of an engine instruction does, said once (R151, R158, R165, R307). -/

namespace Sys2Proof.Machine

/-- The claims of a list of operands touch the rings of the core and nothing else of it (R158). -/
theorem claimRing_core (c : Core) (u : OpUse) : ∃ r, (claimRing c u).1 = { c with rings := r } := by
  unfold claimRing
  dsimp only
  by_cases h : u.d.peek = true
  · rw [if_pos h]; exact ⟨c.rings, rfl⟩
  · rw [if_neg h]
    by_cases h' : u.writes = true
    · rw [if_pos h']; exact ⟨_, rfl⟩
    · rw [if_neg h']; exact ⟨_, rfl⟩

theorem claimFold_core (us : List OpUse) (c : Core) (l : List Claim) :
    ∃ r, (us.foldl (fun a u => if u.d.type = 4 then let r := claimRing a.1 u; (r.1, a.2 ++ [⟨u.code, u.d.nreg, r.2⟩]) else a) (c, l)).1 =
      { c with rings := r } := by
  induction us generalizing c l with
  | nil => exact ⟨c.rings, rfl⟩
  | cons u us ih =>
    simp only [List.foldl_cons]
    split_ifs
    · obtain ⟨r, hr⟩ := claimRing_core c u
      obtain ⟨q, hq⟩ := ih (claimRing c u).1 (l ++ [⟨u.code, u.d.nreg, (claimRing c u).2⟩])
      exact ⟨q, by rw [hq, hr]⟩
    · exact ih c l

/-- The claims of an instruction change the rings alone (R158). -/
theorem claimRings_core (c : Core) (us : List OpUse) : ∃ r cl, claimRings c us = ({ c with rings := r }, cl) := by
  obtain ⟨r, hr⟩ := claimFold_core us c []
  exact ⟨r, _, Prod.ext hr rfl⟩

/-- No ring is short when each operand's has room (R158). -/
theorem shortRing_none {c : Core} {us : List OpUse} (h : ∀ u ∈ us, ringShort c u = false) : shortRing c us = none := by
  unfold shortRing
  rw [List.find?_eq_none.2 fun u hu => by simp [h u hu]]; rfl

/-- The ring conditions hold for every operand when they hold for each of type RING (R163). -/
theorem ringChecks_ok (c : Core) (us : List OpUse) (h : ∀ u ∈ us, u.d.type = 4 → ringUseBad c us u = false) : ringChecks c us = .ok () := by
  unfold ringChecks
  rw [List.find?_eq_none.2 fun u hu => by simpa using h u hu]

/-- What an instruction holds as its claims are made: its operands, takes and entry (R165). -/
def readyOf (s : State) (i : Instr) (sp : IssueSpec) (n : Nat) : Ready :=
  { engine := sp.engine, uses := sp.uses.map fun u => (u.1, tabGet 0 s.core.descs (u.2.1 % 32), u.2.2), takes := takesOf sp.sync, array := sp.array,
    entry := { entryOf s i with count := n, descs := (sp.uses.map (·.2.1) ++ sp.beside).map (fun k => tabGet 0 s.core.descs (k % 32)),
                                hvals := sp.hregs.map (readReg s), part := sp.part } }

/-- The operands of such an instruction are those that issue has sampled. -/
theorem readyUses_readyOf (s : State) (i : Instr) (sp : IssueSpec) (n : Nat) : readyUses (readyOf s i sp n) = sampleUses s sp.uses := by
  simp [readyUses, readyOf, sampleUses, List.map_map, Function.comp_def]

/-- An instruction whose reclaim is not needed and whose rings have room makes its claims, draws its takes and enters its queue (R165 steps 5, 6). -/
theorem claimAndQueue_ok {s : State} {r : Ready} (ha : (r.array && needsReclaim s.core && !freeQueued s.core) = false)
    (h : ∀ u ∈ readyUses r, ringShort s.core u = false) :
    ∃ q cl, claimRings s.core (readyUses r) = ({ s.core with rings := q }, cl) ∧
      claimAndQueue s r = .ok (enqueue (setCur { s with core := { s.core with rings := q } } (drawTakes (curStream s) r.takes)) r.engine
        { r.entry with claims := cl }) := by
  obtain ⟨q, cl, hcl⟩ := claimRings_core s.core (readyUses r)
  refine ⟨q, cl, hcl, ?_⟩
  unfold claimAndQueue
  rw [if_neg (by simp [ha]), shortRing_none h]
  simp only [hcl]
  have : streamOf { s.core with rings := q } s.cur = curStream s := by unfold curStream; cases s.cur <;> rfl
  rw [this]

/-- The issue of an instruction whose queue has room, whose takes hold and whose checks pass comes to its claims (R165 steps 2 to 4). -/
theorem issueWith_checked {s b : State} {i : Instr} {sp : IssueSpec} {count : List Desc → Nat}
    {checks : State → List Desc → List Word → Nat → Res State}
    (us : List OpUse) (hus : us = sampleUses s sp.uses) (n : Nat)
    (hn : n = match sp.sync.rows with | none => count (us.map (·.d)) | some r => min (readReg s r).toNat (count (us.map (·.d))))
    (hroom : (queueOf s.core sp.engine).length < 16) (htakes : takesHold s.core (curStream s) (takesOf sp.sync) = true)
    (hchecks : checks s (us.map (·.d)) (sp.hregs.map (readReg s)) n = .ok b)
    (hlate : sp.late (us.map (·.d)) (sp.hregs.map (readReg s)) = .ok ())
    (hrings : ∀ u ∈ us, u.d.type = 4 → ringUseBad b.core us u = false) :
    issueWith s i sp count checks = claimAndQueue b (readyOf s i sp n) := by
  have hfull : queueFull s.core sp.engine = false := by simp [queueFull]; omega
  have hh : sp.hregs.map (regOf (curStream s)) = sp.hregs.map (readReg s) := rfl
  have hr : ∀ r, regOf (curStream s) r = readReg s r := fun _ => rfl
  subst hus
  unfold issueWith readyOf
  cases hrows : sp.sync.rows <;> rw [hrows] at hn <;> dsimp only at hn <;> subst hn <;>
    simp only [hfull, htakes, Bool.not_true, Bool.false_eq_true, if_false, hh, hr, hchecks, ringChecks_ok _ _ hrings, hlate]

/-- The issue of an instruction whose queue has room, whose takes hold, whose checks pass and whose rings can be claimed (R165 steps 2 to 6): its
entry stands at the end of the queue, its takes are drawn and its claims made. -/
theorem issueWith_ok {s b : State} {i : Instr} {sp : IssueSpec} {count : List Desc → Nat}
    {checks : State → List Desc → List Word → Nat → Res State}
    (us : List OpUse) (hus : us = sampleUses s sp.uses) (n : Nat)
    (hn : n = match sp.sync.rows with | none => count (us.map (·.d)) | some r => min (readReg s r).toNat (count (us.map (·.d))))
    (hroom : (queueOf s.core sp.engine).length < 16) (htakes : takesHold s.core (curStream s) (takesOf sp.sync) = true)
    (hchecks : checks s (us.map (·.d)) (sp.hregs.map (readReg s)) n = .ok b)
    (hlate : sp.late (us.map (·.d)) (sp.hregs.map (readReg s)) = .ok ())
    (hrings : ∀ u ∈ us, u.d.type = 4 → ringUseBad b.core us u = false)
    (harray : (sp.array && needsReclaim b.core && !freeQueued b.core) = false) (hshort : ∀ u ∈ us, ringShort b.core u = false)
    (hstream : curStream b = curStream s) :
    ∃ r cl, claimRings b.core us = ({ b.core with rings := r }, cl) ∧
      issueWith s i sp count checks = .ok (enqueue (setCur { b with core := { b.core with rings := r } } (drawTakes (curStream s) (takesOf sp.sync)))
        sp.engine { (readyOf s i sp n).entry with claims := cl }) := by
  have hu := readyUses_readyOf s i sp n
  rw [← hus] at hu
  obtain ⟨r, cl, hcl, hq⟩ := claimAndQueue_ok (s := b) (r := readyOf s i sp n) harray (by rw [hu]; exact hshort)
  rw [hu] at hcl
  exact ⟨r, cl, hcl, by rw [issueWith_checked us hus n hn hroom htakes hchecks hlate hrings, hq, hstream]; rfl⟩

/-- The same for an instruction whose issue changes nothing but the queue. -/
theorem issue_ok {s : State} {i : Instr} {sp : IssueSpec} {count : List Desc → Nat} {checks : List Desc → List Word → Nat → Res Unit}
    (us : List OpUse) (hus : us = sampleUses s sp.uses) (n : Nat)
    (hn : n = match sp.sync.rows with | none => count (us.map (·.d)) | some r => min (readReg s r).toNat (count (us.map (·.d))))
    (hroom : (queueOf s.core sp.engine).length < 16) (htakes : takesHold s.core (curStream s) (takesOf sp.sync) = true)
    (hchecks : checks (us.map (·.d)) (sp.hregs.map (readReg s)) n = .ok ())
    (hlate : sp.late (us.map (·.d)) (sp.hregs.map (readReg s)) = .ok ())
    (hrings : ∀ u ∈ us, u.d.type = 4 → ringUseBad s.core us u = false)
    (harray : (sp.array && needsReclaim s.core && !freeQueued s.core) = false) (hshort : ∀ u ∈ us, ringShort s.core u = false) :
    ∃ r cl, claimRings s.core us = ({ s.core with rings := r }, cl) ∧
      issue s i sp count checks = .ok (enqueue (setCur { s with core := { s.core with rings := r } } (drawTakes (curStream s) (takesOf sp.sync)))
        sp.engine { (readyOf s i sp n).entry with claims := cl }) :=
  issueWith_ok (b := s) us hus n hn hroom htakes (by simp only [hchecks]; rfl) hlate hrings harray hshort rfl

/-- An instruction whose takes do not all hold waits on them before anything of it is judged (R165 step 2, R307). -/
theorem issueWith_takes {s : State} {i : Instr} {sp : IssueSpec} {count : List Desc → Nat} {checks : State → List Desc → List Word → Nat → Res State}
    (hroom : (queueOf s.core sp.engine).length < 16) (h : takesHold s.core (curStream s) (takesOf sp.sync) = false) :
    issueWith s i sp count checks = .error (.wait (.takes (takesOf sp.sync))) := by
  have hfull : queueFull s.core sp.engine = false := by simp [queueFull]; omega
  unfold issueWith; simp [h, hfull]

/-- An instruction whose queue is full does not begin (R81; log 93). -/
theorem issueWith_full {s : State} {i : Instr} {sp : IssueSpec} {count : List Desc → Nat} {checks : State → List Desc → List Word → Nat → Res State}
    (h : 16 ≤ (queueOf s.core sp.engine).length) : issueWith s i sp count checks = .error .busy := by
  have hfull : queueFull s.core sp.engine = true := by simp [queueFull]; omega
  unfold issueWith; simp [hfull]

end Sys2Proof.Machine
end

