-- ==== Sys2Proof/Laws/Enters.lean ====
section
/-! SUPPORT. From the shared law of issue to the form of the issue statements: what `enters` claims follows from the checks of an instruction alone. -/

namespace Sys2Proof.Claims
open Sys2Proof.Machine

/-- The takes hold that the issue statements ask for (R307). -/
theorem takesHold_of {c : Core} {t : Stream} {ks : List Nat}
    (h : ∀ k ∈ ks, (tabGet 0 c.sems k - (tabGet 0 t.draws k + BitVec.ofNat 32 (ks.count k))).toNat < 2 ^ 31) : takesHold c t ks = true := by
  unfold takesHold
  rw [List.all_eq_true]
  intro k hk
  have := h k hk
  unfold wrapGE semAt drawAt
  rw [List.count_eq_length_filter] at this
  have e : (ks.filter fun x => decide (x = k)) = ks.filter (· == k) := rfl
  rw [e]; exact decide_eq_true this

/-- An engine instruction whose issue passes its checks enters its queue as the issue statements say (R165). -/
theorem enters_of {s b : State} {i : Instr} {sp : IssueSpec} {count : List Desc → Nat}
    {checks : State → List Desc → List Word → Nat → Res State} {after : State → State} (cnt : Nat)
    (hexec : exec i s = .next (settle s ((issueWith s i sp count checks).map after)))
    (hc : count (sp.uses.map fun u => descOf (tabGet 0 s.core.descs (u.2.1 % 32))) = cnt)
    (hchecks : ∀ n, n = (match sp.sync.rows with | none => cnt | some r => min (readReg s r).toNat cnt) →
       checks s (sp.uses.map fun u => descOf (tabGet 0 s.core.descs (u.2.1 % 32))) (sp.hregs.map (readReg s)) n = .ok b)
    (hlate : sp.late (sp.uses.map fun u => descOf (tabGet 0 s.core.descs (u.2.1 % 32))) (sp.hregs.map (readReg s)) = .ok ())
    (harray : (sp.array && needsReclaim b.core && !freeQueued b.core) = false)
    (_ : b.cur = s.cur) (hstream : curStream b = curStream s) (hiss : b.core.issued = s.core.issued) :
    enters s b i sp.sync sp.engine sp.uses sp.hregs cnt sp.part after sp.beside := by
  unfold enters
  dsimp only
  intro htakes hrings hroom hshort
  let us : List OpUse := sp.uses.map fun u => ⟨u.1, descOf (tabGet 0 s.core.descs (u.2.1 % 32)), u.2.2⟩
  let n := match sp.sync.rows with | none => cnt | some r => min (readReg s r).toNat cnt
  have hds : us.map (·.d) = sp.uses.map fun u => descOf (tabGet 0 s.core.descs (u.2.1 % 32)) := by simp [us, List.map_map, Function.comp_def]
  obtain ⟨r, cl, hcl, hi⟩ := issueWith_ok (s := s) (b := b) (i := i) (sp := sp) (count := count) (checks := checks) us rfl n
     (by cases h : sp.sync.rows <;> simp only [n, h, hds, hc]) hroom (takesHold_of htakes)
     (by rw [hds]; exact hchecks _ rfl) (by rw [hds]; exact hlate) hrings harray hshort hstream
  refine ⟨r, cl, { (readyOf s i sp n).entry with claims := cl, seq := s.core.issued }, hcl, ?_, rfl, rfl, rfl, rfl, rfl, rfl, ?_, rfl, rfl, rfl, rfl, rfl,
    rfl, rfl, rfl⟩
  · dsimp only
    rw [hexec, hi]
    have : (setCur { b with core := { b.core with rings := r } } (drawTakes (curStream s) (takesOf sp.sync))).core.issued = s.core.issued := by simp [hiss]
    have enq : ∀ (t : State) (q : QEntry) (n : Nat), t.core.issued = n → enqueue t sp.engine q =
      { t with core := { setQueueOf t.core sp.engine (queueOf t.core sp.engine ++ [{ q with seq := n }]) with issued := n + 1 } } := by
      rintro t q n rfl; rfl
    show Host.Outcome.next (after (enqueue _ _ _)) = _
    rw [enq _ _ _ this]
    rfl
  · show n = _
    cases h : sp.sync.rows <;> simp only [n, h]

/-- A descriptor that the checks accept is one that an instruction may use. -/
theorem needDesc_of_check {d : Desc} {ts : List Nat} {ok : Fmt → Bool} {k : Nat} (h : checkDesc d ts ok = none) : needDesc d ts ok k = .ok () := by
  unfold needDesc; rw [h]
/-- A descriptor of any format is one of a format that is accepted. -/
theorem checkDesc_of_any {d : Desc} {ts : List Nat} {ok : Fmt → Bool} (h : checkDesc d ts anyFmt = none) (h' : ok (descFmt d) = true) :
    checkDesc d ts ok = none := by
  unfold checkDesc descFmt at *
  cases hf : fmtOfCode d.fmt with
  | none => rw [hf] at h; simp at h; split at h <;> simp_all
  | some f => rw [hf] at h h'; simp at h'; simp_all [anyFmt]
/-- Operands that pair pass the pairing check (R179). -/
theorem paired_of_pairs {a d : Desc} (h : pairsWith a d) : paired a d = .ok () := by
  unfold paired require srcIndex; rcases h with h | h | h <;> simp [h]
/-- A source that is clear of the destination passes the overlap check (R181). -/
theorem clear_of_clearOf {d a : Desc} {k : Nat} (h : clearOf a d) :
    (if (vecSource d a k).2.2 then intersects (vecSource d a k).2.1 d else overlaps (vecSource d a k).2.1 d) = false := by
  unfold vecSource broadcasts; obtain ⟨h1, h2⟩ := h
  by_cases h : descN a = descN d <;> simp [h, h1, h2]

end Sys2Proof.Claims
end

