-- ==== Sys2Proof/Laws/PerInstr.lean ====
section
/-! SUPPORT. The families of statements made for every instruction, one lemma to each constructor. -/

namespace Sys2Proof.Laws.Length
open Sys2Proof

/-- A well-formed instruction is 4 or 8 bytes long (R51, R52, R58). An event of an agent has no encoding and is not well formed in any stream. -/
def Statement (i : Instr) : Prop := ∀ st, wellFormed st i = true → instrLen i = 4 ∨ instrLen i = 8

/-- An instruction of one word with its extension word, if it has one. -/
theorem withTail (w n : Nat) (i : Imm) : 4 * (w :: immTail n i).length = 4 ∨ 4 * (w :: immTail n i).length = 8 := by
  unfold immTail; cases i.ext <;> simp

theorem nop : Statement (.nop) := fun _ _ => .inl rfl
theorem b (x0 : Imm) : Statement (.b x0) := fun _ _ => withTail _ _ _
theorem call (x0 : Imm) : Statement (.call x0) := fun _ _ => withTail _ _ _
theorem ret : Statement (.ret) := fun _ _ => .inl rfl
theorem bccEq (x0 x1 : Nat) (x2 : Imm) : Statement (.bccEq x0 x1 x2) := fun _ _ => withTail _ _ _
theorem bccNe (x0 x1 : Nat) (x2 : Imm) : Statement (.bccNe x0 x1 x2) := fun _ _ => withTail _ _ _
theorem bccLt (x0 x1 : Nat) (x2 : Imm) : Statement (.bccLt x0 x1 x2) := fun _ _ => withTail _ _ _
theorem bccGe (x0 x1 : Nat) (x2 : Imm) : Statement (.bccGe x0 x1 x2) := fun _ _ => withTail _ _ _
theorem bccLtn (x0 x1 : Nat) (x2 : Imm) : Statement (.bccLtn x0 x1 x2) := fun _ _ => withTail _ _ _
theorem bccGen (x0 x1 : Nat) (x2 : Imm) : Statement (.bccGen x0 x1 x2) := fun _ _ => withTail _ _ _
theorem loop (x0 x1 : Nat) : Statement (.loop x0 x1) := fun _ _ => .inl rfl
theorem rndv : Statement (.rndv) := fun _ _ => .inl rfl
theorem whereQ (x0 x1 : Nat) : Statement (.whereQ x0 x1) := fun _ _ => .inl rfl
theorem fence (x0 : FenceKind) (x1 : Scope) : Statement (.fence x0 x1) := fun _ _ => .inl rfl
theorem semadd (x0 x1 : Nat) (x2 : Int) : Statement (.semadd x0 x1 x2) := fun _ _ => .inl rfl
theorem semwait (x0 x1 : Nat) (x2 : Int) : Statement (.semwait x0 x1 x2) := fun _ _ => .inl rfl
theorem semwaitTake (x0 : Nat) : Statement (.semwaitTake x0) := fun _ _ => .inl rfl
theorem semtry (x0 x1 : Nat) (x2 : Int) : Statement (.semtry x0 x1 x2) := fun _ _ => .inl rfl
theorem semtryTake (x0 x1 : Nat) : Statement (.semtryTake x0 x1) := fun _ _ => .inl rfl
theorem semset (x0 x1 : Nat) (x2 : Int) : Statement (.semset x0 x1 x2) := fun _ _ => .inl rfl
theorem semrd (x0 x1 : Nat) : Statement (.semrd x0 x1) := fun _ _ => .inl rfl
theorem semrdDraw (x0 x1 : Nat) : Statement (.semrdDraw x0 x1) := fun _ _ => .inl rfl
theorem semrdPb (x0 x1 : Nat) : Statement (.semrdPb x0 x1) := fun _ _ => .inl rfl
theorem pbwait (x0 x1 x2 : Nat) : Statement (.pbwait x0 x1 x2) := fun _ _ => .inl rfl
theorem add (x0 x1 x2 : Nat) : Statement (.add x0 x1 x2) := fun _ _ => .inl rfl
theorem sub (x0 x1 x2 : Nat) : Statement (.sub x0 x1 x2) := fun _ _ => .inl rfl
theorem mul (x0 x1 x2 : Nat) : Statement (.mul x0 x1 x2) := fun _ _ => .inl rfl
theorem mulh (x0 x1 x2 : Nat) : Statement (.mulh x0 x1 x2) := fun _ _ => .inl rfl
theorem mulhn (x0 x1 x2 : Nat) : Statement (.mulhn x0 x1 x2) := fun _ _ => .inl rfl
theorem div (x0 x1 x2 : Nat) : Statement (.div x0 x1 x2) := fun _ _ => .inl rfl
theorem divn (x0 x1 x2 : Nat) : Statement (.divn x0 x1 x2) := fun _ _ => .inl rfl
theorem rem (x0 x1 x2 : Nat) : Statement (.rem x0 x1 x2) := fun _ _ => .inl rfl
theorem and (x0 x1 x2 : Nat) : Statement (.and x0 x1 x2) := fun _ _ => .inl rfl
theorem or (x0 x1 x2 : Nat) : Statement (.or x0 x1 x2) := fun _ _ => .inl rfl
theorem xor (x0 x1 x2 : Nat) : Statement (.xor x0 x1 x2) := fun _ _ => .inl rfl
theorem shl (x0 x1 x2 : Nat) : Statement (.shl x0 x1 x2) := fun _ _ => .inl rfl
theorem shr (x0 x1 x2 : Nat) : Statement (.shr x0 x1 x2) := fun _ _ => .inl rfl
theorem sar (x0 x1 x2 : Nat) : Statement (.sar x0 x1 x2) := fun _ _ => .inl rfl
theorem min (x0 x1 x2 : Nat) : Statement (.min x0 x1 x2) := fun _ _ => .inl rfl
theorem max (x0 x1 x2 : Nat) : Statement (.max x0 x1 x2) := fun _ _ => .inl rfl
theorem minn (x0 x1 x2 : Nat) : Statement (.minn x0 x1 x2) := fun _ _ => .inl rfl
theorem maxn (x0 x1 x2 : Nat) : Statement (.maxn x0 x1 x2) := fun _ _ => .inl rfl
theorem slt (x0 x1 x2 : Nat) : Statement (.slt x0 x1 x2) := fun _ _ => .inl rfl
theorem sltn (x0 x1 x2 : Nat) : Statement (.sltn x0 x1 x2) := fun _ _ => .inl rfl
theorem seq (x0 x1 x2 : Nat) : Statement (.seq x0 x1 x2) := fun _ _ => .inl rfl
theorem sel (x0 x1 x2 : Nat) : Statement (.sel x0 x1 x2) := fun _ _ => .inl rfl
theorem clz (x0 x1 : Nat) : Statement (.clz x0 x1) := fun _ _ => .inl rfl
theorem ctz (x0 x1 : Nat) : Statement (.ctz x0 x1) := fun _ _ => .inl rfl
theorem popc (x0 x1 : Nat) : Statement (.popc x0 x1) := fun _ _ => .inl rfl
theorem bfx (x0 x1 x2 : Nat) : Statement (.bfx x0 x1 x2) := fun _ _ => .inl rfl
theorem bfi (x0 x1 x2 : Nat) : Statement (.bfi x0 x1 x2) := fun _ _ => .inl rfl
theorem addi (x0 x1 : Nat) (x2 : Imm) : Statement (.addi x0 x1 x2) := fun _ _ => withTail _ _ _
theorem andi (x0 x1 : Nat) (x2 : Imm) : Statement (.andi x0 x1 x2) := fun _ _ => withTail _ _ _
theorem ori (x0 x1 : Nat) (x2 : Imm) : Statement (.ori x0 x1 x2) := fun _ _ => withTail _ _ _
theorem xori (x0 x1 : Nat) (x2 : Imm) : Statement (.xori x0 x1 x2) := fun _ _ => withTail _ _ _
theorem shli (x0 x1 x2 : Nat) : Statement (.shli x0 x1 x2) := fun _ _ => .inl rfl
theorem shri (x0 x1 x2 : Nat) : Statement (.shri x0 x1 x2) := fun _ _ => .inl rfl
theorem sari (x0 x1 x2 : Nat) : Statement (.sari x0 x1 x2) := fun _ _ => .inl rfl
theorem li (x0 : Nat) (x1 : Imm) : Statement (.li x0 x1) := fun _ _ => withTail _ _ _
theorem lih (x0 : Nat) (x1 : Imm) : Statement (.lih x0 x1) := fun _ _ => withTail _ _ _
theorem addpc (x0 : Nat) (x1 : Imm) : Statement (.addpc x0 x1) := fun _ _ => withTail _ _ _
theorem fadd (x0 x1 x2 : Nat) (x3 : Rm) : Statement (.fadd x0 x1 x2 x3) := fun _ _ => .inl rfl
theorem fsub (x0 x1 x2 : Nat) (x3 : Rm) : Statement (.fsub x0 x1 x2 x3) := fun _ _ => .inl rfl
theorem fmul (x0 x1 x2 : Nat) (x3 : Rm) : Statement (.fmul x0 x1 x2 x3) := fun _ _ => .inl rfl
theorem ffma (x0 x1 x2 : Nat) (x3 : Rm) : Statement (.ffma x0 x1 x2 x3) := fun _ _ => .inl rfl
theorem fdiv (x0 x1 x2 : Nat) (x3 : Rm) : Statement (.fdiv x0 x1 x2 x3) := fun _ _ => .inl rfl
theorem fsqrt (x0 x1 : Nat) (x2 : Rm) : Statement (.fsqrt x0 x1 x2) := fun _ _ => .inl rfl
theorem fmin (x0 x1 x2 : Nat) : Statement (.fmin x0 x1 x2) := fun _ _ => .inl rfl
theorem fmax (x0 x1 x2 : Nat) : Statement (.fmax x0 x1 x2) := fun _ _ => .inl rfl
theorem fcmp (x0 : FCond) (x1 x2 x3 : Nat) : Statement (.fcmp x0 x1 x2 x3) := fun _ _ => .inl rfl
theorem fclass (x0 x1 : Nat) : Statement (.fclass x0 x1) := fun _ _ => .inl rfl
theorem fcvtTo (x0 x1 x2 : Nat) (x3 : Rm) : Statement (.fcvtTo x0 x1 x2 x3) := fun _ _ => .inl rfl
theorem fcvtFrom (x0 x1 x2 : Nat) (x3 : Rm) : Statement (.fcvtFrom x0 x1 x2 x3) := fun _ _ => .inl rfl
theorem ld1s (x0 x1 : Nat) (x2 : Imm) : Statement (.ld1s x0 x1 x2) := fun _ _ => withTail _ _ _
theorem ld1z (x0 x1 : Nat) (x2 : Imm) : Statement (.ld1z x0 x1 x2) := fun _ _ => withTail _ _ _
theorem ld2s (x0 x1 : Nat) (x2 : Imm) : Statement (.ld2s x0 x1 x2) := fun _ _ => withTail _ _ _
theorem ld2z (x0 x1 : Nat) (x2 : Imm) : Statement (.ld2z x0 x1 x2) := fun _ _ => withTail _ _ _
theorem ld4s (x0 x1 : Nat) (x2 : Imm) : Statement (.ld4s x0 x1 x2) := fun _ _ => withTail _ _ _
theorem ld4z (x0 x1 : Nat) (x2 : Imm) : Statement (.ld4z x0 x1 x2) := fun _ _ => withTail _ _ _
theorem ld8 (x0 x1 : Nat) (x2 : Imm) : Statement (.ld8 x0 x1 x2) := fun _ _ => withTail _ _ _
theorem ld16 (x0 x1 : Nat) (x2 : Imm) : Statement (.ld16 x0 x1 x2) := fun _ _ => withTail _ _ _
theorem st1 (x0 x1 : Nat) (x2 : Imm) : Statement (.st1 x0 x1 x2) := fun _ _ => withTail _ _ _
theorem st2 (x0 x1 : Nat) (x2 : Imm) : Statement (.st2 x0 x1 x2) := fun _ _ => withTail _ _ _
theorem st4 (x0 x1 : Nat) (x2 : Imm) : Statement (.st4 x0 x1 x2) := fun _ _ => withTail _ _ _
theorem st8 (x0 x1 : Nat) (x2 : Imm) : Statement (.st8 x0 x1 x2) := fun _ _ => withTail _ _ _
theorem st16 (x0 x1 : Nat) (x2 : Imm) : Statement (.st16 x0 x1 x2) := fun _ _ => withTail _ _ _
theorem amo4 (x0 : AmoOp) (x1 x2 x3 : Nat) : Statement (.amo4 x0 x1 x2 x3) := fun _ _ => .inl rfl
theorem amo8 (x0 : AmoOp) (x1 x2 x3 : Nat) : Statement (.amo8 x0 x1 x2 x3) := fun _ _ => .inl rfl
theorem acas4 (x0 x1 x2 : Nat) : Statement (.acas4 x0 x1 x2) := fun _ _ => .inl rfl
theorem acas8 (x0 x1 x2 : Nat) : Statement (.acas8 x0 x1 x2) := fun _ _ => .inl rfl
theorem vadd (x0 x1 x2 : Nat) (x3 : Rm) (x4 : Sync) : Statement (.vadd x0 x1 x2 x3 x4) := fun _ _ => .inr rfl
theorem vsub (x0 x1 x2 : Nat) (x3 : Rm) (x4 : Sync) : Statement (.vsub x0 x1 x2 x3 x4) := fun _ _ => .inr rfl
theorem vmul (x0 x1 x2 : Nat) (x3 : Rm) (x4 : Sync) : Statement (.vmul x0 x1 x2 x3 x4) := fun _ _ => .inr rfl
theorem vfma (x0 x1 x2 : Nat) (x3 : Rm) (x4 : Sync) : Statement (.vfma x0 x1 x2 x3 x4) := fun _ _ => .inr rfl
theorem vfms (x0 x1 x2 : Nat) (x3 : Rm) (x4 : Sync) : Statement (.vfms x0 x1 x2 x3 x4) := fun _ _ => .inr rfl
theorem vdiv (x0 x1 x2 : Nat) (x3 : Rm) (x4 : Sync) : Statement (.vdiv x0 x1 x2 x3 x4) := fun _ _ => .inr rfl
theorem vmin (x0 x1 x2 : Nat) (x3 : Rm) (x4 : Sync) : Statement (.vmin x0 x1 x2 x3 x4) := fun _ _ => .inr rfl
theorem vmax (x0 x1 x2 : Nat) (x3 : Rm) (x4 : Sync) : Statement (.vmax x0 x1 x2 x3 x4) := fun _ _ => .inr rfl
theorem vabs (x0 x1 : Nat) (x2 : Rm) (x3 : Sync) : Statement (.vabs x0 x1 x2 x3) := fun _ _ => .inr rfl
theorem vneg (x0 x1 : Nat) (x2 : Rm) (x3 : Sync) : Statement (.vneg x0 x1 x2 x3) := fun _ _ => .inr rfl
theorem vand (x0 x1 x2 : Nat) (x3 : Sync) : Statement (.vand x0 x1 x2 x3) := fun _ _ => .inr rfl
theorem vor (x0 x1 x2 : Nat) (x3 : Sync) : Statement (.vor x0 x1 x2 x3) := fun _ _ => .inr rfl
theorem vxor (x0 x1 x2 : Nat) (x3 : Sync) : Statement (.vxor x0 x1 x2 x3) := fun _ _ => .inr rfl
theorem vnot (x0 x1 : Nat) (x2 : Sync) : Statement (.vnot x0 x1 x2) := fun _ _ => .inr rfl
theorem vshl (x0 x1 x2 : Nat) (x3 : Sync) : Statement (.vshl x0 x1 x2 x3) := fun _ _ => .inr rfl
theorem vshr (x0 x1 x2 : Nat) (x3 : Sync) : Statement (.vshr x0 x1 x2 x3) := fun _ _ => .inr rfl
theorem vsar (x0 x1 x2 : Nat) (x3 : Sync) : Statement (.vsar x0 x1 x2 x3) := fun _ _ => .inr rfl
theorem vcmp (x0 : VCond) (x1 x2 x3 : Nat) (x4 : Sync) : Statement (.vcmp x0 x1 x2 x3 x4) := fun _ _ => .inr rfl
theorem vsel (x0 x1 x2 : Nat) (x3 : Rm) (x4 : Sync) : Statement (.vsel x0 x1 x2 x3 x4) := fun _ _ => .inr rfl
theorem vcvt (x0 x1 : Nat) (x2 : Rm) (x3 : Sync) : Statement (.vcvt x0 x1 x2 x3) := fun _ _ => .inr rfl
theorem vexp2 (x0 x1 : Nat) (x2 : Rm) (x3 : Sync) : Statement (.vexp2 x0 x1 x2 x3) := fun _ _ => .inr rfl
theorem vlog2 (x0 x1 : Nat) (x2 : Rm) (x3 : Sync) : Statement (.vlog2 x0 x1 x2 x3) := fun _ _ => .inr rfl
theorem vrcp (x0 x1 : Nat) (x2 : Rm) (x3 : Sync) : Statement (.vrcp x0 x1 x2 x3) := fun _ _ => .inr rfl
theorem vrsq (x0 x1 : Nat) (x2 : Rm) (x3 : Sync) : Statement (.vrsq x0 x1 x2 x3) := fun _ _ => .inr rfl
theorem vsqrt (x0 x1 : Nat) (x2 : Rm) (x3 : Sync) : Statement (.vsqrt x0 x1 x2 x3) := fun _ _ => .inr rfl
theorem vtanh (x0 x1 : Nat) (x2 : Rm) (x3 : Sync) : Statement (.vtanh x0 x1 x2 x3) := fun _ _ => .inr rfl
theorem vsig (x0 x1 : Nat) (x2 : Rm) (x3 : Sync) : Statement (.vsig x0 x1 x2 x3) := fun _ _ => .inr rfl
theorem verf (x0 x1 : Nat) (x2 : Rm) (x3 : Sync) : Statement (.verf x0 x1 x2 x3) := fun _ _ => .inr rfl
theorem vsin (x0 x1 : Nat) (x2 : Rm) (x3 : Sync) : Statement (.vsin x0 x1 x2 x3) := fun _ _ => .inr rfl
theorem vcos (x0 x1 : Nat) (x2 : Rm) (x3 : Sync) : Statement (.vcos x0 x1 x2 x3) := fun _ _ => .inr rfl
theorem vclamp (x0 x1 x2 : Nat) (x3 : Rm) (x4 : Sync) : Statement (.vclamp x0 x1 x2 x3 x4) := fun _ _ => .inr rfl
theorem vscale (x0 x1 x2 : Nat) (x3 : Rm) (x4 : Sync) : Statement (.vscale x0 x1 x2 x3 x4) := fun _ _ => .inr rfl
theorem vbcast (x0 : BcastKind) (x1 x2 : Nat) (x3 : Rm) (x4 : Sync) : Statement (.vbcast x0 x1 x2 x3 x4) := fun _ _ => .inr rfl
theorem viota (x0 : Bool) (x1 x2 x3 : Nat) (x4 : Rm) (x5 : Sync) : Statement (.viota x0 x1 x2 x3 x4 x5) := fun _ _ => .inr rfl
theorem vperm (x0 : Bool) (x1 x2 x3 : Nat) (x4 : Rm) (x5 : Sync) : Statement (.vperm x0 x1 x2 x3 x4 x5) := fun _ _ => .inr rfl
theorem vmov (x0 x1 : Nat) (x2 : Sync) : Statement (.vmov x0 x1 x2) := fun _ _ => .inr rfl
theorem vred (x0 : RedOp) (x1 : Bool) (x2 x3 : Nat) (x4 : Rm) (x5 : Sync) : Statement (.vred x0 x1 x2 x3 x4 x5) := fun _ _ => .inr rfl
theorem vscan (x0 : ScanOp) (x1 : Bool) (x2 x3 : Nat) (x4 : Rm) (x5 : Sync) : Statement (.vscan x0 x1 x2 x3 x4 x5) := fun _ _ => .inr rfl
theorem vdot (x0 : Bool) (x1 x2 x3 : Nat) (x4 : Rm) (x5 : Sync) : Statement (.vdot x0 x1 x2 x3 x4 x5) := fun _ _ => .inr rfl
theorem vdist (x0 : Metric) (x1 : Bool) (x2 x3 x4 : Nat) (x5 : Rm) (x6 : Sync) : Statement (.vdist x0 x1 x2 x3 x4 x5 x6) := fun _ _ => .inr rfl
theorem vthrc (x0 x1 : Bool) (x2 x3 x4 : Nat) (x5 : Sync) : Statement (.vthrc x0 x1 x2 x3 x4 x5) := fun _ _ => .inr rfl
theorem vcomp (x0 x1 : Bool) (x2 x3 x4 : Nat) (x5 : Rm) (x6 : Sync) : Statement (.vcomp x0 x1 x2 x3 x4 x5 x6) := fun _ _ => .inr rfl
theorem vexpd (x0 : Bool) (x1 x2 x3 : Nat) (x4 : Rm) (x5 : Sync) : Statement (.vexpd x0 x1 x2 x3 x4 x5) := fun _ _ => .inr rfl
theorem vhist (x0 x1 : Bool) (x2 x3 x4 : Nat) (x5 : Sync) : Statement (.vhist x0 x1 x2 x3 x4 x5) := fun _ _ => .inr rfl
theorem vxform (x0 x1 : Bool) (x2 x3 : Nat) (x4 : Sync) : Statement (.vxform x0 x1 x2 x3 x4) := fun _ _ => .inr rfl
theorem vmaxi (x0 : Bool) (x1 x2 : Nat) (x3 : Rm) (x4 : Sync) : Statement (.vmaxi x0 x1 x2 x3 x4) := fun _ _ => .inr rfl
theorem vsort (x0 x1 : Bool) (x2 x3 : Nat) (x4 : Rm) (x5 : Sync) : Statement (.vsort x0 x1 x2 x3 x4 x5) := fun _ _ => .inr rfl
theorem vranki (x0 x1 : Bool) (x2 : Nat) (x3 : Sync) : Statement (.vranki x0 x1 x2 x3) := fun _ _ => .inr rfl
theorem vrankp (x0 x1 : Nat) (x2 : Sync) : Statement (.vrankp x0 x1 x2) := fun _ _ => .inr rfl
theorem vranko (x0 : Bool) (x1 : Nat) (x2 : Rm) (x3 : Sync) : Statement (.vranko x0 x1 x2 x3) := fun _ _ => .inr rfl
theorem xlease (x0 : Sync) : Statement (.xlease x0) := fun _ _ => .inr rfl
theorem xfree (x0 : Bool) (x1 : Sync) : Statement (.xfree x0 x1) := fun _ _ => .inr rfl
theorem xcellop (x0 : Nat) (x1 : Sync) : Statement (.xcellop x0 x1) := fun _ _ => .inr rfl
theorem xzero (x0 : ZeroFill) (x1 : Bool) (x2 : Sync) : Statement (.xzero x0 x1 x2) := fun _ _ => .inr rfl
theorem xpass (x0 : Bool) (x1 x2 : Nat) (x3 : Sync) : Statement (.xpass x0 x1 x2 x3) := fun _ _ => .inr rfl
theorem xside (x0 x1 : Nat) (x2 : Sync) : Statement (.xside x0 x1 x2) := fun _ _ => .inr rfl
theorem xsideb (x0 : Nat) (x1 : Sync) : Statement (.xsideb x0 x1) := fun _ _ => .inr rfl
theorem xdrain (x0 : Bool) (x1 : Nat) (x2 : Rm) (x3 : Sync) : Statement (.xdrain x0 x1 x2 x3) := fun _ _ => .inr rfl
theorem xbias (x0 x1 : Bool) (x2 : Nat) (x3 : Sync) : Statement (.xbias x0 x1 x2 x3) := fun _ _ => .inr rfl
theorem ares (x0 x1 x2 : Nat) (x3 : Sync) : Statement (.ares x0 x1 x2 x3) := fun _ _ => .inr rfl
theorem arel (x0 : Nat) (x1 : Sync) : Statement (.arel x0 x1) := fun _ _ => .inr rfl
theorem aqry (x0 : AqrySel) (x1 x2 : Nat) (x3 : Sync) : Statement (.aqry x0 x1 x2 x3) := fun _ _ => .inr rfl
theorem apub (x0 x1 x2 : Nat) (x3 : Sync) : Statement (.apub x0 x1 x2 x3) := fun _ _ => .inr rfl
theorem dset (x0 x1 x2 : Nat) : Statement (.dset x0 x1 x2) := fun _ _ => .inl rfl
theorem dgetf (x0 x1 x2 : Nat) : Statement (.dgetf x0 x1 x2) := fun _ _ => .inl rfl
theorem dld (x0 x1 : Nat) (x2 : Imm) : Statement (.dld x0 x1 x2) := fun _ _ => withTail _ _ _
theorem dst (x0 x1 : Nat) (x2 : Imm) : Statement (.dst x0 x1 x2) := fun _ _ => withTail _ _ _
theorem dcpy (x0 x1 : Nat) : Statement (.dcpy x0 x1) := fun _ _ => .inl rfl
theorem dadv (x0 : Bool) (x1 x2 : Nat) : Statement (.dadv x0 x1 x2) := fun _ _ => .inl rfl
theorem rinit (x0 x1 : Nat) : Statement (.rinit x0 x1) := fun _ _ => .inl rfl
theorem rcommit (x0 x1 x2 : Nat) : Statement (.rcommit x0 x1 x2) := fun _ _ => .inl rfl
theorem rrelease (x0 x1 x2 : Nat) : Statement (.rrelease x0 x1 x2) := fun _ _ => .inl rfl
theorem rstat (x0 x1 x2 : Nat) : Statement (.rstat x0 x1 x2) := fun _ _ => .inl rfl
theorem dcopy (x0 : MaskKind) (x1 x2 : Nat) (x3 : Rm) (x4 : Sync) : Statement (.dcopy x0 x1 x2 x3 x4) := fun _ _ => .inr rfl
theorem dgather (x0 : MaskKind) (x1 : Bool) (x2 x3 x4 : Nat) (x5 : Rm) (x6 : Sync) : Statement (.dgather x0 x1 x2 x3 x4 x5 x6) := fun _ _ => .inr rfl
theorem dscatter (x0 : MaskKind) (x1 : Bool) (x2 x3 x4 : Nat) (x5 : Rm) (x6 : Sync) : Statement (.dscatter x0 x1 x2 x3 x4 x5 x6) := fun _ _ => .inr rfl
theorem dscata (x0 : MaskKind) (x1 : Bool) (x2 x3 x4 : Nat) (x5 : Rm) (x6 : Sync) : Statement (.dscata x0 x1 x2 x3 x4 x5 x6) := fun _ _ => .inr rfl
theorem dfill (x0 x1 : Nat) (x2 : Sync) : Statement (.dfill x0 x1 x2) := fun _ _ => .inr rfl
theorem dpref (x0 : Nat) (x1 : Sync) : Statement (.dpref x0 x1) := fun _ _ => .inr rfl
theorem dpreq (x0 : MaskKind) (x1 x2 : Nat) (x3 : Sync) : Statement (.dpreq x0 x1 x2 x3) := fun _ _ => .inr rfl
theorem dflush (x0 : Nat) (x1 : Sync) : Statement (.dflush x0 x1) := fun _ _ => .inr rfl
theorem dinv (x0 : Nat) (x1 : Sync) : Statement (.dinv x0 x1) := fun _ _ => .inr rfl
theorem dput (x0 x1 x2 x3 : Nat) (x4 : Sync) : Statement (.dput x0 x1 x2 x3 x4) := fun _ _ => .inr rfl
theorem dget (x0 x1 x2 : Nat) (x3 : Sync) : Statement (.dget x0 x1 x2 x3) := fun _ _ => .inr rfl
theorem dfadd (x0 x1 x2 x3 : Nat) (x4 : Sync) : Statement (.dfadd x0 x1 x2 x3 x4) := fun _ _ => .inr rfl
theorem dfcas (x0 x1 x2 x3 : Nat) (x4 : Sync) : Statement (.dfcas x0 x1 x2 x3 x4) := fun _ _ => .inr rfl
theorem dfencef (x0 x1 x2 : Nat) (x3 : Sync) : Statement (.dfencef x0 x1 x2 x3) := fun _ _ => .inr rfl
theorem dflowOpen (x0 x1 x2 : Nat) (x3 : Sync) : Statement (.dflowOpen x0 x1 x2 x3) := fun _ _ => .inr rfl
theorem dflowClose (x0 x1 x2 : Nat) (x3 : Sync) : Statement (.dflowClose x0 x1 x2 x3) := fun _ _ => .inr rfl
theorem dflowReset (x0 x1 x2 : Nat) (x3 : Sync) : Statement (.dflowReset x0 x1 x2 x3) := fun _ _ => .inr rfl
theorem dflowStat (x0 x1 x2 : Nat) (x3 : Sync) : Statement (.dflowStat x0 x1 x2 x3) := fun _ _ => .inr rfl
theorem tdef (x0 x1 : Nat) : Statement (.tdef x0 x1) := fun _ _ => .inl rfl
theorem tacqR (x0 : Nat) : Statement (.tacqR x0) := fun _ _ => .inl rfl
theorem tacqW (x0 : Nat) : Statement (.tacqW x0) := fun _ _ => .inl rfl
theorem tacqRTry (x0 x1 : Nat) : Statement (.tacqRTry x0 x1) := fun _ _ => .inl rfl
theorem tacqWTry (x0 x1 : Nat) : Statement (.tacqWTry x0 x1) := fun _ _ => .inl rfl
theorem trel (x0 : Nat) : Statement (.trel x0) := fun _ _ => .inl rfl
theorem tseal (x0 : Nat) : Statement (.tseal x0) := fun _ _ => .inl rfl
theorem tsealDet (x0 : Nat) : Statement (.tsealDet x0) := fun _ _ => .inl rfl
theorem tsplit (x0 x1 x2 : Nat) : Statement (.tsplit x0 x1 x2) := fun _ _ => .inl rfl
theorem tjoin (x0 x1 x2 : Nat) : Statement (.tjoin x0 x1 x2) := fun _ _ => .inl rfl
theorem tfree (x0 : Nat) : Statement (.tfree x0) := fun _ _ => .inl rfl
theorem tqry (x0 : TqrySel) (x1 x2 : Nat) : Statement (.tqry x0 x1 x2) := fun _ _ => .inl rfl
theorem gjoin (x0 x1 : Nat) : Statement (.gjoin x0 x1) := fun _ _ => .inl rfl
theorem gleave (x0 : Nat) : Statement (.gleave x0) := fun _ _ => .inl rfl
theorem gsync (x0 : Nat) (x1 : Sync) : Statement (.gsync x0 x1) := fun _ _ => .inr rfl
theorem gred (x0 : ScanOp) (x1 x2 x3 : Nat) (x4 : Rm) (x5 : Sync) : Statement (.gred x0 x1 x2 x3 x4 x5) := fun _ _ => .inr rfl
theorem gbcast (x0 x1 x2 x3 : Nat) (x4 : Sync) : Statement (.gbcast x0 x1 x2 x3 x4) := fun _ _ => .inr rfl
theorem ggath (x0 x1 x2 : Nat) (x3 : Sync) : Statement (.ggath x0 x1 x2 x3) := fun _ _ => .inr rfl
theorem launch (x0 x1 x2 : Nat) : Statement (.launch x0 x1 x2) := fun _ _ => .inl rfl
theorem launchTry (x0 x1 x2 : Nat) : Statement (.launchTry x0 x1 x2) := fun _ _ => .inl rfl
theorem qstat (x0 : QSel) (x1 x2 : Nat) : Statement (.qstat x0 x1 x2) := fun _ _ => .inl rfl
theorem tlbinvPage (x0 : Nat) : Statement (.tlbinvPage x0) := fun _ _ => .inl rfl
theorem tlbinvRange (x0 x1 : Nat) : Statement (.tlbinvRange x0 x1) := fun _ _ => .inl rfl
theorem tlbinvCtx : Statement (.tlbinvCtx) := fun _ _ => .inl rfl
theorem pmig (x0 : PmigOp) (x1 x2 : Nat) : Statement (.pmig x0 x1 x2) := fun _ _ => .inl rfl
theorem trap (x0 x1 : Nat) : Statement (.trap x0 x1) := fun _ _ => .inl rfl
theorem rte : Statement (.rte) := fun _ _ => .inl rfl
theorem csrr (x0 x1 : Nat) : Statement (.csrr x0 x1) := fun _ _ => .inl rfl
theorem csrw (x0 x1 x2 : Nat) : Statement (.csrw x0 x1 x2) := fun _ _ => .inl rfl
theorem csrs (x0 x1 x2 : Nat) : Statement (.csrs x0 x1 x2) := fun _ _ => .inl rfl
theorem csrc (x0 x1 x2 : Nat) : Statement (.csrc x0 x1 x2) := fun _ _ => .inl rfl
theorem iciv (x0 x1 : Nat) : Statement (.iciv x0 x1) := fun _ _ => .inl rfl
theorem brk (x0 : Nat) : Statement (.brk x0) := fun _ _ => .inl rfl
theorem yield : Statement (.yield) := fun _ _ => .inl rfl
theorem waitRelease (x0 : Nat) (x1 : StreamName) : Statement (.waitRelease x0 x1) := fun _ h => Bool.noConfusion h
theorem engineInstructionComplete (x0 : Nat) (x1 : EngineName) : Statement (.engineInstructionComplete x0 x1) := fun _ h => Bool.noConfusion h
theorem engineHeadEffect (x0 : Nat) (x1 : EngineName) : Statement (.engineHeadEffect x0 x1) := fun _ h => Bool.noConfusion h
theorem arrayInstructionStart (x0 : Nat) : Statement (.arrayInstructionStart x0) := fun _ h => Bool.noConfusion h
theorem engineFaultRaise (x0 : Nat) (x1 : StreamName) : Statement (.engineFaultRaise x0 x1) := fun _ h => Bool.noConfusion h
theorem handlerEntry (x0 : Nat) : Statement (.handlerEntry x0) := fun _ h => Bool.noConfusion h
theorem syncDeadlock (x0 : Nat) : Statement (.syncDeadlock x0) := fun _ h => Bool.noConfusion h
theorem waitTimeout (x0 : Nat) (x1 : StreamName) : Statement (.waitTimeout x0 x1) := fun _ h => Bool.noConfusion h
theorem timer (x0 : Nat) : Statement (.timer x0) := fun _ h => Bool.noConfusion h
theorem tenureGrant (x0 x1 : Nat) : Statement (.tenureGrant x0 x1) := fun _ h => Bool.noConfusion h
theorem leaseGrant (x0 : Nat) : Statement (.leaseGrant x0) := fun _ h => Bool.noConfusion h
theorem leaseGrantEnd (x0 : Nat) : Statement (.leaseGrantEnd x0) := fun _ h => Bool.noConfusion h
theorem recordRead (x0 x1 : Nat) : Statement (.recordRead x0 x1) := fun _ h => Bool.noConfusion h
theorem dispatch (x0 : Nat) (x1 : List Nat) : Statement (.dispatch x0 x1) := fun _ h => Bool.noConfusion h
theorem jobPlace (x0 : Nat) (x1 : List Nat) : Statement (.jobPlace x0 x1) := fun _ h => Bool.noConfusion h
theorem completionWordIncrement (x0 : Nat) : Statement (.completionWordIncrement x0) := fun _ h => Bool.noConfusion h
theorem eventWrite (x0 : Nat) : Statement (.eventWrite x0) := fun _ h => Bool.noConfusion h
theorem checkpoint (x0 x1 : Nat) : Statement (.checkpoint x0 x1) := fun _ h => Bool.noConfusion h
theorem resume (x0 : Nat) (x1 : List Nat) : Statement (.resume x0 x1) := fun _ h => Bool.noConfusion h
theorem kill (x0 x1 : Nat) : Statement (.kill x0 x1) := fun _ h => Bool.noConfusion h
theorem sliceEnd (x0 : Nat) : Statement (.sliceEnd x0) := fun _ h => Bool.noConfusion h
theorem drainTimeout (x0 : Nat) : Statement (.drainTimeout x0) := fun _ h => Bool.noConfusion h
theorem queueSwitchOut (x0 : Nat) : Statement (.queueSwitchOut x0) := fun _ h => Bool.noConfusion h
theorem queueSwitchIn (x0 : Nat) : Statement (.queueSwitchIn x0) := fun _ h => Bool.noConfusion h
theorem qtailWrite (x0 x1 x2 : Nat) (x3 : Option Nat) : Statement (.qtailWrite x0 x1 x2 x3) := fun _ h => Bool.noConfusion h
theorem evheadWrite (x0 x1 : Nat) (x2 : Option Nat) : Statement (.evheadWrite x0 x1 x2) := fun _ h => Bool.noConfusion h
theorem registerWrite (x0 : RegSite) (x1 x2 : Nat) : Statement (.registerWrite x0 x1 x2) := fun _ h => Bool.noConfusion h
theorem dbgReturn (x0 : Nat) (x1 : Option Nat) : Statement (.dbgReturn x0 x1) := fun _ h => Bool.noConfusion h
theorem dbgStep (x0 : Nat) (x1 : Option Nat) : Statement (.dbgStep x0 x1) := fun _ h => Bool.noConfusion h
theorem dbgDisplaced (x0 : Nat) (x1 : Option Nat) : Statement (.dbgDisplaced x0 x1) := fun _ h => Bool.noConfusion h
theorem dbgKill (x0 : Nat) (x1 : Option Nat) : Statement (.dbgKill x0 x1) := fun _ h => Bool.noConfusion h
theorem dbgInval (x0 : Nat) (x1 : Option Nat) : Statement (.dbgInval x0 x1) := fun _ h => Bool.noConfusion h
theorem windowRead (x0 x1 x2 : Nat) (x3 : Option Nat) : Statement (.windowRead x0 x1 x2 x3) := fun _ h => Bool.noConfusion h
theorem windowWrite (x0 x1 : Nat) (x2 : List Byte) (x3 : Option Nat) : Statement (.windowWrite x0 x1 x2 x3) := fun _ h => Bool.noConfusion h
theorem lockInterfaceRequest (x0 x1 : Nat) : Statement (.lockInterfaceRequest x0 x1) := fun _ h => Bool.noConfusion h
theorem startInterfaceRequest (x0 : Nat) : Statement (.startInterfaceRequest x0) := fun _ h => Bool.noConfusion h
theorem stopInterfaceRequest (x0 : Nat) : Statement (.stopInterfaceRequest x0) := fun _ h => Bool.noConfusion h
theorem getDeviceInterfaceState (x0 : Nat) : Statement (.getDeviceInterfaceState x0) := fun _ h => Bool.noConfusion h
theorem getDeviceInterfaceReport (x0 : Nat) : Statement (.getDeviceInterfaceReport x0) := fun _ h => Bool.noConfusion h
theorem ideFailure (x0 : Nat) : Statement (.ideFailure x0) := fun _ h => Bool.noConfusion h
theorem functionLevelReset (x0 : Nat) : Statement (.functionLevelReset x0) := fun _ h => Bool.noConfusion h
theorem contextCreate (x0 x1 x2 x3 x4 x5 : Nat) (x6 : PrivRegs) : Statement (.contextCreate x0 x1 x2 x3 x4 x5 x6) := fun _ h => Bool.noConfusion h
theorem contextHalt (x0 : Nat) : Statement (.contextHalt x0) := fun _ h => Bool.noConfusion h
theorem contextUnhalt (x0 : Nat) : Statement (.contextUnhalt x0) := fun _ h => Bool.noConfusion h
theorem contextDestroy (x0 : Nat) : Statement (.contextDestroy x0) := fun _ h => Bool.noConfusion h
theorem hallmarkContent (x0 x1 x2 x3 : Nat) : Statement (.hallmarkContent x0 x1 x2 x3) := fun _ h => Bool.noConfusion h
theorem adapterInstall (x0 x1 : Nat) : Statement (.adapterInstall x0 x1) := fun _ h => Bool.noConfusion h
theorem adapterMoveHome (x0 : Nat) (x1 : List Nat) : Statement (.adapterMoveHome x0 x1) := fun _ h => Bool.noConfusion h
theorem adapterPin (x0 : Nat) : Statement (.adapterPin x0) := fun _ h => Bool.noConfusion h
theorem adapterUnpin (x0 : Nat) : Statement (.adapterUnpin x0) := fun _ h => Bool.noConfusion h
theorem adapterRetire (x0 : Nat) : Statement (.adapterRetire x0) := fun _ h => Bool.noConfusion h
theorem partitionRecordWrite (x0 x1 : Nat) : Statement (.partitionRecordWrite x0 x1) := fun _ h => Bool.noConfusion h
theorem vdRecordWrite (x0 x1 : Nat) : Statement (.vdRecordWrite x0 x1) := fun _ h => Bool.noConfusion h
theorem pstsQuery (x0 x1 x2 : Nat) : Statement (.pstsQuery x0 x1 x2) := fun _ h => Bool.noConfusion h
theorem framePoolGive (x0 x1 : Nat) (x2 : List Nat) : Statement (.framePoolGive x0 x1 x2) := fun _ h => Bool.noConfusion h
theorem pinPoolGive (x0 : Nat) (x1 : List Nat) : Statement (.pinPoolGive x0 x1) := fun _ h => Bool.noConfusion h
theorem flowPairing (x0 x1 x2 : Nat) : Statement (.flowPairing x0 x1 x2) := fun _ h => Bool.noConfusion h
theorem fenceUnitRequest (x0 : Nat) : Statement (.fenceUnitRequest x0) := fun _ h => Bool.noConfusion h
theorem quarantineReinit (x0 : List Nat) : Statement (.quarantineReinit x0) := fun _ h => Bool.noConfusion h
theorem migrationPause (x0 : Nat) : Statement (.migrationPause x0) := fun _ h => Bool.noConfusion h
theorem marginRevoke (x0 : Nat) : Statement (.marginRevoke x0) := fun _ h => Bool.noConfusion h
theorem purseRefill (x0 x1 : Nat) : Statement (.purseRefill x0 x1) := fun _ h => Bool.noConfusion h
theorem governorMeasure (x0 : Nat) : Statement (.governorMeasure x0) := fun _ h => Bool.noConfusion h
theorem governorRecoveryStep : Statement (.governorRecoveryStep) := fun _ h => Bool.noConfusion h
theorem thermalClockStep (x0 x1 : Nat) : Statement (.thermalClockStep x0 x1) := fun _ h => Bool.noConfusion h
theorem thermalTrip (x0 x1 : Nat) (x2 : Bool) : Statement (.thermalTrip x0 x1 x2) := fun _ h => Bool.noConfusion h
theorem ageingMeasure (x0 : Nat) (x1 x2 : List Nat) : Statement (.ageingMeasure x0 x1 x2) := fun _ h => Bool.noConfusion h
theorem pageRequestDone (x0 x1 : Nat) (x2 : Option (List Byte)) : Statement (.pageRequestDone x0 x1 x2) := fun _ h => Bool.noConfusion h
theorem migrationComplete (x0 x1 : Nat) : Statement (.migrationComplete x0 x1) := fun _ h => Bool.noConfusion h
theorem cxlLinkDown (x0 : Nat) : Statement (.cxlLinkDown x0) := fun _ h => Bool.noConfusion h
theorem flitCrcFail (x0 x1 : Nat) : Statement (.flitCrcFail x0 x1) := fun _ h => Bool.noConfusion h
theorem linkDown (x0 : Nat) : Statement (.linkDown x0) := fun _ h => Bool.noConfusion h
theorem remotePartArrive (x0 x1 x2 x3 x4 x5 x6 : Nat) (x7 : List Byte) : Statement (.remotePartArrive x0 x1 x2 x3 x4 x5 x6 x7) := fun _ h => Bool.noConfusion h
theorem rowMissingNotice (x0 x1 x2 x3 x4 : Nat) : Statement (.rowMissingNotice x0 x1 x2 x3 x4) := fun _ h => Bool.noConfusion h
theorem partPerformed (x0 x1 : Nat) (x2 : List Byte) : Statement (.partPerformed x0 x1 x2) := fun _ h => Bool.noConfusion h
theorem partRefused (x0 x1 x2 : Nat) : Statement (.partRefused x0 x1 x2) := fun _ h => Bool.noConfusion h
theorem partResend (x0 x1 : Nat) : Statement (.partResend x0 x1) := fun _ h => Bool.noConfusion h
theorem remoteTimeout (x0 x1 : Nat) : Statement (.remoteTimeout x0 x1) := fun _ h => Bool.noConfusion h
theorem frameFillTimeout (x0 x1 : Nat) : Statement (.frameFillTimeout x0 x1) := fun _ h => Bool.noConfusion h
theorem flagLate (x0 : Nat) : Statement (.flagLate x0) := fun _ h => Bool.noConfusion h
theorem groupFormed (x0 : Nat) : Statement (.groupFormed x0) := fun _ h => Bool.noConfusion h
theorem abortNotice (x0 x1 : Nat) : Statement (.abortNotice x0 x1) := fun _ h => Bool.noConfusion h
theorem recoveryImageSupply (x0 : BitVec 32) (x1 : List Byte) (x2 : List Byte × List Byte) : Statement (.recoveryImageSupply x0 x1 x2) := fun _ h => Bool.noConfusion h
theorem packageReset (x0 : Nat) (x1 x2 : List Nat) : Statement (.packageReset x0 x1 x2) := fun _ h => Bool.noConfusion h
theorem pageOwnershipChange (x0 x1 x2 : Nat) : Statement (.pageOwnershipChange x0 x1 x2) := fun _ h => Bool.noConfusion h
theorem worldKeyInstall (x0 : Nat) : Statement (.worldKeyInstall x0) := fun _ h => Bool.noConfusion h
theorem spdmMessage (x0 : Nat) : Statement (.spdmMessage x0) := fun _ h => Bool.noConfusion h
theorem groupContributionArrive (x0 : Contribution) : Statement (.groupContributionArrive x0) := fun _ h => Bool.noConfusion h

end Sys2Proof.Laws.Length
end

