-- ==== Sys2Proof/Laws/Table.lean ====
section
/-! SUPPORT. Laws of sparse tables: what a read gives after a write, and that every operation on a memory keeps its canonical form. -/

namespace Sys2Proof.Machine

/-- Every key of a sorted table above a bound stays above it. -/
theorem tabAbove_of_mem {α : Type} {t : Tab α} {n : Nat} (h : tabAbove n t = true) (hs : tabSorted t = true) : ∀ p ∈ t, n < p.1 := by
  induction t generalizing n with
  | nil => simp
  | cons q t ih =>
    obtain ⟨k, v⟩ := q
    simp only [tabAbove, decide_eq_true_eq, tabSorted, Bool.and_eq_true] at h hs
    intro p hp
    rcases List.mem_cons.1 hp with rfl | hp
    · exact h
    · exact lt_trans h (ih hs.1 hs.2 p hp)

/-- Sortedness, said of the list as a whole. -/
theorem tabSorted_iff {α : Type} (t : Tab α) : tabSorted t = true ↔ t.Pairwise fun p q => p.1 < q.1 := by
  induction t with
  | nil => simp [tabSorted]
  | cons q t ih =>
    obtain ⟨k, v⟩ := q
    simp only [tabSorted, Bool.and_eq_true, List.pairwise_cons, ← ih]
    constructor
    · intro h
      exact ⟨tabAbove_of_mem h.1 h.2, h.2⟩
    · intro h
      refine ⟨?_, h.2⟩
      cases t with
      | nil => rfl
      | cons r t => simpa [tabAbove] using h.1 r (by simp)

/-- A key below every key of a table reads as unlisted. -/
theorem tabGet_of_above {α : Type} (d : α) {t : Tab α} {n : Nat} (h : ∀ p ∈ t, n < p.1) : tabGet d t n = d := by
  cases t with
  | nil => rfl
  | cons p t =>
    have := h p (by simp)
    simp only [tabGet]
    rw [if_neg (by omega), if_pos this]

/-- A read after an entry is listed. -/
theorem tabGet_insert {α : Type} (d : α) (t : Tab α) (n m : Nat) (x : α) :
    tabGet d (tabInsert t n x) m = if m = n then x else tabGet d t m := by
  induction t with
  | nil => simp only [tabInsert, tabGet]; split <;> simp
  | cons p t ih =>
    obtain ⟨k, v⟩ := p
    simp only [tabInsert]
    split_ifs with h1 h2 h3 h4 <;> simp only [tabGet] <;> (try subst h1) <;> (try rw [ih]) <;> split_ifs <;> first | rfl | omega

/-- A read after an entry of a sorted table is removed. -/
theorem tabGet_erase {α : Type} (d : α) {t : Tab α} (hs : tabSorted t = true) (n m : Nat) :
    tabGet d (tabErase t n) m = if m = n then d else tabGet d t m := by
  induction t with
  | nil => simp [tabErase, tabGet]
  | cons p t ih =>
    obtain ⟨k, v⟩ := p
    simp only [tabSorted, Bool.and_eq_true] at hs
    have above := tabAbove_of_mem hs.1 hs.2
    simp only [tabErase]
    by_cases h1 : n = k
    · rw [if_pos h1]
      subst h1
      by_cases h2 : m = n
      · rw [if_pos h2]; subst h2; exact tabGet_of_above d above
      · rw [if_neg h2]
        simp only [tabGet]
        rw [if_neg h2]
        split_ifs with h5
        · exact tabGet_of_above d fun p hp => lt_trans h5 (above p hp)
        · rfl
    · rw [if_neg h1]
      by_cases h3 : n < k
      · rw [if_pos h3]
        by_cases h4 : m = n
        · rw [if_pos h4]; subst h4; simp only [tabGet]; rw [if_neg h1, if_pos h3]
        · rw [if_neg h4]
      · rw [if_neg h3]
        by_cases h4 : m = n
        · rw [if_pos h4]; subst h4; simp only [tabGet]; rw [if_neg h1, if_neg h3, ih hs.2, if_pos rfl]
        · rw [if_neg h4]; simp only [tabGet]; rw [ih hs.2, if_neg h4]

/-- A read after a write (the law of a sparse table). -/
theorem tabGet_set {α : Type} [DecidableEq α] (d : α) {t : Tab α} (hs : tabSorted t = true) (n m : Nat) (x : α) :
    tabGet d (tabSet d t n x) m = if m = n then x else tabGet d t m := by
  unfold tabSet
  split_ifs with h1 h2 h2
  · rw [tabGet_erase d hs, if_pos h2, h1]
  · rw [tabGet_erase d hs, if_neg h2]
  · rw [tabGet_insert, if_pos h2]
  · rw [tabGet_insert, if_neg h2]

theorem mem_tabInsert {α : Type} {t : Tab α} {n : Nat} {x : α} {p : Nat × α} (h : p ∈ tabInsert t n x) : p = (n, x) ∨ p ∈ t := by
  induction t with
  | nil => simpa [tabInsert] using h
  | cons q t ih =>
    obtain ⟨k, v⟩ := q
    simp only [tabInsert] at h
    split_ifs at h with h1 h2 <;> simp only [List.mem_cons] at h ⊢ <;> tauto

theorem mem_tabErase {α : Type} {t : Tab α} {n : Nat} {p : Nat × α} (h : p ∈ tabErase t n) : p ∈ t := by
  induction t with
  | nil => simp [tabErase] at h
  | cons q t ih =>
    obtain ⟨k, v⟩ := q
    simp only [tabErase] at h
    split_ifs at h with h1 h2 <;> simp only [List.mem_cons] at h ⊢ <;> tauto

/-- Listing an entry keeps the keys rising. -/
theorem tabSorted_insert {α : Type} {t : Tab α} (hs : tabSorted t = true) (n : Nat) (x : α) : tabSorted (tabInsert t n x) = true := by
  rw [tabSorted_iff] at hs ⊢
  induction t with
  | nil => simp [tabInsert]
  | cons q t ih =>
    obtain ⟨k, v⟩ := q
    obtain ⟨h, ht⟩ := List.pairwise_cons.1 hs
    simp only [tabInsert]
    split_ifs with h1 h2
    · subst h1; exact List.pairwise_cons.2 ⟨h, ht⟩
    · refine List.pairwise_cons.2 ⟨fun p hp => ?_, hs⟩
      rcases List.mem_cons.1 hp with rfl | hp
      · exact h2
      · exact lt_trans h2 (h p hp)
    · refine List.pairwise_cons.2 ⟨fun p hp => ?_, ih ht⟩
      rcases mem_tabInsert hp with rfl | hp
      · show k < n
        omega
      · exact h p hp

/-- Removing an entry keeps the keys rising. -/
theorem tabSorted_erase {α : Type} {t : Tab α} (hs : tabSorted t = true) (n : Nat) : tabSorted (tabErase t n) = true := by
  rw [tabSorted_iff] at hs ⊢
  induction t with
  | nil => simp [tabErase]
  | cons q t ih =>
    obtain ⟨k, v⟩ := q
    obtain ⟨h, ht⟩ := List.pairwise_cons.1 hs
    simp only [tabErase]
    split_ifs
    · exact ht
    · exact hs
    · exact List.pairwise_cons.2 ⟨fun p hp => h p (mem_tabErase hp), ih ht⟩

/-- The keys of a table in canonical form rise. -/
theorem tabWf_sorted {α : Type} [DecidableEq α] {d : α} {t : Tab α} (h : tabWf d t = true) : tabSorted t = true := by
  simp only [tabWf, Bool.and_eq_true] at h; exact h.1

/-- A write keeps the canonical form. -/
theorem tabWf_set {α : Type} [DecidableEq α] {d : α} {t : Tab α} (h : tabWf d t = true) (n : Nat) (x : α) : tabWf d (tabSet d t n x) = true := by
  simp only [tabWf, Bool.and_eq_true, List.all_eq_true, decide_eq_true_eq] at h ⊢
  unfold tabSet
  split_ifs with hx
  · exact ⟨tabSorted_erase h.1 n, fun p hp => h.2 p (mem_tabErase hp)⟩
  · refine ⟨tabSorted_insert h.1 n x, fun p hp => ?_⟩
    rcases mem_tabInsert hp with rfl | hp
    · exact hx
    · exact h.2 p hp

/-- A write of a range keeps the canonical form. -/
theorem tabWf_setRange {α : Type} [DecidableEq α] {d : α} {t : Tab α} (h : tabWf d t = true) (a : Nat) (vs : List α) :
    tabWf d (tabSetRange d t a vs) = true := by
  induction vs generalizing t a with
  | nil => exact h
  | cons v vs ih => exact ih (tabWf_set h a v) (a + 1)

/-- Clearing a range keeps the canonical form. -/
theorem tabWf_clear {α : Type} [DecidableEq α] {d : α} {t : Tab α} (h : tabWf d t = true) (a n : Nat) : tabWf d (tabClear t a n) = true := by
  simp only [tabWf, Bool.and_eq_true, List.all_eq_true, decide_eq_true_eq, tabSorted_iff] at h ⊢
  exact ⟨h.1.filter _, fun p hp => h.2 p (List.mem_of_mem_filter hp)⟩

/-- A read outside a written range gives what it gave. -/
theorem tabGet_setRange_out {α : Type} [DecidableEq α] {d : α} {t : Tab α} (h : tabSorted t = true) (a : Nat) (vs : List α) (m : Nat)
    (hm : m < a ∨ a + vs.length ≤ m) : tabGet d (tabSetRange d t a vs) m = tabGet d t m := by
  induction vs generalizing t a with
  | nil => rfl
  | cons v vs ih =>
    simp only [List.length_cons] at hm
    have hs : tabSorted (tabSet d t a v) = true := by
      unfold tabSet; split_ifs
      · exact tabSorted_erase h a
      · exact tabSorted_insert h a v
    simp only [tabSetRange]
    rw [ih hs (a + 1) (by omega), tabGet_set d h, if_neg (by omega)]

/-- A read within a written range gives the value written. -/
theorem tabGet_setRange_in {α : Type} [DecidableEq α] {d : α} {t : Tab α} (h : tabSorted t = true) (a : Nat) (vs : List α) (i : Nat)
    (hi : i < vs.length) : tabGet d (tabSetRange d t a vs) (a + i) = vs[i] := by
  induction vs generalizing t a i with
  | nil => simp at hi
  | cons v vs ih =>
    have hs : tabSorted (tabSet d t a v) = true := by
      unfold tabSet; split_ifs
      · exact tabSorted_erase h a
      · exact tabSorted_insert h a v
    simp only [tabSetRange]
    cases i with
    | zero =>
      show tabGet d (tabSetRange d (tabSet d t a v) (a + 1) vs) a = v
      rw [tabGet_setRange_out hs (a + 1) vs a (by omega), tabGet_set d h, if_pos rfl]
    | succ i =>
      have := ih hs (a + 1) i (by simpa using hi)
      rw [show a + (i + 1) = a + 1 + i by omega, this]; rfl

/-- A paste of a range from a table in canonical form keeps the form. -/
theorem tabWf_paste {α : Type} [DecidableEq α] {d : α} {t u : Tab α} (h : tabWf d t = true) (hu : tabWf d u = true) (a n : Nat) :
    tabWf d (tabPaste t a n u) = true := by
  simp only [tabWf, Bool.and_eq_true, List.all_eq_true, decide_eq_true_eq, tabSorted_iff] at h hu ⊢
  refine ⟨?_, fun p hp => ?_⟩
  · simp only [tabPaste, List.pairwise_append, List.mem_append, List.mem_filter, decide_eq_true_eq, Bool.and_eq_true]
    refine ⟨⟨h.1.filter _, hu.1.filter _, fun p hp q hq => by omega⟩, h.1.filter _, fun p hp q hq => ?_⟩
    rcases hp with hp | hp <;> omega
  · simp only [tabPaste, List.mem_append, List.mem_filter] at hp
    rcases hp with (hp | hp) | hp
    · exact h.2 p hp.1
    · exact hu.2 p hp.1
    · exact h.2 p hp.1

/-! ### The memory operations keep the canonical form -/

/-- A write of physical memory keeps the canonical form of the memory. -/
theorem memWf_physWrite {s : State} (h : s.mem.wf) (pa : Nat) (bs : List Byte) (tag : LineTag) :
    (physWrite s pa bs tag).mem.wf := tabWf_setRange h pa bs

/-- A write of a vault keeps the canonical form of the vaults. -/
theorem vaultsWf_vaultStore {s t : State} (h : tabWf 0 s.vaults = true) (a : Nat) (bs : List Byte) (ht : vaultStore s a bs = .ok t) :
    tabWf 0 t.vaults = true := by
  unfold vaultStore at ht
  split at ht
  · injection ht with ht; subst ht; exact tabWf_setRange h _ _
  · cases ht

/-- A write of a scratchpad keeps its canonical form. -/
theorem spadWf_spadStore {s t : State} (h : tabWf 0 s.core.spad = true) (off : Nat) (bs : List Byte) (ht : spadStore s off bs = .ok t) :
    tabWf 0 t.core.spad = true := by
  unfold spadStore at ht
  split at ht
  · injection ht with ht; subst ht
    unfold putSpad
    split
    · exact h
    · exact tabWf_setRange h _ _
  · cases ht

/-! ### Lists in an order -/

theorem insertBy_perm {α : Type} (le : α → α → Bool) (x : α) (l : List α) : (insertBy le x l).Perm (x :: l) := by
  induction l with
  | nil => exact .refl _
  | cons y t ih =>
    rw [insertBy]
    split
    · exact .refl _
    · exact (ih.cons y).trans (.swap ..)

/-- Sorting keeps the values of a list. -/
theorem sortBy_perm {α : Type} (le : α → α → Bool) (l : List α) : (sortBy le l).Perm l := by
  induction l with
  | nil => exact .refl _
  | cons x t ih => exact (insertBy_perm le x _).trans (ih.cons x)

end Sys2Proof.Machine
end

