-- ==== Sys2Proof/Tests/Slice0.lean ====
section
/-! SUPPORT. Tests: words written out from the spec decode to their instructions, ill-formed terms are refused, single steps give what the spec
states, and a concrete state meets the hypotheses of each statement. -/

namespace Sys2Proof.Tests
set_option Elab.async false
open Sys2Proof Sys2Proof.Machine Sys2Proof.Claims

/-! ### Small states -/

/-- The purses of virtual device 0 at the L2 slices of die 0, the two halves of HBM stack 0, CXL port 0 and fabric port 0. -/
def funds : Tab Purse := [(2, 0), (3, 0), (3, 1), (4, 0), (5, 0)].map fun p => (purseKey p.1 p.2 0, ⟨1000, 0, true, false⟩)
/-- A package with one job of one core, its C stream in RUN at PC 0 at level U. -/
def bed : State :=
  { State.reset with
    purses := funds
    touched := (upFrom 1 24).map fun f => (f, some ⟨0, 0⟩)
    core := { Core.reset with job := some 0, c := { Stream.reset with state := .run } }
    mem := loneMemory [] 0
    ctxs := [(0, loneContext false)]
    jobs := [(0, some loneJob)]
    pot := [(1, ⟨1, 1⟩), (2, ⟨1, 1⟩), (3, ⟨1, 1⟩), (4, ⟨1, 1⟩), (5, ⟨1, 1⟩)]
    keys := [1] }

/-- The same with registers of the executing stream. -/
def withRegs (s : State) (r : Tab Word) : State := setCur s { curStream s with regs := r }

/-- The same with a stream executing. -/
def inStream (s : State) (st : StreamName) : State := { s with cur := st, core := setStream s.core st { Stream.reset with state := .run } }

/-- The same at level P. -/
def atP (s : State) : State := { s with core := { s.core with tstat := 1 } }

/-- A REGION descriptor: format code, BASE, COUNT, ESTRIDE, X1 and S1 (R145). -/
def region (fmt base count estride x1 s1 : Nat) : DescWord :=
  BitVec.ofNat 256 (2 ^ 61 + fmt * 2 ^ 55 + base + count * 2 ^ 64 + estride * 2 ^ 80 + x1 * 2 ^ 112 + s1 * 2 ^ 128)

/-- The state after one instruction. -/
def after (i : Instr) (s : State) : Option State := match exec i s with | .next t => some t | _ => none

/-- A sync word with a give, two takes, a valid count and NT (R56). -/
def sy : Sync := { give := some 4, take0 := some 1, take1 := some 2, take2 := none, rows := some 3, nt := true }
/-- A sync word without any field. -/
def plainSy : Sync := { give := none, take0 := none, take1 := none, take2 := none, rows := none, nt := false }

/-- A stream at a level, tuned or not, reads the words as the instruction. -/
def reads (st : StreamName) (lvl tune : Bool) (ws : List Nat) (i : Instr) : Prop := decodeWords st lvl tune ws = .ok i

/-! ### Decoding -/

/-- A word of every instruction of class Q, written out from its encoding (R85 to R93, R139, R140, R297, R312; R53 to R60, R64, R65). -/
theorem test_decode_class_q :
    reads .c false false [0x00000000] (.nop) ∧
    reads .v false false [0x007FFFFB] (.b ⟨(-5), false⟩) ∧
    reads .c false false [0x00800007, 0xFFFFFFFF] (.call ⟨(-4194297), true⟩) ∧
    reads .c false false [0x00C00000] (.ret) ∧
    reads .d false false [0x010327FE] (.bccEq 3 9 ⟨(-2), false⟩) ∧
    reads .d false false [0x014327FF] (.bccNe 3 9 ⟨(-1), false⟩) ∧
    reads .d false false [0x01832400] (.bccLt 3 9 ⟨0, false⟩) ∧
    reads .d false false [0x01C32401] (.bccGe 3 9 ⟨1, false⟩) ∧
    reads .d false false [0x02032402] (.bccLtn 3 9 ⟨2, false⟩) ∧
    reads .d false false [0x02432403] (.bccGen 3 9 ⟨3, false⟩) ∧
    reads .x false false [0x02801FFF] (.loop 7 1023) ∧
    reads .x false false [0x02C00000] (.rndv) ∧
    reads .v false false [0x03050204] (.whereQ 5 0x204) ∧
    reads .c false false [0x03400014] (.fence .full .pkg) ∧
    reads .c false false [0x041F1200] (.semadd 31 4 (-512)) ∧
    reads .c false false [0x045E10FF] (.semwait 30 4 (-1)) ∧
    reads .c false false [0x045D0100] (.semwaitTake 29) ∧
    reads .d false false [0x04850C7F] (.semtry 5 3 127) ∧
    reads .d false false [0x04860900] (.semtryTake 6 2) ∧
    reads .c false false [0x04C315FF] (.semset 3 5 511) ∧
    reads .c false false [0x05077C00] (.semrd 7 31) ∧
    reads .c false false [0x05077801] (.semrdDraw 7 30) ∧
    reads .c false false [0x05071802] (.semrdPb 7 6) ∧
    reads .c false false [0x0545FFFF] (.pbwait 5 63 1023) :=
  by and_intros <;> rfl

/-- A word of every instruction of class S, written out from its encoding (R95 to R100; R53 to R60, R64, R65). -/
theorem test_decode_class_s :
    reads .c false false [0x203DFBF0] (.add 61 62 63) ∧
    reads .c false false [0x207DFBF0] (.sub 61 62 63) ∧
    reads .c false false [0x20BDFBF0] (.mul 61 62 63) ∧
    reads .c false false [0x20FDFBF0] (.mulh 61 62 63) ∧
    reads .c false false [0x213DFBF0] (.mulhn 61 62 63) ∧
    reads .c false false [0x217DFBF0] (.div 61 62 63) ∧
    reads .c false false [0x21BDFBF0] (.divn 61 62 63) ∧
    reads .c false false [0x21FDFBF0] (.rem 61 62 63) ∧
    reads .c false false [0x223DFBF0] (.and 61 62 63) ∧
    reads .c false false [0x227DFBF0] (.or 61 62 63) ∧
    reads .c false false [0x22BDFBF0] (.xor 61 62 63) ∧
    reads .c false false [0x22FDFBF0] (.shl 61 62 63) ∧
    reads .c false false [0x233DFBF0] (.shr 61 62 63) ∧
    reads .c false false [0x237DFBF0] (.sar 61 62 63) ∧
    reads .c false false [0x23BDFBF0] (.min 61 62 63) ∧
    reads .c false false [0x23FDFBF0] (.max 61 62 63) ∧
    reads .c false false [0x243DFBF0] (.minn 61 62 63) ∧
    reads .c false false [0x247DFBF0] (.maxn 61 62 63) ∧
    reads .c false false [0x24BDFBF0] (.slt 61 62 63) ∧
    reads .c false false [0x24FDFBF0] (.sltn 61 62 63) ∧
    reads .c false false [0x253DFBF0] (.seq 61 62 63) ∧
    reads .c false false [0x257DFBF0] (.sel 61 62 63) ∧
    reads .c false false [0x258B3000] (.clz 11 12) ∧
    reads .c false false [0x25CB3000] (.ctz 11 12) ∧
    reads .c false false [0x260B3000] (.popc 11 12) ∧
    reads .c false false [0x264B30D0] (.bfx 11 12 13) ∧
    reads .c false false [0x268B30D0] (.bfi 11 12 13) ∧
    reads .x false false [0x280F3A00] (.addi 15 14 ⟨(-512), false⟩) ∧
    reads .x false false [0x284F3A01] (.andi 15 14 ⟨(-511), false⟩) ∧
    reads .x false false [0x288F3A02] (.ori 15 14 ⟨(-510), false⟩) ∧
    reads .x false false [0x28CF3A03] (.xori 15 14 ⟨(-509), false⟩) ∧
    reads .c false false [0x28051803, 0xF0000002] (.addi 5 6 ⟨2051, true⟩) ∧
    reads .v false false [0x2905183F] (.shli 5 6 63) ∧
    reads .v false false [0x2945183F] (.shri 5 6 63) ∧
    reads .v false false [0x2985183F] (.sari 5 6 63) ∧
    reads .c false false [0x2A078000] (.li 7 ⟨(-32768), false⟩) ∧
    reads .c false false [0x2A47FFFF] (.lih 7 ⟨65535, false⟩) ∧
    reads .c false false [0x2A470001, 0xFFFFFFFF] (.lih 7 ⟨17592185978881, true⟩) ∧
    reads .c false false [0x2A89FFFF] (.addpc 9 ⟨(-1), false⟩) :=
  by and_intros <;> rfl

/-- A word of every instruction of class F, written out from its encoding (R102 to R122; R53 to R60, R64, R65). -/
theorem test_decode_class_f :
    reads .c false false [0x40010830] (.fadd 1 2 3 (some .rne)) ∧
    reads .c false false [0x40410831] (.fsub 1 2 3 (some .rtz)) ∧
    reads .c false false [0x40810832] (.fmul 1 2 3 (some .rup)) ∧
    reads .c false false [0x40C10833] (.ffma 1 2 3 (some .rdn)) ∧
    reads .c false false [0x41010834] (.fdiv 1 2 3 (some .rna)) ∧
    reads .c false false [0x41410807] (.fsqrt 1 2 none) ∧
    reads .c false false [0x41810830] (.fmin 1 2 3) ∧
    reads .c false false [0x41C10830] (.fmax 1 2 3) ∧
    reads .c false false [0x42010832] (.fcmp .le 1 2 3) ∧
    reads .c false false [0x42410800] (.fclass 1 2) ∧
    reads .c false false [0x428108B5] (.fcvtTo 1 2 11 (some .sr)) ∧
    reads .c false false [0x42C10817] (.fcvtFrom 1 2 1 none) ∧
    reads .c false false [0x44218800] (.ld1s 33 34 ⟨0, false⟩) ∧
    reads .c false false [0x44618BFF] (.ld1z 33 34 ⟨(-1), false⟩) ∧
    reads .c false false [0x44A18BFE] (.ld2s 33 34 ⟨(-2), false⟩) ∧
    reads .c false false [0x44E18BFD] (.ld2z 33 34 ⟨(-3), false⟩) ∧
    reads .c false false [0x45218BFC] (.ld4s 33 34 ⟨(-4), false⟩) ∧
    reads .c false false [0x45618BFB] (.ld4z 33 34 ⟨(-5), false⟩) ∧
    reads .c false false [0x45A18BFA] (.ld8 33 34 ⟨(-6), false⟩) ∧
    reads .c false false [0x45E08810] (.ld16 32 34 ⟨16, false⟩) ∧
    reads .c false false [0x46218800] (.st1 33 34 ⟨0, false⟩) ∧
    reads .c false false [0x46618801] (.st2 33 34 ⟨1, false⟩) ∧
    reads .c false false [0x46A18802] (.st4 33 34 ⟨2, false⟩) ∧
    reads .c false false [0x46E18803] (.st8 33 34 ⟨3, false⟩) ∧
    reads .c false false [0x471E7C00, 0xF0000001] (.st16 30 31 ⟨1024, true⟩) ∧
    reads .c false false [0x48010838] (.amo4 .xchg 1 2 3) ∧
    reads .c false false [0x48410833] (.amo8 .minn 1 2 3) ∧
    reads .c false false [0x48810830] (.acas4 1 2 3) ∧
    reads .c false false [0x48C10830] (.acas8 1 2 3) :=
  by and_intros <;> rfl

/-- A word of every instruction of class V, written out from its encoding (R184, R201; R53 to R60, R64, R65). -/
theorem test_decode_class_v :
    reads .v false false [0x603FEE81, 0x92188039] (.vadd 31 30 29 (some .rtz) sy) ∧
    reads .v false false [0x607FEE81, 0x92188039] (.vsub 31 30 29 (some .rtz) sy) ∧
    reads .v false false [0x60BFEE81, 0x92188039] (.vmul 31 30 29 (some .rtz) sy) ∧
    reads .v false false [0x60FFEE81, 0x92188039] (.vfma 31 30 29 (some .rtz) sy) ∧
    reads .v false false [0x613FEE81, 0x92188039] (.vfms 31 30 29 (some .rtz) sy) ∧
    reads .v false false [0x617FEE81, 0x92188039] (.vdiv 31 30 29 (some .rtz) sy) ∧
    reads .v false false [0x61BFEE81, 0x92188039] (.vmin 31 30 29 (some .rtz) sy) ∧
    reads .v false false [0x61FFEE81, 0x92188039] (.vmax 31 30 29 (some .rtz) sy) ∧
    reads .v false false [0x64BFEE81, 0x92188039] (.vsel 31 30 29 (some .rtz) sy) ∧
    reads .v false false [0x67BFEE81, 0x92188039] (.vclamp 31 30 29 (some .rtz) sy) ∧
    reads .v false false [0x67FFEE81, 0x92188039] (.vscale 31 30 29 (some .rtz) sy) ∧
    reads .v false false [0x620A6007, 0x92188039] (.vabs 5 6 none sy) ∧
    reads .v false false [0x624A6007, 0x92188039] (.vneg 5 6 none sy) ∧
    reads .v false false [0x64CA6007, 0x92188039] (.vcvt 5 6 none sy) ∧
    reads .v false false [0x650A6007, 0x92188039] (.vexp2 5 6 none sy) ∧
    reads .v false false [0x654A6007, 0x92188039] (.vlog2 5 6 none sy) ∧
    reads .v false false [0x658A6007, 0x92188039] (.vrcp 5 6 none sy) ∧
    reads .v false false [0x65CA6007, 0x92188039] (.vrsq 5 6 none sy) ∧
    reads .v false false [0x660A6007, 0x92188039] (.vsqrt 5 6 none sy) ∧
    reads .v false false [0x664A6007, 0x92188039] (.vtanh 5 6 none sy) ∧
    reads .v false false [0x668A6007, 0x92188039] (.vsig 5 6 none sy) ∧
    reads .v false false [0x66CA6007, 0x92188039] (.verf 5 6 none sy) ∧
    reads .v false false [0x670A6007, 0x92188039] (.vsin 5 6 none sy) ∧
    reads .v false false [0x674A6007, 0x92188039] (.vcos 5 6 none sy) ∧
    reads .v false false [0x628A6380, 0x92188039] (.vand 5 6 7 sy) ∧
    reads .v false false [0x62CA6380, 0x92188039] (.vor 5 6 7 sy) ∧
    reads .v false false [0x630A6380, 0x92188039] (.vxor 5 6 7 sy) ∧
    reads .v false false [0x638A6380, 0x92188039] (.vshl 5 6 7 sy) ∧
    reads .v false false [0x63CA6380, 0x92188039] (.vshr 5 6 7 sy) ∧
    reads .v false false [0x640A6380, 0x92188039] (.vsar 5 6 7 sy) ∧
    reads .v false false [0x634A6000, 0x92188039] (.vnot 5 6 sy) ∧
    reads .v false false [0x68CA6000, 0x92188039] (.vmov 5 6 sy) ∧
    reads .v false false [0x644A63B8, 0x92188039] (.vcmp .ord 5 6 7 sy) ∧
    reads .v false false [0x680AF020, 0x92188039] (.vbcast .hbf16 5 15 (some .rne) sy) ∧
    reads .v false false [0x684AE78A, 0x92188039] (.viota true 5 14 15 (some .rup) sy) ∧
    reads .v false false [0x688A638B, 0x92188039] (.vperm true 5 6 7 (some .rdn) sy) ∧
    reads .v false false [0x6C0A6067, 0x92188039] (.vred .sumsq true 5 6 none sy) ∧
    reads .v false false [0x6C4A6037, 0x92188039] (.vscan .min true 5 6 none sy) ∧
    reads .v false false [0x6C8A63C7, 0x92188039] (.vdot true 5 6 7 none sy) ∧
    reads .v false false [0x6CCA63BF, 0x92188039] (.vdist .ham true 5 6 7 none sy) ∧
    reads .v false false [0x6D0A63C8, 0x92188039] (.vthrc true true 5 6 7 sy) ∧
    reads .v false false [0x6D4A6397, 0x92188039] (.vcomp false true 5 6 7 none sy) ∧
    reads .v false false [0x6D8A638F, 0x92188039] (.vexpd true 5 6 7 none sy) ∧
    reads .v false false [0x6DCA6688, 0x92188039] (.vhist true false 5 6 13 sy) ∧
    reads .v false false [0x6E0A6010, 0x92188039] (.vxform false true 5 6 sy) ∧
    reads .v false false [0x6E4A6047, 0x92188039] (.vmaxi true 5 6 none sy) ∧
    reads .v false false [0x6E8A600F, 0x92188039] (.vsort true false 5 6 none sy) ∧
    reads .v false false [0x6EC0C010, 0x92188039] (.vranki false true 12 sy) ∧
    reads .v false false [0x6F006380, 0x92188039] (.vrankp 6 7 sy) ∧
    reads .v false false [0x6F52000F, 0x92188039] (.vranko true 9 none sy) :=
  by and_intros <;> rfl

/-- A word of every instruction of class X, written out from its encoding (R231, R255; R53 to R60, R64, R65). -/
theorem test_decode_class_x :
    reads .x false false [0x80000000, 0x92188039] (.xlease sy) ∧
    reads .x false false [0x80400008, 0x92188039] (.xfree true sy) ∧
    reads .x false false [0x8080B000, 0x92188039] (.xcellop 11 sy) ∧
    reads .x false false [0x80C00028, 0x92188039] (.xzero .neginf true sy) ∧
    reads .x false false [0x81006388, 0x92188039] (.xpass true 6 7 sy) ∧
    reads .x false false [0x81406480, 0x92188039] (.xside 6 9 sy) ∧
    reads .x false false [0x81809000, 0x92188039] (.xsideb 9 sy) ∧
    reads .x false false [0x81CC000C, 0x92188039] (.xdrain true 6 (some .rna) sy) ∧
    reads .x false false [0x82006010, 0x92188039] (.xbias false true 6 sy) ∧
    reads .x false false [0x840A6380, 0x92188039] (.ares 5 6 7 sy) ∧
    reads .x false false [0x844A0000, 0x92188039] (.arel 5 sy) ∧
    reads .x false false [0x848A6010, 0x92188039] (.aqry .old 5 6 sy) ∧
    reads .x false true [0x84CA6380, 0x92188039] (.apub 5 6 7 sy) :=
  by and_intros <;> rfl

/-- A word of every instruction of class D, written out from its encoding (R152 to R162, R169, R440; R53 to R60, R64, R65). -/
theorem test_decode_class_d :
    reads .d false false [0xA01F25B0] (.dset 0x1B 31 9) ∧
    reads .d false false [0xA0497D60] (.dgetf 0x16 9 31) ∧
    reads .d false false [0xA09F27E0] (.dld 31 9 ⟨(-32), false⟩) ∧
    reads .d false false [0xA0DF2420, 0xF0000000] (.dst 31 9 ⟨32, true⟩) ∧
    reads .d false false [0xA11E7C00] (.dcpy 30 31) ∧
    reads .v false false [0xA15E2401] (.dadv true 30 9) ∧
    reads .d false false [0xA2077C00] (.rinit 7 31) ∧
    reads .x false false [0xA24727FF] (.rcommit 7 9 1023) ∧
    reads .x false false [0xA2862401] (.rrelease 6 9 1) ∧
    reads .v false false [0xA2C91C06] (.rstat 9 7 6) ∧
    reads .d false false [0xA40A601F, 0x92188039] (.dcopy .elems 5 6 none sy) ∧
    reads .d false false [0xA44A63AF, 0x92188039] (.dgather .rows true 5 6 7 none sy) ∧
    reads .d false false [0xA48A63A7, 0x92188039] (.dscatter .none true 5 6 7 none sy) ∧
    reads .d false false [0xA4CA638F, 0x92188039] (.dscata .rows false 5 6 7 none sy) ∧
    reads .d false false [0xA50A6000, 0x92188039] (.dfill 5 6 sy) ∧
    reads .d false false [0xA5406000, 0x92188039] (.dpref 6 sy) ∧
    reads .d false false [0xA5806388, 0x92188039] (.dpreq .rows 6 7 sy) ∧
    reads .d false false [0xA5C06000, 0x92188039] (.dflush 6 sy) ∧
    reads .d false false [0xA6006000, 0x92188039] (.dinv 6 sy) ∧
    reads .d false false [0xA80821F8, 0x92188039] (.dput 15 4 2 3 sy) ∧
    reads .d false false [0xA88821F8, 0x92188039] (.dfadd 15 4 2 3 sy) ∧
    reads .d false false [0xA8C821F8, 0x92188039] (.dfcas 15 4 2 3 sy) ∧
    reads .d false false [0xA8482070, 0x92188039] (.dget 14 4 2 sy) ∧
    reads .d false false [0xA90044E8, 0x92188039] (.dfencef 13 4 9 sy) ∧
    reads .d false false [0xA9509060, 0x92188039] (.dflowOpen 12 8 9 sy) ∧
    reads .d false false [0xA95090E0, 0x92188039] (.dflowClose 12 8 9 sy) ∧
    reads .d false false [0xA9509160, 0x92188039] (.dflowReset 12 8 9 sy) ∧
    reads .d false false [0xA95091E0, 0x92188039] (.dflowStat 12 8 9 sy) :=
  by and_intros <;> rfl

/-- A word of every instruction of class T, written out from its encoding (R274, R332, R350, R422; R53 to R60, R64, R65). -/
theorem test_decode_class_t :
    reads .c false false [0xC0077C00] (.tdef 7 31) ∧
    reads .c false false [0xC0407C00] (.tacqR 31) ∧
    reads .c false false [0xC0807C00] (.tacqW 31) ∧
    reads .c false false [0xC0C77C00] (.tacqRTry 7 31) ∧
    reads .c false false [0xC1077C00] (.tacqWTry 7 31) ∧
    reads .c false false [0xC1407C00] (.trel 31) ∧
    reads .c false false [0xC1807C00] (.tseal 31) ∧
    reads .c false false [0xC1807C01] (.tsealDet 31) ∧
    reads .c false false [0xC1CC28B0] (.tsplit 12 10 11) ∧
    reads .c false false [0xC20930B0] (.tjoin 9 12 11) ∧
    reads .c false false [0xC2407C00] (.tfree 31) ∧
    reads .c false false [0xC2872000] (.tqry .state 7 8) ∧
    reads .c false false [0xC2872001] (.tqry .base 7 8) ∧
    reads .c false false [0xC2872002] (.tqry .ext01 7 8) ∧
    reads .c false false [0xC2872003] (.tqry .ext23 7 8) ∧
    reads .c false false [0xC2872004] (.tqry .held 7 8) ∧
    reads .c false false [0xC4002403] (.gjoin 9 3) ∧
    reads .c false false [0xC4400002] (.gleave 2) ∧
    reads .d false false [0xC6000018, 0x92188039] (.gsync 3 sy) ∧
    reads .d false false [0xC64A604F, 0x92188039] (.gred .min 1 5 6 none sy) ∧
    reads .d false false [0xC68A6390, 0x92188039] (.gbcast 2 5 6 7 sy) ∧
    reads .d false false [0xC6CA6000, 0x92188039] (.ggath 0 5 6 sy) ∧
    reads .c false false [0xC8050C40] (.launch 5 3 4) ∧
    reads .c false false [0xC8050C41] (.launchTry 5 3 4) ∧
    reads .c false false [0xC8450C00] (.qstat .tail 5 3) ∧
    reads .c false false [0xC8450C01] (.qstat .prog 5 3) ∧
    reads .c false false [0xC8450C02] (.qstat .done 5 3) ∧
    reads .c false false [0xC8450C03] (.qstat .state 5 3) ∧
    reads .c true false [0xCA001000] (.tlbinvPage 4) ∧
    reads .c true false [0xCA001051] (.tlbinvRange 4 5) ∧
    reads .c true false [0xCA000002] (.tlbinvCtx) ∧
    reads .c true false [0xCA451000] (.pmig .toHbm 5 4) ∧
    reads .c true false [0xCA451001] (.pmig .toCxl 5 4) ∧
    reads .c true false [0xCA451002] (.pmig .evict 5 4) :=
  by and_intros <;> rfl

/-- A word of every instruction of class P, written out from its encoding (R375; R53 to R60, R64, R65). -/
theorem test_decode_class_p :
    reads .c false false [0xE00027FF] (.trap 9 1023) ∧
    reads .c true false [0xE0400000] (.rte) ∧
    reads .c false false [0xE0850018] (.csrr 5 0x18) ∧
    reads .c true false [0xE0C51909] (.csrw 5 6 0x109) ∧
    reads .c false false [0xE1051802] (.csrs 5 6 2) ∧
    reads .c false false [0xE1451800] (.csrc 5 6 0) ∧
    reads .c false false [0xE18024A0] (.iciv 9 10) ∧
    reads .x false false [0xE1FFFFFF] (.brk 0x3FFFFF) ∧
    reads .c false false [0xE2000000] (.yield) :=
  by and_intros <;> rfl
/-- Words that R66 refuses, each with its cause: an unassigned opcode, an extension word out of place, a stream that may not execute the opcode, a
level, a reserved field, a register, a semaphore and a descriptor out of range, a reserved format code, and the reserved rounding code 6. -/
theorem test_decode_refusals :
    decodeWords .c false false [0x03800000] = .error .illegalOpcode ∧ decodeWords .c false false [0xF0000000] = .error .extWordMisplaced ∧
    decodeWords .v false false [0x00C00000] = .error .wrongStream ∧ decodeWords .c false false [0xE0400000] = .error .privileged ∧
    decodeWords .c false false [0x20020841] = .error .reservedField ∧ decodeWords .d false false [0x20100000] = .error .badRegister ∧
    decodeWords .c false false [0x04200000] = .error .semRange ∧ decodeWords .c false false [0xA0200000] = .error .badRegister ∧
    decodeWords .c false false [0x42810900] = .error .formatUnsupported ∧ decodeWords .c false false [0x40010836] = .error .reservedField :=
  by and_intros <;> rfl

/-! ### Well-formedness -/

/-- Each check of `wellFormed` refuses an ill-formed term: a stream, a register of C and of an engine stream, a descriptor, a semaphore, a counter, a
ring, an h register, a flow, a slot, a signed and an unsigned immediate with and without an extension word, a shift, a code of DSET, WHERE, the CSRs,
FCVT and RSTAT, an odd pair, a quad, and each field of a sync word. An event has no encoding. -/
theorem test_ill_formed :
    (∀ p ∈ [(StreamName.v, Instr.ret), (.d, .mulh 1 2 3), (.c, .dcopy .none 1 2 none plainSy), (.d, .vrankp 1 2 plainSy), (.v, .xlease plainSy),
        (.c, .add 64 0 0), (.c, .add 0 64 0), (.c, .add 0 0 64), (.v, .add 16 0 0), (.d, .semtry 16 1 0),
        (.c, .dcpy 32 0), (.v, .vadd 32 0 0 none plainSy), (.v, .vadd 0 32 0 none plainSy), (.v, .vadd 0 0 32 none plainSy),
        (.c, .semadd 32 0 0), (.c, .semrdPb 1 8), (.c, .pbwait 8 0 0), (.c, .rinit 8 0),
        (.v, .vbcast .hi64 0 16 none plainSy), (.d, .dget 16 0 0 plainSy), (.d, .gsync 4 plainSy), (.c, .gjoin 1 4)],
      wellFormed p.1 p.2 = false) ∧
    (∀ p ∈ [(StreamName.c, Instr.addi 1 2 ⟨512, false⟩), (.c, .addi 1 2 ⟨-513, false⟩), (.c, .addi 1 2 ⟨2 ^ 37, true⟩), (.c, .li 1 ⟨32768, false⟩),
        (.c, .lih 1 ⟨65536, false⟩), (.c, .lih 1 ⟨-1, false⟩), (.c, .lih 1 ⟨2 ^ 44, true⟩), (.c, .b ⟨2 ^ 21, false⟩),
        (.c, .semwait 1 2 128), (.c, .semadd 1 2 512), (.c, .loop 1 1024), (.c, .shli 1 2 64), (.c, .trap 1 1024), (.c, .brk (2 ^ 22)),
        (.c, .dset 0x17 1 2), (.c, .whereQ 1 6), (.c, .whereQ 1 0x209), (.c, .csrr 1 4), (.c, .csrr 1 0x10A), (.c, .fcvtTo 1 2 16 none),
        (.c, .rstat 1 2 8), (.c, .rcommit 1 2 1024), (.c, .ld16 1 2 ⟨0, false⟩), (.c, .tsplit 0 1 2), (.c, .tsplit 6 1 2), (.d, .tjoin 1 16 2),
        (.v, .vadd 1 2 3 none { plainSy with give := some 32 }), (.v, .vadd 1 2 3 none { plainSy with take0 := some 32 }),
        (.v, .vadd 1 2 3 none { plainSy with take1 := some 32 }), (.v, .vadd 1 2 3 none { plainSy with take2 := some 32 }),
        (.v, .vadd 1 2 3 none { plainSy with rows := some 16 }), (.d, .dpreq .none 1 2 plainSy), (.c, .governorRecoveryStep)],
      wellFormed p.1 p.2 = false) := by decide +kernel

/-- The neighbours of those terms that are well formed. -/
theorem test_well_formed :
    ∀ p ∈ [(StreamName.c, Instr.add 63 63 63), (.v, .add 15 15 15), (.c, .addi 1 2 ⟨511, false⟩), (.c, .addi 1 2 ⟨-512, false⟩),
      (.c, .addi 1 2 ⟨2 ^ 37 - 1, true⟩), (.c, .lih 1 ⟨2 ^ 44 - 1, true⟩), (.c, .shli 1 2 63), (.c, .dset 0x1B 31 63), (.c, .whereQ 1 0x208),
      (.c, .csrr 1 0x109), (.c, .ld16 62 2 ⟨0, false⟩), (.c, .tsplit 60 1 2), (.d, .tjoin 1 12 2), (.v, .vadd 31 31 31 none sy)],
      wellFormed p.1 p.2 = true := by decide +kernel

/-! ### Encodings: the hypotheses of the round trips are met -/

theorem witness_RoundTripScalar :
    classIn (.addi 5 6 ⟨-1, false⟩) [0, 1, 2] ∧ wellFormed .c (.addi 5 6 ⟨-1, false⟩) = true ∧ admitted (.addi 5 6 ⟨-1, false⟩) false false ∧
    ∀ w ∈ [0x00000000], isExtWord w = false :=
  ⟨⟨_, _, rfl, by decide⟩, by decide, by unfold admitted; decide, by decide⟩
theorem witness_RoundTripVectorAndArray :
    classIn (.vadd 31 30 29 none sy) [3, 4] ∧ wellFormed .v (.vadd 31 30 29 none sy) = true ∧ admitted (.vadd 31 30 29 none sy) false false ∧
    classIn (.apub 1 2 3 sy) [3, 4] ∧ wellFormed .x (.apub 1 2 3 sy) = true ∧ admitted (.apub 1 2 3 sy) false true :=
  ⟨⟨_, _, rfl, by decide⟩, by decide, by unfold admitted; decide, ⟨_, _, rfl, by decide⟩, by decide, by unfold admitted; decide⟩
theorem witness_RoundTripDataTileSystem :
    classIn (.dput 15 4 2 3 sy) [5, 6, 7] ∧ wellFormed .d (.dput 15 4 2 3 sy) = true ∧ admitted (.dput 15 4 2 3 sy) false false ∧
    classIn .rte [5, 6, 7] ∧ wellFormed .c .rte = true ∧ admitted .rte true false :=
  ⟨⟨_, _, rfl, by decide⟩, by decide, by unfold admitted; decide, ⟨_, _, rfl, by decide⟩, by decide, by unfold admitted; decide⟩

/-! ### Scalar instructions -/

theorem test_add_wraps : (after (.add 3 1 2) (withRegs bed [(1, 0xFFFFFFFFFFFFFFFF), (2, 2)])).map (readReg · 3) = some 1 := by decide +kernel
theorem test_mulh_signed : (after (.mulh 3 1 2) (withRegs bed [(1, 0xFFFFFFFFFFFFFFFF), (2, 2)])).map (readReg · 3) = some 0xFFFFFFFFFFFFFFFF := by
  decide +kernel
/-- R96's example: −2^63 by −1. -/
theorem test_div_rem_corner :
    (after (.div 3 1 2) (withRegs bed [(1, 0x8000000000000000), (2, 0xFFFFFFFFFFFFFFFF)])).map (readReg · 3) = some 0x8000000000000000 ∧
    (after (.rem 3 1 2) (withRegs bed [(1, 0x8000000000000000), (2, 0xFFFFFFFFFFFFFFFF)])).map (readReg · 3) = some 0 := by decide +kernel
theorem test_sar_ignores_high_amount_bits : (after (.sar 3 1 2) (withRegs bed [(1, 0x8000000000000000), (2, 0x7F)])).map (readReg · 3) =
    some 0xFFFFFFFFFFFFFFFF := by decide +kernel
theorem test_sel_reads_gd_first : (after (.sel 3 1 2) (withRegs bed [(1, 7), (2, 8), (3, 1)])).map (readReg · 3) = some 7 := by decide +kernel
/-- R97: pos 60, wid 8, and bits above 63 read as 0. -/
theorem test_bfx_past_the_top : (after (.bfx 3 1 2) (withRegs bed [(1, 0xF000000000000000), (2, 0x83C)])).map (readReg · 3) = some 0xF := by
  decide +kernel
theorem test_bfi_past_the_top : (after (.bfi 3 1 2) (withRegs bed [(1, 0xFF), (2, 0x83C), (3, 5)])).map (readReg · 3) = some 0xF000000000000005 := by
  decide +kernel
theorem test_lih_keeps_low : (after (.lih 3 ⟨0xABCD, false⟩) (withRegs bed [(3, 7)])).map (readReg · 3) = some 0xABCD000000000007 := by decide +kernel
/-- 1.0 + 2^−24 rounds to even, and is inexact: NX is flag 4 of R43. -/
theorem test_fadd_ties_to_even : (after (.fadd 3 1 2 (some .rne)) (withRegs bed [(1, 0x3F800000), (2, 0x33800000)])).map
    (fun t => (readReg t 3, t.core.vstat)) = some (0x3F800000, 0x10) := by decide +kernel
theorem test_ld1s_extends : (after (.ld1s 3 1 ⟨1, false⟩) { withRegs bed [(1, 0x8000000000000000)] with
    core := { (withRegs bed [(1, 0x8000000000000000)]).core with spad := [(1, 0x80)] } }).map (readReg · 3) = some 0xFFFFFFFFFFFFFF80 := by decide +kernel

theorem witness_DivideResults : readReg (withRegs bed [(1, 9), (2, 5)]) 2 ≠ 0 ∧ readReg bed 2 = 0 := by decide +kernel
theorem witness_IntegerFrame :
    (curStream bed).step = .off ∧ tabSorted (curStream (withRegs bed [(1, 9), (2, 5)])).regs = true ∧ readReg (withRegs bed [(1, 9), (2, 5)]) 2 ≠ 0 := by
  decide +kernel

/-- The first step after a NOP is placed, with every hypothesis of `StepRunsDecoded`. -/
theorem witness_StepRunsDecoded :
    let s := State.reset.withFetchWord 32 0
    let d := { s with pin := none, hostHeld := s.hostHeld.erase (.stream 0 .c) }
    let b := { focusOn d 0 with cur := .c, words := [], held := false }
    nextIs s d (.stream 0 .c) ∧ ((curStream b).state = .run ∧ coreRuns b b.focus = true ∧ (curStream b).fault = none ∧
    firstPend b.core = none ∧ timerDue b b.focus = false ∧ 0 < purseFunds (purseAt b 0 b.focus (curCtx b).vd)) ∧
    (∃ f t, standsAt b f .nop ∧ exec .nop f = .next t) ∧
    (∃ t, encode .governorRecoveryStep = [] ∧ exec .governorRecoveryStep State.reset = .next t) := by
  refine ⟨.inl ⟨by decide +kernel, rfl⟩, by decide +kernel, ?_, _, rfl, rfl⟩
  exact ⟨_, _, ⟨by decide +kernel, by decide +kernel, _, _, _, rfl, by decide +kernel, rfl, .inl ⟨rfl, .inl rfl, rfl, rfl⟩⟩, rfl⟩
/-- The turn of an event that the schedule has drawn. -/
theorem witness_StepRunsDecoded_event :
    let e := { State.reset with turn := .event .governorRecoveryStep }
    nextIs e e (.event .governorRecoveryStep) := .inr ⟨rfl, rfl, by decide +kernel, fun _ _ _ h => absurd h List.not_mem_nil, rfl⟩

/-- A C stream with loops and return addresses. -/
def looping (loops : List LoopEntry) (rets : List Word) : State := setCur bed { curStream bed with pc := 8, loops := loops, rets := rets }

theorem witness_FlowResults :
    (curStream bed).rets.length ≠ 8 ∧ (curStream (looping [] [4, 12])).rets = [4] ++ [12] ∧ (curStream bed).loops.length ≠ 8 ∧
    (curStream bed).loops = [] ∧ (curStream bed).rets = [] ∧ curJob bed = some loneJob ∧
    (curStream (looping [] (List.replicate 8 4))).rets.length = 8 ∧ (curStream (looping (List.replicate 8 ⟨0, 64, 1⟩) [])).loops.length = 8 ∧
    (curStream (looping [⟨0, 16, 1⟩] [])).loops = [] ++ [⟨0, 16, 1⟩] ∧
    (⟨0, 16, 1⟩ : LoopEntry).stop.toNat < ((8 : Word) + 4 + BitVec.ofNat 64 (4 * 2)).toNat ∧
    (8 + 4 + BitVec.ofNat 64 (4 * 1) : Word).toNat ≤ (⟨0, 16, 1⟩ : LoopEntry).stop.toNat := by decide +kernel

/-- R91: at the end of a body with two loops that end there, the exhausted inner one leaves and the outer one counts. -/
theorem witness_BackEdges :
    let t := curStream (looping [⟨0, 12, 3⟩, ⟨4, 12, 1⟩] [])
    let ends (e : LoopEntry) : Prop := t.pc.toNat < e.stop.toNat ∧ e.stop.toNat ≤ t.pc.toNat + 4
    t.loops = [] ++ ⟨0, 12, 3⟩ :: [⟨4, 12, 1⟩] ∧ ends ⟨4, 12, 1⟩ ∧ ends ⟨0, 12, 3⟩ ∧ (⟨0, 12, 3⟩ : LoopEntry).left ≠ 1 ∧
    ¬ (t.pc.toNat < (⟨0, 16, 3⟩ : LoopEntry).stop.toNat ∧ (⟨0, 16, 3⟩ : LoopEntry).stop.toNat ≤ t.pc.toNat + 4) := by decide +kernel
theorem test_back_edge_of_nested_loops : (after .nop { looping [⟨0, 12, 3⟩, ⟨4, 12, 1⟩] [] with words := [0] }).map
    (fun t => ((curStream t).pc, (curStream t).loops)) = some (0, [⟨0, 12, 2⟩]) := by decide +kernel

theorem witness_FloatResults :
    let s := withRegs bed [(1, 0x3F800000), (2, 0x40000000)]
    let r : Rounding := ⟨.rne, s.core.vctlLo.getLsbD 3, s.core.vctlSeed, 0, 0⟩
    let v := xAdd false (decodeFmt .f32 0x3F800000) (decodeFmt .f32 0x40000000)
    let fl := v.2 ||| (roundTo v.1 .f32 r).2
    (fl.getLsbD 7 && s.core.vctlLo.getLsbD 4) = false ∧ enabledTrap s.core.vctlLo fl = none ∧ fmtOfCode 6 = some .i32 ∧ fmtOfCode 14 = some .b1 := by
  decide +kernel

theorem witness_FloatComparisons :
    let nan (n : Nat) : Prop := n % 2 ^ 31 > 0x7F800000
    nan 0x7FC00000 ∧ ¬ nan 0x7F800000 ∧ ¬ nan 0xFF800000 ∧ bed.core.vctlLo.getLsbD 5 = false := by decide +kernel
/-- R107, at the ends of each class. -/
theorem test_fclass_ends : [0xFF800000, 0xFF7FFFFF, 0x80800000, 0x807FFFFF, 0x80000001, 0x80000000, 0, 1, 0x7FFFFF, 0x800000, 0x7F7FFFFF, 0x7F800000,
    0x7F800001].map (fun p => (after (.fclass 3 1) (withRegs bed [(1, p)])).map (readReg · 3)) =
    [1, 2, 2, 4, 4, 8, 16, 32, 32, 64, 64, 128, 256].map some := by decide +kernel

/-- 1/0 with DZE set: DZ is flag 1, and its enable is VCTL bit 6 (R43, R44). -/
def trapping : State := let s := withRegs bed [(1, 0x3F800000), (2, 0), (4, 8)]; { s with core := { s.core with vctlLo := 0x50 } }
theorem witness_FloatTraps :
    let s := trapping
    let r : Rounding := ⟨.rne, s.core.vctlLo.getLsbD 3, s.core.vctlSeed, 0, 0⟩
    let v := xDiv (decodeFmt .f32 0x3F800000) (decodeFmt .f32 0)
    let fl := v.2 ||| (roundTo v.1 .f32 r).2
    fl.getLsbD 1 = true ∧ s.core.vctlLo.getLsbD 6 = true ∧ (∀ k < 1, (fl.getLsbD k && s.core.vctlLo.getLsbD (5 + k)) = false) ∧
    (fl.getLsbD 7 && s.core.vctlLo.getLsbD 4) = false ∧ (readReg s 4).toNat % 16 = 8 ∧ s.core.vctlLo.getLsbD 4 = true := by decide +kernel

/-- An effective address for each clause of `ScalarAddressFaults`, at the edges of its range. -/
theorem witness_ScalarAddressFaults :
    let addr (n : Nat) := (readReg (withRegs bed [(1, BitVec.ofNat 64 n)]) 1 + BitVec.ofInt 64 0).toNat
    (addr (2 ^ 55) / 2 ^ 55 ≠ 0 ∧ addr (2 ^ 55) / 2 ^ 55 ≠ 0x100 ∧ addr (2 ^ 55) / 2 ^ 55 ≠ 0x101) ∧
    (addr 1 / 2 ^ 55 = 0 ∧ addr 1 % 2 ≠ 0) ∧
    (addr (0x100 * 2 ^ 55 + 524288) / 2 ^ 55 = 0x100 ∧ 524288 < addr (0x100 * 2 ^ 55 + 524288) % 2 ^ 55 + 1) ∧
    (addr (0x101 * 2 ^ 55 + 384 * 2 ^ 22) / 2 ^ 55 = 0x101 ∧ 384 ≤ addr (0x101 * 2 ^ 55 + 384 * 2 ^ 22) / 2 ^ 22 % 512) := by decide +kernel

/-- A package whose virtual device may use vault 0, and memory in its page at 0x100000, whose lines its L2 holds. -/
def memBed (r : Tab Word) : State :=
  { withRegs bed r with
    vds := [(0, { VDev.reset with rcd := 2 ^ 64 })]
    l2 := (upFrom 0xA00 512).map fun l => (l, some ⟨1, 0, 0⟩) }
def isOk {α : Type} (r : Res α) : Bool := match r with | .ok _ => true | .error _ => false

theorem witness_LoadResults :
    isOk (scalarLoad (memBed []) 0x100000 8) = true ∧ spadOk (memBed []) 524272 16 = true ∧ spadSound (memBed []) 524272 16 = true ∧
    vaultOk (memBed []) (2 ^ 22 - 16) 16 = true ∧ vaultSound (memBed []) (2 ^ 22 - 16) 16 = true ∧
    (0x100 * 2 ^ 55 + 524272) / 2 ^ 55 = 0x100 ∧ (0x101 * 2 ^ 55 + (2 ^ 22 - 16)) / 2 ^ 31 = 0x101 * 2 ^ 24 := by decide +kernel

/-- A leaf of class DEVICE whose frame is the first of the device window (R401, R402). -/
def devBed : State :=
  { memBed [] with
    mem := tabSetRange 0 (memBed []).mem 0x30080 (natLe 8 (0x3F + 0x800000000 * 65536 + 2 ^ 52))
    pot := tabSet ⟨0, 0⟩ (memBed []).pot 0x800000000 ⟨1, 1⟩ }
/-- A translated store in a page of a class, in memory, with the purses of each half of its stack, or in the register views. -/
def storesIn (s : State) (va n cls : Nat) (views : Bool) : Bool :=
  match translate s (curAccessor s) .write va with
  | .ok (.here l pa) => decide (pteClass l.entry = cls) && decide ((paTier pa).isNone = views) &&
      (if cls = 3 then views || (isOk (checkTag s pa n 1 va false) && isOk (storeErrors s pa n va) && funded s 2 0 0 && (upFrom 0 2).all fun h => funded s 3 h 0)
       else isOk (pageChecks s (curAccessor s) l pa va n false true))
  | _ => false
theorem witness_StoreEffects :
    tabSorted (memBed []).core.spad = true ∧ tabSorted (memBed []).vaults = true ∧ tabSorted (memBed []).mem = true ∧
    storesIn (memBed []) 0x100000 16 2 false = true ∧ storesIn devBed 0x100000 8 3 true = true := by decide +kernel
theorem test_store_then_load : ((after (.st4 2 1 ⟨4, false⟩) (memBed [(1, 0x100000), (2, 0x12345678)])).bind
    (after (.ld8 3 1 ⟨0, false⟩))).map (readReg · 3) = some 0x1234567800000000 := by decide +kernel

theorem witness_AtomicResults :
    (match memAtomic (memBed []) (curAccessor (memBed [])) 0x100000 8 with
      | .ok (t, _, old) => decide (tabSorted t.mem = true ∧ old < 2 ^ 64)
      | .error _ => false) = true := by decide +kernel
theorem test_amo_min_signed : (after (.amo4 .min 3 1 2) (memBed [(1, 0x100000), (2, 0xFFFFFFFF)])).map
    (fun t => (readReg t 3, physBytes t 0x50000 4)) = some (0, [0xFF, 0xFF, 0xFF, 0xFF]) := by decide +kernel
theorem test_acas_fails_without_a_store : (after (.acas4 3 1 2) (memBed [(1, 0x100000), (2, 9), (3, 1)])).map
    (fun t => (readReg t 3, physBytes t 0x50000 4)) = some (0, [0, 0, 0, 0]) := by decide +kernel

/-- A leaf of class DEVICE in memory. -/
theorem witness_StoreEffects_device :
    storesIn { memBed [] with mem := tabSetRange 0 (memBed []).mem 0x30080 (natLe 8 (0x3F + 5 * 65536 + 2 ^ 52)) } 0x100000 4 3 false = true := by
  decide +kernel

/-! ### Semaphores, descriptors and rings -/

/-- Semaphore 3 at 1, and a TSEAL and an engine instruction in the data engine's queue. -/
def semBed (st : StreamName) : State :=
  let s := inStream bed st
  { s with core := { s.core with sems := [(3, 1)], pbs := [(2, 5)], issued := 4,
                                 qdata := [{ (default : QEntry) with instr := .dfill 1 2 plainSy, stream := .d, seq := 3 }] } }

theorem witness_SemaphoreResults :
    let ahead (x y : BitVec 32) : Prop := (x - y).toNat < 2 ^ 31
    bed.cur = .c ∧ ahead (tabGet 0 (semBed .d).core.sems 3) 1 ∧ ¬ ahead (tabGet 0 (semBed .d).core.sems 3) 2 ∧
    ahead (tabGet 0 (semBed .d).core.sems 3) (tabGet 0 (curStream (semBed .d)).draws 3 + 1) ∧
    (tabGet 0 (semBed .d).core.pbs 2).toNat ≤ (readReg bed 0).toNat + 5 ∧
    (∀ e ∈ bed.core.qdata ++ bed.core.qvec ++ bed.core.qmat ++ bed.core.qgrp, Machine.syncOf e.instr = none) := by decide +kernel
theorem test_take_draws : (after (.semwaitTake 3) (semBed .d)).map (fun t => tabGet 0 (curStream t).draws 3) = some 1 := by decide +kernel

theorem witness_SemaphoreWaits :
    2 ^ 31 ≤ (tabGet 0 (semBed .v).core.sems 3 - 2).toNat ∧ 2 ^ 31 ≤ (tabGet 0 (semBed .v).core.sems 4 - (tabGet 0 (curStream (semBed .v)).draws 4 + 1)).toNat ∧
    (readReg (semBed .v) 1).toNat + 4 < (tabGet 0 (semBed .v).core.pbs 2).toNat ∧
    (∃ e ∈ (semBed .c).core.qdata, Machine.syncOf e.instr ≠ none ∧ e.seq < (semBed .c).core.issued) := by decide +kernel
theorem test_fence_eng_waits : (after (.fence .eng .core) (semBed .c)).map (fun t => ((curStream t).state, (curStream t).pc)) = some (.wait, 0) := by
  decide +kernel

theorem witness_UpdatesAreQueued :
    (semBed .v).cur ≠ .c ∧ (queueOf (semBed .v).core .vector).length < 16 ∧
    16 ≤ (queueOf { (semBed .v).core with qvec := List.replicate 16 default } .vector).length := by decide +kernel

theorem witness_DescriptorResults :
    isOk (scalarLoad (memBed []) 0x100000 32) = true ∧ isOk (scalarStore (memBed []) 0x100000 (List.replicate 32 1)) = true := by decide +kernel
/-- R155: BASE advances by rows of S1, modulo 2^55, and no other field changes. -/
theorem test_dadv_rows : (after (.dadv true 1 2) { withRegs bed [(2, 0xFFFFFFFFFFFFFFFF)] with
      core := { (withRegs bed [(2, 0xFFFFFFFFFFFFFFFF)]).core with descs := [(1, region 0 16 4 4 2 32)] } }).map
    (fun t => tabGet 0 t.core.descs 1) = some (region 0 (2 ^ 55 - 16) 4 4 2 32) := by decide +kernel

/-- A RING descriptor of ring 2: 4 slots of 64 bytes (R145). -/
def ringDesc (w : Nat) : DescWord := BitVec.ofNat 256 (4 * 2 ^ 61 + 16 * 2 ^ 64 + 4 * 2 ^ 80 + 4 * 2 ^ 208 + 64 * 2 ^ 224 + 2 * 2 ^ 244 + (w - 1) * 2 ^ 247)
/-- SLOTS, FREE, FILL, WPEND and RPEND of a ring register (R157). -/
def ringWord (slots free fill wpend rpend : Nat) : BitVec 128 :=
  BitVec.ofNat 128 (slots + free * 2 ^ 16 + fill * 2 ^ 32 + wpend * 2 ^ 80 + rpend * 2 ^ 96)
def ringBed (r : BitVec 128) : State := { bed with core := { bed.core with descs := [(1, ringDesc 2)], rings := [(2, r)] } }
theorem witness_RingResults :
    checkDesc (descOf (ringDesc 2)) [4] (fun _ => true) = none ∧ (descOf (ringDesc 2)).nreg = 2 ∧
    (ringBed (ringWord 4 1 1 1 1)).cur = .c ∧ (4 : Nat) = 1 + 1 + 1 + 1 ∧
    (tabGet 0 (ringBed (ringWord 4 1 1 1 1)).core.rings 2).toNat / 2 ^ 80 % 65536 = 1 ∧
    (tabGet 0 (ringBed (ringWord 4 1 1 1 1)).core.rings 2).toNat / 2 ^ 96 % 65536 = 1 ∧ (tabGet 0 bed.core.rings 2).toNat / 2 ^ 80 % 65536 = 0 := by
  decide +kernel
theorem test_ring_err_on_too_many :
    (let s := ringBed (ringWord 4 1 1 1 1)
     (after (.rcommit 2 0 2) { s with ctxs := [(0, { loneContext true with tdel0 := BitVec.allOnes 64, tdel1 := BitVec.allOnes 64 })] }).map
       fun t => (t.core.c.record.cause, tabGet 0 t.core.rings 2)) = some (0x2B, ringWord 4 1 1 1 1 + BitVec.ofNat 128 (2 ^ 112)) := by decide +kernel
theorem witness_RingClaims :
    let c := (ringBed (ringWord 4 3 1 0 0)).core
    let u : OpUse := ⟨1, descOf (ringDesc 2), true⟩
    tabSorted c.rings = true ∧ (tabGet 0 c.rings u.d.nreg).toNat % 65536 ≠ 0 ∧ u.d.peek = false ∧
    u.d.claim ≤ (tabGet 0 c.rings u.d.nreg).toNat / 2 ^ 16 % 65536 ∧ 1 ≤ (tabGet 0 c.rings u.d.nreg).toNat / 2 ^ 32 % 65536 := by decide +kernel

/-! ### Issue -/

/-- The V stream, with F32 regions d1 to d3, an I32 region d4, a B1 region d5, an I32 region d6 and an F32 region d7 of one element. -/
def vecDescs : Tab DescWord :=
  [(1, region 0 0 4 4 1 0), (2, region 0 64 4 4 1 0), (3, region 0 128 4 4 1 0), (4, region 6 192 4 4 1 0), (5, region 14 256 4 0 1 0),
   (6, region 6 320 4 4 1 0), (7, region 0 384 1 4 1 0), (8, region 6 448 1 4 1 0), (9, region 14 512 4 0 1 0), (10, region 13 576 2 4 1 0),
   (11, region 0 640 1 4 1 0), (12, region 13 704 4 4 1 0), (13, region 6 768 1 4 1 0),
   (14, region 0 832 1 4 1 0)]
def engBed (st : StreamName) : State := let s := inStream bed st; { s with core := { s.core with descs := vecDescs } }
/-- The instruction enters its engine's queue. -/
def enters? (i : Instr) (s : State) (eng : EngineName) : Bool := (after i s).elim false fun t => (queueOf t.core eng).length = 1

theorem witness_VectorArithmeticIssues :
    let d := descAt (engBed .v) 1; let p := descAt (engBed .v) 2; let q := descAt (engBed .v) 3; let k := descAt (engBed .v) 4
    checkDesc d [1, 2, 4] notBit = none ∧ (checkDesc p [1, 2, 4] anyFmt = none ∧ pairsWith p d ∧ clearOf p d) ∧
    (checkDesc q [1, 2, 4] anyFmt = none ∧ pairsWith q d ∧ clearOf q d) ∧
    (checkDesc k [1, 2, 4] anyFmt = none ∧ pairsWith k d ∧ clearOf k d ∧ fmtInteger (descFmt k) = true ∧ k.sfmt = 0 ∧ d.sfmt = 0) ∧
    (p.sfmt = 0 ∧ descWidth p = descWidth d) ∧ (descRows p = descRows d ∧ intersects p d = false) ∧ descFmt (descAt (engBed .v) 5) = .b1 := by
  unfold pairsWith clearOf; decide +kernel
theorem test_vector_arithmetic_enters :
    (∀ i ∈ [Instr.vadd 1 2 3 none plainSy, .vsub 1 2 3 none plainSy, .vmul 1 2 3 none plainSy, .vdiv 1 2 3 none plainSy, .vmin 1 2 3 none plainSy,
      .vmax 1 2 3 none plainSy, .vfma 1 2 3 none plainSy, .vfms 1 2 3 none plainSy, .vabs 1 2 none plainSy, .vneg 1 2 none plainSy,
      .vcvt 1 2 none plainSy, .vexp2 1 2 none plainSy, .vlog2 1 2 none plainSy, .vrcp 1 2 none plainSy, .vrsq 1 2 none plainSy,
      .vsqrt 1 2 none plainSy, .vtanh 1 2 none plainSy, .vsig 1 2 none plainSy, .verf 1 2 none plainSy, .vsin 1 2 none plainSy,
      .vcos 1 2 none plainSy, .vand 1 2 3 plainSy, .vor 1 2 3 plainSy, .vxor 1 2 3 plainSy, .vnot 1 2 plainSy, .vmov 1 2 plainSy,
      .vshl 1 2 4 plainSy, .vshr 1 2 4 plainSy, .vsar 1 2 4 plainSy, .vcmp .lt 4 1 2 plainSy, .vsel 4 1 2 none plainSy,
      .vclamp 1 2 3 none plainSy, .vscale 1 2 4 none plainSy, .vbcast .hi64 1 2 none plainSy, .viota true 1 2 3 none plainSy,
      .vperm true 1 2 4 none plainSy], enters? i (engBed .v) .vector = true) := by decide +kernel

theorem witness_VectorSelectionIssues :
    let d := descAt (engBed .v) 7; let p := descAt (engBed .v) 2
    checkDesc d [1, 2, 4] notBit = none ∧ checkDesc p [1, 2, 4] anyFmt = none ∧ clearOf p d ∧ descN d = descRows p ∧
    checkDesc (descAt (engBed .v) 10) [1, 2, 4] (fun x => x = .n32) = none ∧ descN (descAt (engBed .v) 10) = 2 ^ 1 ∧
    keyFmt (descFmt p) = some .n32 ∧ rankWillBeOpen { bed.core with qvec := [{ (default : QEntry) with instr := .vranki true true 1 plainSy }] } = true := by
  unfold clearOf; decide +kernel
theorem test_vector_selection_enters :
    (∀ i ∈ [Instr.vred .max true 7 2 none plainSy, .vscan .sum true 1 2 none plainSy, .vdot true 7 2 3 none plainSy, .vdist .l1 true 7 2 3 none plainSy,
      .vdist .ham true 7 2 3 none plainSy, .vthrc true true 8 2 7 plainSy, .vcomp true false 7 2 9 none plainSy, .vexpd true 1 2 5 none plainSy,
      .vxform false false 12 2 plainSy, .vmaxi true 13 2 none plainSy, .vsort true false 1 2 none plainSy, .vsort true true 3 2 none plainSy],
      enters? i (engBed .v) .vector = true) ∧
    enters? (.vhist true true 10 2 1 plainSy) (withRegs (engBed .v) [(1, 0x100)]) .vector = true ∧
    enters? (.vranki true true 1 plainSy) (withRegs (engBed .v) [(1, 1024)]) .vector = true := by decide +kernel

/-- The X stream of a core that holds the array, with an FP8 A operand d15 and an FP8 B operand d16 of K 4, an F32 destination d1 and an I64 region d17. -/
def arrayBed : State :=
  let s := engBed .x
  { s with core := { s.core with lease := .held, descs := vecDescs ++
      [(15, region 3 1024 4 1 2 16), (16, region 3 2048 4 1 2 16), (17, region 15 4096 2 8 1 0),
       (18, BitVec.ofNat 256 (2 ^ 61 + 2 ^ 179))] } }
theorem witness_ArrayIssues :
    let d := descAt arrayBed 1; let p := descAt arrayBed 15; let q := descAt arrayBed 16
    (∃ j, curJob arrayBed = some j ∧ j.kern.array = true) ∧ arrayBed.core.lease ≠ .lapsed ∧ (engBed .x).core.lease = .none ∧
    checkDesc p [1, 4] passFmtA = none ∧ checkDesc q [1, 4] passFmtB = none ∧ groupSize (descFmt p) (descFmt q) ≠ none ∧ descCount q = descCount p ∧
    descRows p ≤ 128 ∧ 1 ≤ descRows q ∧ checkDesc d [1, 4] notBit = none ∧ descCount d ≤ 256 ∧ descRows d = 1 ∧
    (∀ k < 16, 0 / 4 ^ k % 4 ≤ 1) ∧ (∀ k < 16, 0xAAAAAAAA / 4 ^ k % 4 = 2) ∧ (∀ k < 16, 0xFFFFFFFF / 4 ^ k % 4 = 3) ∧
    1 ≤ (2 ^ 40 : Nat) / 2 ^ 32 % 512 ∧ (2 ^ 40 : Nat) / 2 ^ 32 % 512 ≤ 256 := by
  refine ⟨⟨loneJob, by decide +kernel, rfl⟩, ?_⟩; decide +kernel
theorem test_array_enters :
    (∀ i ∈ [Instr.xlease plainSy, .xfree true plainSy, .xcellop 1 plainSy, .xzero .neginf true plainSy, .xpass true 15 16 plainSy, .xside 1 1 plainSy,
      .xdrain true 1 none plainSy, .xbias true true 1 plainSy, .xbias false true 1 plainSy, .arel 18 plainSy, .ares 18 17 1 plainSy,
      .aqry .ver 1 2 plainSy, .apub 1 2 3 plainSy], enters? i arrayBed .matrix = true) ∧
    enters? (.xsideb 1 plainSy) (withRegs arrayBed [(1, 2 ^ 32)]) .matrix = true ∧
    (after (.xlease plainSy) (engBed .x)).map (fun t => (curStream t).state) = some .wait := by decide +kernel
theorem witness_AdapterIssues :
    let m := descAt arrayBed 18; let p := descAt arrayBed 17
    m.amv = true ∧ checkDesc m [1] anyFmt = none ∧ checkDesc p [1] anyFmt = none ∧ descFmt p = .i64 ∧ p.sfmt = 0 ∧ 1 ≤ descN p ∧ descN p ≤ 16 := by
  decide +kernel

/-- The D stream with TENSORs d19 (F32) and d20 (F32), an I32 index d4 and a B1 mask d2, d5. -/
def dataBed : State :=
  let s := engBed .d
  { s with core := { s.core with descs := vecDescs ++ [(19, region 0 (2 ^ 62 + 0x100000) 4 4 1 0), (21, region 0 1024 1 4 4 4),
      (22, region 14 1280 4 0 1 0), (23, region 0 1536 1 4 4 4), (24, region 14 1792 4 0 1 0)] } }
theorem witness_DataEngineIssues :
    let d := descAt dataBed 21; let p := descAt dataBed 23; let q := descAt dataBed 4; let m := descAt dataBed 22
    checkDesc d [1, 2, 3, 4] anyFmt = none ∧ checkDesc p [1, 2, 3] anyFmt = none ∧ checkDesc q [1, 2, 3] indexFmt = none ∧
    checkDesc m [1] bitFmt = none ∧ descCount d = descCount p ∧ descRows d = descN q ∧ descRows d ≤ descN m ∧ descN d ≤ descN m ∧ descN d = descN p ∧
    overlaps p d = false ∧ overlaps q d = false ∧ checkDesc d [1, 2, 3] scataFmt = none ∧ d.sfmt = 0 ∧
    checkDesc (descAt dataBed 19) [3] anyFmt = none ∧ descFmt d ≠ .b1 := by decide +kernel
theorem test_data_enters :
    (∀ i ∈ [Instr.dcopy .none 21 23 none plainSy, .dcopy .elems 21 23 none plainSy, .dgather .rows true 21 23 4 none plainSy,
      .dscatter .elems false 21 23 4 none plainSy, .dscata .none true 21 23 4 none plainSy, .dfill 21 1 plainSy, .dpref 19 plainSy,
      .dflush 19 plainSy, .dinv 19 plainSy, .dpreq .elems 19 22 plainSy, .dpreq .none 19 0 plainSy], enters? i dataBed .data = true) := by decide +kernel

/-- The same with REMOTE descriptors d25 (F32), d26 (I64, one element) and d27 (I32) towards peer 7, flow 1 OPEN under PLAIN with PBE, flow 2 OPEN under
ROWS, and the peer paired. -/
def linkBed : State :=
  let s := dataBed
  let remote (fmt n e : Nat) : DescWord := BitVec.ofNat 256 (5 * 2 ^ 61 + fmt * 2 ^ 55 + 0x1000 + n * 2 ^ 64 + e * 2 ^ 80 + 2 ^ 112 + 7 * 2 ^ 180)
  { s with
    pairings := [(0, 7, 9)]
    core := { s.core with
      descs := s.core.descs ++ [(25, remote 0 4 4), (26, remote 15 1 8), (27, remote 6 4 4), (28, region 6 2048 4 4 1 0), (29, region 6 2304 4 4 1 0),
        (30, region 6 2560 1 4 1 0)]
      flows := [(1, { Flow.idle with fcfg := 7 + 2 ^ 18, fsts := 1 }), (2, { Flow.idle with fcfg := 7 + 2 ^ 13 + 2 ^ 24, fsts := 1 })] } }
theorem witness_LinkIssues :
    let s := linkBed
    curJob s = some loneJob ∧ loneJob.kern.fabric = true ∧ (flowAt s.core 1).fcfg.getLsbD 18 = true ∧
    pbAt s.core (flowPbk (flowAt s.core 1)) + 4 * 4 < 2 ^ 40 ∧
    (checkDesc (descAt s 25) [5] anyFmt = none ∧ flowState (flowAt s.core 1) = 1 ∧ (descAt s 25).amap = flowPeer (flowAt s.core 1)) ∧
    ((descAt s 25).sfmt = 0 ∧ fmtPacked (descFmt (descAt s 25)) = false) ∧ checkDesc (descAt s 1) [1, 2, 3] anyFmt = none ∧
    flowKind (flowAt s.core 1) = 0 ∧ descN (descAt s 25) = descN (descAt s 1) ∧ (descAt s 25).fmt = (descAt s 1).fmt ∧
    flowKind (flowAt s.core 2) = 1 ∧ descRows (descAt s 1) = descN (descAt s 30) ∧ descCount (descAt s 1) * elemBytes (descFmt (descAt s 1)) ≤ 15360 ∧
    (descAt s 25).base % 64 = 0 ∧ overlaps (descAt s 29) (descAt s 28) = false ∧ (descAt s 27).fmt = (descAt s 28).fmt ∧
    descFmt (descAt s 26) = .i64 ∧ descN (descAt s 26) = 1 ∧ (descAt s 26).base % 8 = 0 ∧ fcfgOk s 7 = true := by decide +kernel
theorem test_link_enters :
    (∀ i ∈ [Instr.dput 1 25 1 0 plainSy, .dput 2 25 1 30 plainSy, .dget 1 1 25 plainSy, .dfadd 1 28 27 29 plainSy, .dfcas 1 28 27 29 plainSy,
      .dfencef 1 26 2 plainSy, .dflowClose 1 1 2 plainSy, .dflowReset 1 1 2 plainSy, .dflowStat 1 1 2 plainSy], enters? i linkBed .data = true) ∧
    enters? (.dflowOpen 1 1 2 plainSy) (withRegs linkBed [(2, 7)]) .data = true ∧
    (after (.dput 1 25 1 0 plainSy) linkBed).map (fun t => tabGet 0 t.core.pbs 0) = some 16 := by decide +kernel

/-- The D stream with slot 1 JOINED at rank 0 of two. -/
def groupBed : State :=
  let s := dataBed
  { s with core := { s.core with groups := [(1, { GroupSlot.free with state := 2, key := 5, size := 2, rank := 0, stageB := 4096 })],
                                 descs := s.core.descs ++ [(31, region 0 4096 8 4 1 0)] } }
theorem witness_GroupIssues :
    let s := groupBed
    let g := groupAt s.core 1
    g.state = 2 ∧ checkDesc (descAt s 1) [1, 2, 3] notBit = none ∧ checkDesc (descAt s 2) [1, 2, 3] notBit = none ∧ descN (descAt s 1) = descN (descAt s 2) ∧
    descN (descAt s 2) * 8 ≤ g.stageB ∧ overlaps (descAt s 2) (descAt s 1) = false ∧ (readReg s 1).toNat % 65536 < g.size ∧
    g.rank = (readReg s 1).toNat % 65536 ∧ s.core.qgrp = [] ∧ (groupAt s.core 0).state ≠ 2 ∧ g.rank ≠ 1 ∧ descN (descAt s 31) = g.size * descN (descAt s 2) := by decide +kernel
theorem test_group_enters :
    (∀ i ∈ [Instr.gsync 1 plainSy, .gred .sum 1 1 2 none plainSy, .gbcast 1 1 2 1 plainSy, .ggath 1 31 2 plainSy, .gsync 0 plainSy],
      enters? i groupBed .group = true) ∧
    (after (.gsync 1 plainSy) groupBed).map (fun t => (groupAt t.core 1).seq) = some 1 := by decide +kernel

/-- A producer on ring 2, whose register has no free slot. -/
def ringVec : State :=
  let s := engBed .v
  { s with core := { s.core with
      rings := [(2, ringWord 4 0 4 0 0)]
      sems := [(1, 1)]
      descs := [(1, BitVec.ofNat 256 (4 * 2 ^ 61 + 16 * 2 ^ 64 + 4 * 2 ^ 80 + 4 * 2 ^ 208 + 64 * 2 ^ 224 + 2 * 2 ^ 244)), (2, region 0 65536 16 4 1 0),
        (3, region 0 131072 16 4 1 0)] } }
theorem witness_IssueStops :
    let s := ringVec
    let hold (k n : Nat) : Prop := (tabGet 0 s.core.sems k - (tabGet 0 (curStream s).draws k + BitVec.ofNat 32 ([n].count k))).toNat < 2 ^ 31
    let d := descAt s 1; let p := descAt s 2; let q := descAt s 3
    let us : List OpUse := [⟨1, d, true⟩, ⟨2, p, false⟩, ⟨3, q, false⟩]
    hold 1 1 ∧ ¬ hold 4 4 ∧ (curJob s = some loneJob ∧ loneJob.kern.fabric = true) ∧
    (∀ ok ∈ [notBit, anyFmt, scataFmt, passFmtA, fmtInteger], ∀ ts ∈ [[1, 2, 4], [1, 2, 3, 4], [1, 2, 3], [3], [5], [1, 4], [1]],
      checkDesc (descAt s 9) ts ok = some .descInvalid) ∧ ((descAt s 9).type = 4 → bitAt (descAt s 9).base 54 = false) ∧
    (checkDesc (descOf (region 0 0 4 4 1 0)) [1, 2, 4] notBit = none ∧
      checkDesc (descOf (region 6 0 4 4 1 0)) [1, 2, 4] fmtInteger = none ∧ checkDesc (descOf (region 14 0 4 0 1 0)) [1, 2, 4] (fun x => x = .b1 || fmtInteger x) = none ∧
      checkDesc (descOf (region 13 0 2 4 1 0)) [1, 2, 4] (fun x => x = .n32) = none) ∧
    (let a := descOf (BitVec.ofNat 256 (3 * 2 ^ 61 + 2 ^ 179)); a.amv = true ∧ (checkDesc a [1] anyFmt).isSome = true) ∧
    16 ≤ (queueOf { s.core with qvec := List.replicate 16 default } .vector).length ∧
    checkDesc d [1, 2, 4] notBit = none ∧ (checkDesc p [1, 2, 4] anyFmt = none ∧ pairsWith p d ∧ clearOf p d) ∧
    (checkDesc q [1, 2, 4] anyFmt = none ∧ pairsWith q d ∧ clearOf q d) ∧ (∀ u ∈ us, u.d.type = 4 → ringUseBad s.core us u = false) ∧
    s.core.qvec.length < 16 ∧ ringShort s.core ⟨1, d, true⟩ = true := by
  unfold pairsWith clearOf; decide +kernel


/-! ### Elements, completion and queued updates -/

def okB {α : Type} (r : Res α) (p : α → Bool) : Bool := match r with | .ok a => p a | .error _ => false
/-- The V stream behind the issue of an instruction. -/
def issued (i : Instr) (s : State) : State := (after i s).getD bed
def headOf (s : State) (eng : EngineName) : QEntry := (queueOf s.core eng).headD default

/-- The raw bits and the value of an element of an unscaled operand of the scratchpad, which can be read. -/
def rawOf (s : State) (x : Desc) (k : Nat) : Nat :=
  leNat (spadBytes s (elemAt x k).1.toNat (elemBytes (descFmt x))) / 2 ^ (elemAt x k).2 % 2 ^ descWidth x
def valOf (s : State) (x : Desc) (k : Nat) : XR := decodeFmt (descFmt x) (rawOf s x k)
def isRead (s : State) (w : DescWord) (k : Nat) : Bool :=
  let x := descOf w
  let a := (elemAt x k).1
  decide (x.type = 1 ∧ 0 ≤ a) && spadOk s a.toNat (elemBytes (descFmt x)) && spadSound s a.toNat (elemBytes (descFmt x)) && (descScale x).isNone &&
    !i4Reserved (descFmt x) (rawOf s x k)
/-- An element of an unscaled destination of the scratchpad can be written. -/
def isPut (s : State) (w : DescWord) (k : Nat) : Bool :=
  let x := descOf w
  let a := (elemAt x k).1
  decide (x.type = 1 ∧ 0 ≤ a) && spadOk s a.toNat (elemBytes (descFmt x)) && (descScale x).isNone

theorem read_of {s : State} {w : DescWord} {k : Nat} (h : isRead s w k = true) :
    valueIs s (descOf w) k (valOf s (descOf w) k) ∧ bitsAre s (descOf w) k (rawOf s (descOf w) k) ∧ descScale (descOf w) = none := by
  simp only [isRead, Bool.and_eq_true, decide_eq_true_eq, Bool.not_eq_true', Option.isNone_iff_eq_none] at h
  obtain ⟨⟨⟨⟨⟨ht, ha⟩, ho⟩, hs⟩, hn⟩, hi⟩ := h
  have hb : bitsAre s (descOf w) k (rawOf s (descOf w) k) := ⟨ht, _, ⟨ha, ho, hs, rfl⟩, rfl⟩
  exact ⟨⟨_, hb, hi, fun _ => rfl, fun sf h => by simp [hn] at h⟩, hb, hn⟩
theorem put_of {s : State} {w : DescWord} {k : Nat} (h : isPut s w k = true) : canHold s (descOf w) k ∧ descScale (descOf w) = none := by
  simp only [isPut, Bool.and_eq_true, decide_eq_true_eq, Option.isNone_iff_eq_none] at h
  exact ⟨⟨h.1.1.1, h.1.1.2, h.1.2⟩, h.2⟩

/-- An entry at the head of its engine's queue. -/
def entryFor (i : Instr) (ds : List DescWord) (n : Nat) : QEntry := { (default : QEntry) with instr := i, stream := .v, count := n, descs := ds }
/-- Operands of four elements of 4 bytes at an address, in F32 or I32, and a scaled FP8 destination of one block whose scales stand at 1024. -/
def f32At (a : Nat) : DescWord := region 0 a 4 4 1 0
def i32At (a : Nat) : DescWord := region 6 a 4 4 1 0
def scaledAt (a : Nat) : DescWord := BitVec.ofNat 256 ((region 3 a 16 1 1 0).toNat + 2 ^ 176 + 1024 * 2 ^ 208)

theorem witness_VectorElements :
    (let e := entryFor (.vadd 1 2 3 none plainSy) [f32At 0, f32At 64, f32At 128, f32At 192] 4
     e.progress < elemLimit e (descOf (f32At 0)) ∧ isPut bed (f32At 0) 0 = true ∧ ([f32At 64, f32At 128, f32At 192].all fun w => isRead bed w 0) = true ∧
     pairsWith (descOf (f32At 64)) (descOf (f32At 0)) ∧ isRead bed (region 14 256 4 0 1 0) 0 = true) ∧
    (let d := descOf (scaledAt 0)
     let e := entryFor (.vadd 1 2 3 none plainSy) [scaledAt 0, region 0 64 16 4 1 0, region 0 128 16 4 1 0] 16
     descScale d = some .e8m0 ∧ d.type = 1 ∧ e.progress = (blockOf d e.progress).1 ∧ (blockOf d 0).2 = 16 ∧ elemLimit e d = 16 ∧ d.sbase = 1024 ∧
     spadOk bed 1024 1 = true ∧ (∀ k ∈ upFrom 0 16, d.type = 1 ∧ 0 ≤ (elemAt d k).1 ∧ spadOk bed (elemAt d k).1.toNat 1 = true) ∧
     (∀ k ∈ upFrom 0 16, isRead bed (region 0 64 16 4 1 0) k = true ∧ isRead bed (region 0 128 16 4 1 0) k = true)) := by
  unfold pairsWith; decide +kernel
theorem witness_VectorBitElements :
    (let e := entryFor (.vshl 1 2 3 plainSy) [f32At 0, f32At 64, i32At 128] 4
     e.progress < elemLimit e (descOf (f32At 0)) ∧ isPut bed (f32At 0) 0 = true ∧ isRead bed (f32At 64) 0 = true ∧ isRead bed (i32At 128) 0 = true ∧
     pairsWith (descOf (i32At 128)) (descOf (f32At 0))) ∧
    (let s : State := { bed with core := { bed.core with spad := tabSetRange 0 [] 128 (natLe 4 3 ++ natLe 4 4 ++ natLe 4 0xFFFFFFFF ++ natLe 4 32) } }
     let n (k : Nat) := indexVal (valOf s (descOf (i32At 128)) k, 0)
     (0 ≤ n 0 ∧ n 0 < descCount (descOf (f32At 64)) ∧ n 0 < 32) ∧ (n 2 < 0 ∧ ¬ n 1 < descCount (descOf (f32At 64)) ∧ ¬ n 3 < 32) ∧
     descRows (descOf (f32At 64)) = 1) := by
  unfold pairsWith; decide +kernel
/-- The sum of −1.0 and 3.0 stands in the first element, and the entry goes on with the second. -/
theorem test_vadd_element :
    let s := issued (.vadd 1 2 3 none plainSy) (engBed .v)
    let s := { s with core := { s.core with spad := tabSetRange 0 (tabSetRange 0 [] 64 (natLe 4 0xBF800000)) 128 (natLe 4 0x40400000) } }
    okB (runUnit s (headOf s .vector)) (fun u => leNat (spadBytes u.s 0 4) = 0x40000000 && u.e.progress = 1 && !u.done) = true := by decide +kernel

theorem witness_ReductionResults :
    let one := region 0 0 1 4 1 0
    let e := entryFor (.vdot false 1 2 3 none plainSy) [one, f32At 64, f32At 128] 1
    e.progress < e.count ∧ descCount (descOf (f32At 64)) = 4 ∧ isPut bed one 0 = true ∧ ((upFrom 0 4).all fun c => isRead bed (f32At 64) c && isRead bed (f32At 128) c) = true ∧
    0 < elemLimit { e with descs := [f32At 0, f32At 64], count := 4 } (descOf (f32At 0)) / 4 * 4 ∧ isPut bed (f32At 0) 0 = true ∧
    ((fun b => ({ e with progress := 1, part := .acc b } : QEntry).part = .acc b) xZero) ∧ isPut bed (region 0 128 1 4 1 0) 0 = true := by decide +kernel
theorem witness_SelectionResults :
    let rank : RankUnit := ⟨true, true, false, 2, 0, []⟩
    let s : State := { bed with core := { bed.core with rank := rank } }
    ((upFrom 0 4).all fun c => isRead bed (f32At 64) c && isPut bed (f32At 0) c && isPut bed (i32At 192) c) = true ∧
    (isRead bed (region 14 256 4 0 1 0) 0 = true ∧ pairsWith (descOf (region 14 256 4 0 1 0)) (descOf (f32At 64)) ∧ isPut bed (region 6 320 1 4 1 0) 0 = true) ∧
    (tabWf 0 ([] : Tab Nat) = true ∧ ((upFrom 0 4).all fun c => isRead bed (region 10 64 4 1 1 0) c && isPut bed (i32At 0) c) = true ∧ bitField 0x200 8 4 = 2) ∧
    keyFmt (descFmt (descOf (f32At 64))) = some (descFmt (descOf (region 13 0 4 4 1 0))) ∧ 0 < elemLimit (entryFor .nop [] 4) (descOf (f32At 0)) ∧
    s.core.rank.pairs = [] ++ [] ∧
    (∀ n a b, XR.fin n a b ∈ [valOf bed (descOf (f32At 64)) 0, XR.nan] → b ≠ 0) := by
  unfold pairsWith
  refine ⟨?_, ?_, ?_, ?_, ?_, rfl, ?_⟩
  all_goals first | decide +kernel | skip
  intro n a b h
  have hz : valOf bed (descOf (f32At 64)) 0 = .fin false 0 1 := by decide +kernel
  rw [hz] at h
  simp at h
  omega

/-- The same with a give, and a stream that waits for its result. -/
theorem witness_CompletionGives :
    let s := issued (.vadd 1 2 3 none { plainSy with give := some 4 }) (engBed .v)
    let e := headOf s .vector
    let p : Pending := ⟨.result e.seq, 0, 30, 0, none⟩
    (Machine.syncOf e.instr).bind (·.give) = some 4 ∧ (curStream s).pending = none ∧ p.on = .result e.seq ∧
    (curStream (setCur s { curStream s with pending := some p })).pending = some p ∧
    (Machine.syncOf (.vadd 1 2 3 none plainSy)).bind (·.give) = none := by decide +kernel
theorem test_give_once :
    (fun (s : State) => let t := completeEntry s .vector (headOf s .vector); (tabGet 0 t.core.sems 4, t.core.qvec.length))
      (issued (.vadd 1 2 3 none { plainSy with give := some 4 }) (engBed .v)) = (1, 0) := by decide +kernel

/-- A tile of 32 elements of 4 bytes in the page at 0x100000, in entry 3 under its first generation. -/
def tileOf (st : TileState) (readers : List Holder) (writer : Option Holder) : Tile :=
  { base := 0x100000, elem := 4, exts := [32, 1, 1, 1], strides := [4, 0, 0, 0], state := st, readers := readers, writer := writer }
def tileBed (t : Tile) : State :=
  let s := memBed [(1, 4099), (2, 0x20), (4, 4099 + 4100 * 2 ^ 32)]
  { s with ctxs := [(0, { loneContext false with tiles := [(3, some t)], gens := [(3, 1)] })] }
def mine : Holder := ⟨0, 0⟩
def other : Holder := ⟨0, 1⟩

/-- An entry of an update at the head of the D stream's queue, and behind another entry. -/
def updating (s : State) (i : Instr) (v : Word) (behind : Bool) : State :=
  let e : QEntry := { (default : QEntry) with instr := i, stream := .d, seq := 7, hvals := [v] }
  { s with core := { s.core with qdata := if behind then [{ e with seq := 6 }, e] else [e] } }
theorem witness_QueuedUpdatesPerform :
    let alone (s : State) : Prop := (∀ x, (queueOf s.core .data).head? = some x → x.seq = 7) ∧ ∀ x ∈ s.core.qgrp, x.stream = .d → 7 < x.seq
    alone (updating bed (.semadd 3 1 0) 1 false) ∧ ¬ alone (updating bed (.semadd 3 1 0) 1 true) ∧
    isOk (passSlots (updating (ringBed (ringWord 4 1 1 1 1)) (.rcommit 2 0 1) 1 false).core 2 1 true) = true ∧
    isOk (passSlots (updating (ringBed (ringWord 4 1 1 1 1)) (.rrelease 2 0 1) 1 false).core 2 1 false) = true ∧
    isOk (releaseTile (updating (tileBed (tileOf .write [] (some mine))) (.trel 1) 4099 false) ((4099 : Word).toNat % 2 ^ 32)) = true ∧
    isOk (sealHeld (updating (tileBed (tileOf .write [] (some mine))) (.tseal 1) 4099 false) ((4099 : Word).toNat % 2 ^ 32)) = true := by
  refine ⟨⟨?_, by decide +kernel⟩, ?_, by decide +kernel⟩
  · intro x h; cases h; rfl
  · intro h; exact absurd (h.1 _ rfl) (by decide +kernel)

/-! ### Tiles -/

theorem witness_TileResults :
    let x := descAt dataBed 19
    (checkDesc x [3] (fun _ => true) = none ∧ fmtPacked (descFmt x) = false ∧ descCount x ≠ 0 ∧ x.sfmt = 0 ∧ x.amv = false ∧
      0 ≤ (boxBounds x.base (elemBytes (descFmt x)) x.exts x.strides).1 ∧ (boxBounds x.base (elemBytes (descFmt x)) x.exts x.strides).2 ≤ 2 ^ 55) ∧
    (let c := ctxAt dataBed dataBed.core.ctx
     let free (j : Nat) : Prop := tabGet none c.tiles j = none ∧ tabGet 0 c.gens j ≠ 0xFFFFF
     free 0 ∧ (∀ j < 0, ¬ free j)) ∧
    (let c : Context := { Context.reset with tiles := [(0, some (tileOf .none [] none))], gens := [(0, 1), (1, 0xFFFFF)] }
     let free (j : Nat) : Prop := tabGet none c.tiles j = none ∧ tabGet 0 c.gens j ≠ 0xFFFFF
     free 2 ∧ (∀ j < 2, ¬ free j)) ∧
    (∀ t ∈ [tileOf .none [] none, tileOf .write [] (some mine), tileOf .sealed [] none],
      handleNames (tileBed t) ((readReg (tileBed t) 1).toNat % 2 ^ 32) 3 t ∧ t.state ≠ .read ∧ (t.state = .write → t.writer = some mine) ∧
        (t.state = .sealed → t.readers = [])) ∧
    (5 / 4096 % 2 ^ 20 = 0 ∧ tabGet none (ctxAt bed bed.core.ctx).tiles (4099 % 4096) = none ∧
      tabGet 0 (ctxAt (tileBed (tileOf .none [] none)) 0).gens (8195 % 4096) ≠ 8195 / 4096 % 2 ^ 20) := by
  unfold handleNames; decide +kernel
theorem test_tdef_handle : (after (.tdef 5 19) { dataBed with cur := .c }).map (readReg · 5) = some 4096 := by decide +kernel
theorem test_tqry_state : (after (.tqry .state 5 1) (tileBed (tileOf .read [mine, other] none))).map (readReg · 5) =
    some (BitVec.ofNat 64 (2 ^ 63 + 1 + 4 + 2 * 2 ^ 8)) := by decide +kernel

theorem witness_TenureResults :
    let free := tileBed (tileOf .none [] none); let taken := tileBed (tileOf .write [] (some other))
    okB (acquireChecks free 4099 true) (fun r => grantable (ctxAt r.1 0) r.2.1 r.2.2 mine true (ctxAt r.1 0).requests) = true ∧
    okB (acquireChecks free 4099 false) (fun r => grantable (ctxAt r.1 0) r.2.1 r.2.2 mine false (ctxAt r.1 0).requests) = true ∧
    okB (acquireChecks taken 4099 true) (fun r => !grantable (ctxAt r.1 0) r.2.1 r.2.2 mine true (ctxAt r.1 0).requests) = true ∧
    (∀ t ∈ [tileOf .write [] (some mine), tileOf .read [mine, other] none, tileOf .sealed [mine] none, tileOf .read [other] none],
      (tileBed t).cur = .c ∧ handleNames (tileBed t) ((readReg (tileBed t) 1).toNat % 2 ^ 32) 3 t) ∧
    sealReady (tileBed (tileOf .write [] (some mine))) 4099 0 = true ∧
    (mine ∈ (tileOf .read [mine, other] none).readers ∧ mine ∈ (tileOf .sealed [mine] none).readers ∧ mine ∉ (tileOf .read [other] none).readers ∧
      (tileOf .read [other] none).writer ≠ some mine) := by
  unfold handleNames; decide +kernel
theorem test_tacq_waits : (after (.tacqW 1) (tileBed (tileOf .read [other] none))).map
    (fun t => ((curStream t).state, (ctxAt t 0).requests.map (·.write))) = some (.wait, [true]) := by decide +kernel
theorem test_trel_last_reader : (after (.trel 1) (tileBed (tileOf .read [mine] none))).map
    (fun t => (tabGet none (ctxAt t 0).tiles 3).map (·.state)) = some (some .none) := by decide +kernel

theorem witness_GrantsExclude :
    let c (u : Tile) : Context := { Context.reset with tiles := [(3, some (tileOf .none [] none)), (5, some u)] }
    (∀ u ∈ [tileOf .write [] (some mine), tileOf .read [mine] none, tileOf .sealed [] none],
      tabSorted (c u).tiles = true ∧ tabGet none (c u).tiles 3 = some (tileOf .none [] none) ∧
      grantable (c u) 3 (tileOf .none [] none) mine true [] = true ∧ (5, some u) ∈ (c u).tiles ∧ tilesOverlap (tileOf .none [] none) u = true) ∧
    grantable (c (tileOf .read [other] none)) 3 (tileOf .none [] none) mine false [⟨0, 1, .c, other, 4096 + 5, false⟩] = true ∧
    tabGet none (c (tileOf .read [other] none)).tiles ((4096 + 5) % 4096) = some (tileOf .read [other] none) := by decide +kernel

/-- Two parts of 16 elements that the core holds, in entries 3 and 4. -/
def partsBed : State :=
  let p (b : Nat) : Tile := { tileOf .write [] (some mine) with base := b, exts := [16, 1, 1, 1] }
  { tileBed (p 0x100000) with ctxs := [(0, { loneContext false with tiles := [(3, some (p 0x100000)), (4, some (p 0x100040))], gens := [(3, 1), (4, 1)] })] }
theorem witness_TileParts :
    let s := tileBed (tileOf .write [] (some mine)); let u := partsBed
    let c := ctxAt s 0
    let drop (c : Context) (i : Nat) : Context :=
      { c with tiles := tabSet none c.tiles i none, requests := c.requests.filter fun r => r.handle % 4096 ≠ i }
    let p (b : Nat) : Tile := { tileOf .write [] (some mine) with base := b, exts := [16, 1, 1, 1] }
    let ps : List (Nat × Tile) := [(3, p 0x100000), (4, p 0x100040)]
    (readReg s 2).toNat = 0 + 16 * 2 ∧ handleNames s ((readReg s 1).toNat % 2 ^ 32) 3 (tileOf .write [] (some mine)) ∧
    (2 - 1) * ((32 + 2 - 1) / 2) < 32 ∧ tenuresHeld c mine + 2 ≤ 65 ∧ 2 ≤ freeEntries (drop c 3) 2 (List.range 4096) ∧ 1 ≤ tenuresHeld c mine ∧
    (∀ j < 2, handleNames u ((readReg u (4 + j / 2)).toNat / 2 ^ (32 * (j % 2)) % 2 ^ 32) (ps.getD j default).1 (ps.getD j default).2) ∧
    (ps.map (·.1)).Nodup ∧ (∀ e ∈ ps, e.2.state = .write ∧ e.2.writer = some mine ∧ e.2.exts.set 0 0 = (p 0).exts.set 0 0) ∧
    ((p 0x100040).base : Int) = (p 0x100000).base + (p 0x100000).exts.getD 0 1 * (p 0x100000).strides.getD 0 0 ∧
    (allocTile (ps.foldl (fun c e => drop c e.1) (ctxAt u 0)) (tileOf .write [] (some mine))).isSome = true := by
  unfold handleNames; decide +kernel
theorem test_tsplit_then_tjoin : ((after (.tsplit 4 1 2) (tileBed (tileOf .write [] (some mine)))).bind (after (.tjoin 8 4 2))).map
    (fun t => ((ctxAt t 0).tiles.map (fun p => p.2.map (fun u => (u.base, u.exts))), (readReg t 8).toNat % 4096)) =
    some ([some (0x100000, [32, 1, 1, 1])], 0) := by decide +kernel

/-! ### Groups, queues and pages -/

/-- The record of a member of rank 1 of two in scratchpad byte 0, its member table at byte 64. -/
def joinBed (key : Nat) : State :=
  let s := memBed [(1, BitVec.ofNat 64 (0x100 * 2 ^ 55))]
  { s with core := { s.core with
    spad := tabSetRange 0 [] 0 (natLe 8 key ++ natLe 8 (2 + 2 ^ 16) ++ natLe 8 (0x100 * 2 ^ 55 + 64) ++ natLe 8 (2 ^ 48) ++ List.replicate 32 0) } }
theorem witness_MembershipResults :
    okB (loadRecord (joinBed 9) (readReg (joinBed 9) 1)) (fun r => decide (refusal r.1 1 r.2 = none ∧ tabSorted r.1.core.groups = true ∧ recRank r.2 ≠ 0)) = true ∧
    okB (loadRecord (joinBed 0) (readReg (joinBed 0) 1)) (fun r => refusal r.1 1 r.2 = some 5) = true ∧ (groupAt (joinBed 9).core 1).reason = 0 ∧
    tabSorted groupBed.core.groups = true ∧ (∀ e ∈ groupBed.core.qgrp, slotOf e.instr = some 1 → e.stopped = true) ∧
    (∃ e ∈ (issued (.gsync 1 plainSy) groupBed).core.qgrp, slotOf e.instr = some 1 ∧ e.stopped = false) := by decide +kernel
theorem test_gjoin_posts : (after (.gjoin 1 1) (joinBed 9)).map (fun t => (t.joins.map (·.rank), (curStream t).state)) = some ([1], .wait) := by decide +kernel

/-- A queue 2 whose ring of 16 records stands at 0x100000; DEVICE and ENABLE are QCTL bits 5 and 6. -/
def queueBed (tail : Nat) : State :=
  let s := memBed [(1, 0x100000), (2, 2)]
  { s with vds := [(0, { VDev.reset with rcd := 2 ^ 64, scheduled := true, queues := [(2, { Queue.reset with qbase := 0x100000, qctl := 0x64, tail := tail, resident := true })] })] }
theorem witness_LaunchResults :
    let s := queueBed 3; let f := queueBed 16
    (queueAt bed 0 2).qctl.getLsbD 5 = false ∧ (queueAt s 0 2).qctl.getLsbD 5 = true ∧ (queueAt s 0 2).qctl.getLsbD 6 = true ∧
    (readReg s 2).toNat % 8 = 2 ∧ (let x := queueAt f 0 2; 2 ^ (x.qctl.toNat % 32) ≤ (x.tail + 2 ^ 32 - progSeen x) % 2 ^ 32) ∧
    (let x := queueAt s 0 2; (x.tail + 2 ^ 32 - progSeen x) % 2 ^ 32 < 2 ^ (x.qctl.toNat % 32)) ∧
    okB (scalarLoad s (readReg s 1) 64) (fun r => (ringAccessor r.1 0 2).any fun a => isOk (memStore r.1 a
      ((queueAt r.1 0 2).qbase.toNat + 64 * ((queueAt r.1 0 2).tail % 2 ^ qlog (queueAt r.1 0 2))) (r.2.take 0x28 ++ natLe 2 0 ++ r.2.drop 0x2A))) = true := by
  decide +kernel
theorem test_launch_index : (after (.launchTry 5 1 2) (queueBed 3)).map (fun t => (readReg t 5, (queueAt t 0 2).tail)) = some (3, 4) := by decide +kernel

/-- Level P with two translations held: a small page 16 and the page 8200 of a large leaf. -/
def tlbBed (r : Tab Word) : State :=
  let s := memBed r
  { s with
    core := { s.core with tstat := 1 }
    ctxs := [(0, { loneContext false with tlb := [(16, some ⟨plainLeaf 5, 0x30080, false, []⟩), (8200, some ⟨plainLeaf 8192, 0, true, []⟩)] })] }
theorem witness_TlbResults :
    let s := tlbBed [(1, 0x100000), (2, 65536)]
    s.cur = .c ∧ s.core.tstat.getLsbD 0 = true ∧ tabSorted (ctxAt s 0).tlb = true ∧ (readReg s 1).toNat + (readReg s 2).toNat ≤ 2 ^ 55 ∧
    (let u := tlbBed [(1, BitVec.ofNat 64 (2 ^ 55)), (2, 1)]; (readReg u 2).toNat ≠ 0 ∧ 2 ^ 55 < (readReg u 1).toNat + (readReg u 2).toNat) ∧
    (∃ e, tabGet none (ctxAt s 0).tlb 8200 = some e ∧ e.large = true) := by
  refine ⟨rfl, ?_, ?_, ?_, ?_, ⟨_, rfl, rfl⟩⟩ <;> decide +kernel
theorem test_tlbinv_page : (after (.tlbinvPage 1) (tlbBed [(1, 0x100000)])).map (fun t => (ctxAt t 0).tlb.map (·.1)) = some [8200] := by decide +kernel

/-- Level P, the leaf of page 0x100000 as given, and one frame in the CXL pool. -/
def pageBed (leaf : Nat) (hbm cxl : List Nat) : State :=
  let s := memBed [(1, 0x100000)]
  { s with
    core := { s.core with tstat := 1 }
    mem := tabSetRange 0 s.mem 0x30080 (natLe 8 leaf)
    l2 := (0x601, some ⟨1, 0, 0⟩) :: s.l2
    pot := s.pot ++ (hbm ++ cxl).map fun f => (f, ⟨0, 0⟩)
    vds := [(0, { VDev.reset with rcd := 2 ^ 64, hbmPool := hbm, cxlPool := cxl })] }
/-- The walk of its page gives a leaf of the context's world. -/
def leafIs (s : State) (large : Bool) (e : Nat) : Bool :=
  match walk s 0 0x100000 with | .ok l => decide (l.entry = e ∧ l.large = large) && isOk (leafWorld s 0 0x100000 l) | .error _ => false
theorem witness_PageMoves :
    let plain := plainLeaf 5; let absent := plainLeaf 5 + 256; let moving := plainLeaf 5 + 4096; let device := plainLeaf 5 + 4
    let s := pageBed plain [] [0x800000]
    s.cur = .c ∧ s.core.tstat.getLsbD 0 = true ∧ (∀ e ∈ [plain, absent, moving, device], leafIs (pageBed e [] []) false e = true) ∧
    bitField device 2 2 = 3 ∧ bitField plain 2 2 ≠ 3 ∧ bitAt moving 12 = true ∧ bitAt plain 12 = false ∧ bitAt plain 8 = false ∧ bitAt absent 8 = true ∧
    bitField plain 9 1 = 0 ∧ (vdAt (pageBed plain [] []) 0).cxlPool = [] ∧ (vdAt s 0).cxlPool = [0x800000] ∧ (takeFrame s 0 1).isSome = true := by
  decide +kernel
theorem test_pmig_answers :
    (after (.pmig .toHbm 5 1) (pageBed (plainLeaf 5) [] [])).map (readReg · 5) = some 0 ∧
    (after (.pmig .toCxl 5 1) (pageBed (plainLeaf 5) [] [])).map (readReg · 5) = some 1 ∧
    (after (.pmig .toCxl 5 1) (pageBed (plainLeaf 5) [] [0x800000])).map (fun t => ((curStream t).state, t.migs.map (·.frame))) =
      some (.wait, [some 0x800000]) := by decide +kernel

/-! ### Control and status registers, traps and returns -/

theorem witness_CsrResults :
    tabSorted bed.ctxs = true ∧ (∀ n ∈ [0x000, 0x001, 0x002, 0x009], csrOk n = true ∧ csrPriv n = false) ∧
    (∀ n ∈ [0x003, 0x100, 0x101, 0x103, 0x105, 0x107], csrOk n = true) ∧ (csrPriv 0x100 = true → (atP bed).cur = .c ∧ (atP bed).core.tstat.getLsbD 0 = true) ∧
    (∀ n ∈ [0x100, 0x101], csrRead (atP bed) n &&& ~~~(csrField n 8).1 = 0) ∧
    6 ≤ (6 : Word).toNat % 8 ∧ ¬ 6 ≤ (5 : Word).toNat % 8 ∧ (10 ≤ (10 : Word).toNat % 64 ∧ (10 : Word).toNat % 64 ≤ 40) ∧
    ¬ (10 ≤ (41 : Word).toNat % 64 ∧ (41 : Word).toNat % 64 ≤ 40) := by decide +kernel
theorem test_csrw_keeps_a_refused_field : (after (.csrw 5 1 0x003) (atP (withRegs bed [(1, 41)]))).map (csrRead · 0x003) = some 30 := by decide +kernel
theorem test_csrc_clears_flags :
    (let s := withRegs bed [(1, 0x10)]
     (after (.csrc 5 1 0x000) { s with core := { s.core with vstat := 0x13 } }).map (fun t => (csrRead t 0, readReg t 5))) = some (0x03, 0x13) := by
  decide +kernel

theorem witness_PrivilegeFaults :
    bed.core.tstat.getLsbD 0 = false ∧ (inStream bed .v).cur ≠ .c ∧ csrOk 0x100 = true ∧ csrPriv 0x100 = true ∧ csrOk 0xFFF = false := by decide +kernel

/-- A job whose context has a handler that serves every cause. -/
def trapBed : State :=
  { memBed [] with ctxs := [(0, { loneContext true with tdel0 := BitVec.allOnes 64, tdel1 := BitVec.allOnes 64 })] }
/-- A write into a save region that could be made. -/
def isWritten (w : Written) (p : State → Bool) : Bool := match w with | .ok s => p s | .error _ => false
theorem witness_TrapRecords :
    let r : TrapRecord := { TrapRecord.none with cause := 0x0F, valid := true }
    (curStream trapBed).pending = none ∧ isWritten (writeRecord trapBed 0 .c r (some r.cause)) (fun u => tabSorted u.others) = true ∧
    isWritten (writeRecord { trapBed with ctxs := [(0, { loneContext true with savebase := 0x900000 })] } 0 .c r (some r.cause)) (fun _ => true) = false ∧
    (coreAt trapBed 0).job = some 0 := by
  decide +kernel
/-- A debugger attached to the context, a V stream with a fault of its engine, and a D stream that waits for a DFLOW. -/
def attachedBed : State := setVd trapBed 0 { vdAt trapBed 0 with dbgctl := 1 }
def faultOf (c : Cause) : EngineFault := ⟨.vector, 2, false, c, 0, 0, 0, 0, 0⟩
def trapPair (c : Cause) : State := { trapBed with core := { trapBed.core with v := { trapBed.core.v with state := .run, fault := some (faultOf c) } } }
def flowWait : State :=
  let e : QEntry := { (default : QEntry) with instr := .dflowClose 1 1 2 plainSy, stream := .d, seq := 7 }
  { trapBed with core := { trapBed.core with qdata := [e], d := { trapBed.core.d with state := .wait, pending := some ⟨.result 7, 0, 10, 0, none⟩ } } }
theorem witness_TrapsServed :
    let debug (s : State) (cause : Nat) : Prop := causeClass cause = .debug ∧ (vdAt s 0).dbgctl.getLsbD 0 = true ∧ userDebug s s.core.ctx = true
    let may (s : State) (cause : Nat) : Prop := delegated (ctxAt s s.core.ctx) cause = true ∧ (ctxAt s s.core.ctx).tvec ≠ 0 ∧ s.core.c.state ≠ .met
    trapBed.focus = 0 ∧ (ctxAt trapBed trapBed.core.ctx).vd = 0 ∧ (∀ cause ∈ [0x0F, 9], causeClass cause ≠ .killing ∧ ¬ debug trapBed cause ∧ may trapBed cause) ∧
    (∀ st ∈ [StreamName.c, .d, .v, .x], (streamOf trapBed.core st).fault = none) ∧
    (debug attachedBed (causeCode .brkHit) ∧ tabSorted attachedBed.vds = true) ∧ causeClass 0x49 = .killing ∧ ¬ may bed 0x0F ∧
    ((streamOf flowWait.core .d).state = .wait ∧ ((streamOf flowWait.core .d).pending.map (·.on)) = some (.result 7) ∧
      ∀ e ∈ flowWait.core.qdata ++ flowWait.core.qmat, e.seq = 7 → isXlease e.instr = false) ∧
    (∀ c ∈ [Cause.descInvalid, .thermalTrip], (faultRecord (trapPair c).core .v).isSome = true ∧ (trapPair c).core.job = some 0 ∧
      ∀ st ∈ [StreamName.c, .d, .x], (streamOf (trapPair c).core st).fault = none) := by decide +kernel
/-- A trap of the C stream enters the handler, and TEPC is its own address. -/
theorem test_brk_enters_the_handler : (after (.brk 1) trapBed).map
    (fun t => (t.core.tstat, t.core.tepc, t.core.c.pc, t.core.c.state, t.core.c.record.cause)) =
    some (1, 0, 0x10000, .run, causeCode .brkHit) := by decide +kernel
/-- SYSCALL resumes behind the TRAP. -/
theorem test_trap_resumes_behind : (after (.trap 0 7) { trapBed with words := [0] }).map (fun t => (t.core.tepc, t.core.c.record.esw)) = some (4, 7) := by
  decide +kernel

/-- A job that permits a checkpoint beside a queued job of its device. -/
def yieldBed : State :=
  { bed with vds := [(0, { VDev.reset with rcd := 2 ^ 64, scheduled := true })],
             jobs := [(0, some { loneJob with rcd := { loneJob.rcd with perm := 2 } }), (1, some { loneJob with state := .queued, cores := [] })],
             nextJob := 2 }
theorem witness_TrapAndCacheResults :
    let s := withRegs bed [(1, 0x10000), (2, 64)]; let f := withRegs bed [(1, BitVec.ofNat 64 (2 ^ 55)), (2, 64)]
    (readReg bed 2).toNat = 0 ∧ (readReg s 2).toNat ≠ 0 ∧ (readReg s 1).toNat + (readReg s 2).toNat ≤ 2 ^ 55 ∧
    2 ^ 55 < (readReg f 1).toNat + (readReg f 2).toNat ∧ bed.core.job = some 0 ∧ (jobAt bed 0).map permCheckpoint = some false ∧
    (jobAt yieldBed 0).map permCheckpoint = some true ∧ yieldBed.core.tstat.getLsbD 0 = false := by decide +kernel

/-- The handler of a job, with its D stream TRAPPED, its PEND and REL bits set, and its V stream's PEND bit set. -/
def handling (kill : Bool) : State :=
  let s := trapBed
  { s with core := { s.core with
    tepc := 0x40
    tstat := if kill then 0x800 + 1 else 1 + 2 + 4 + 0x100
    c := { s.core.c with record := { TrapRecord.none with rets := [12] } }
    d := { s.core.d with state := .trapped } } }
theorem witness_ReturnResults :
    (handling true).cur = .c ∧ (handling true).core.tstat.getLsbD 0 = true ∧ (handling true).core.tstat.getLsbD 11 = true ∧
    (handling true).core.job = some 0 ∧ (handling false).core.tstat.getLsbD 11 = false ∧ (handling false).core.c.step = .off ∧
    (handling false).core.tstat.getLsbD (7 + streamNum .d) = true ∧ (handling false).core.tstat.getLsbD (streamNum .d) = true ∧
    (streamOf (handling false).core .d).state = .trapped ∧ (handling false).core.tstat.getLsbD (7 + streamNum .v) = false := by decide +kernel
theorem test_rte_releases : (after .rte (handling false)).map (fun t => (t.core.c.pc, t.core.c.rets, t.core.d.state, t.core.tstat)) =
    some (0x40, [12], .run, 4) := by decide +kernel

/-! ### Events of streams and engines -/

/-- A stream in WAIT. -/
def waiting (s : State) (st : StreamName) (w : Wait) : State :=
  { s with core := setStream s.core st { streamOf s.core st with state := .wait, pending := some ⟨w, 0, 10, 0, none⟩ } }
/-- Three streams MET and V in a wait that nothing ends. -/
def stuckBed (now : Nat) : State :=
  let s := waiting bed .v (.takes [4])
  { s with now := now, core := { s.core with
    stuckSince := some 0
    c := { s.core.c with state := .met }
    d := { s.core.d with state := .met }
    x := { s.core.x with state := .met } } }
/-- A C stream whose TACQ waits for tile 3, free or held by another, and a V stream past step 4 of R165 that waits for a slot of ring 2. -/
def acquiring (st : TileState) (w : Option Holder) : State :=
  let s := tileBed (tileOf st [] w)
  waiting { s with ctxs := [(0, { loneContext false with tiles := [(3, some (tileOf st [] w))], gens := [(3, 1)],
                                                         requests := [⟨1, 0, .c, mine, 4099, true⟩] })] } .c (.tenure 1)
def claiming : Ready := ⟨.vector, [(1, ringDesc 2, true)], [], false, { (default : QEntry) with instr := .vmov 1 2 plainSy, stream := .v }⟩
def claimBed (free : Nat) : State :=
  let s := ringBed (ringWord 4 free 0 0 0)
  { s with core := { s.core with v := { s.core.v with state := .wait, pending := some ⟨.ring 2 true 2, 0, 10, 0, some claiming⟩ } } }
theorem witness_StreamEvents :
    (∀ w ∈ [Wait.takes [], .engines true 0], let s := waiting bed .c w; coreRuns s 0 = true ∧ waitHolds s s.core .c w = true) ∧
    (let s := waiting (tileBed (tileOf .write [] (some mine))) .c (.sealing 4099 0)
     coreRuns s 0 = true ∧ waitHolds s s.core .c (.sealing 4099 0) = true ∧ isOk (sealHeld { focusOn s 0 with cur := .c, words := wordList 0 } 4099) = true) ∧
    (let s := acquiring .none none
     coreRuns s 0 = true ∧ waitHolds s s.core .c (.tenure 1) = true ∧ requestReady (ctxAt s s.core.ctx) 1 = true) ∧
    (let s := waiting bed .c (.tenure 1)
     coreRuns s 0 = true ∧ waitHolds s s.core .c (.tenure 1) = true ∧ requestReady (ctxAt s s.core.ctx) 1 = false) ∧
    (let b : State := { focusOn (claimBed 2) 0 with cur := .v, words := wordList 0 }
     coreRuns (claimBed 2) 0 = true ∧ waitHolds (claimBed 2) (claimBed 2).core .v (.ring 2 true 2) = true ∧ isOk (claimAndQueue b claiming) = true) ∧
    (waitHolds (waiting bed .c (.takes [4])) (waiting bed .c (.takes [4])).core .c (.takes [4]) = false ∧
      detectorDue (waiting bed .c (.takes [4])) (waiting bed .c (.takes [4])).core = false ∧ 0 < 0 + 2 ^ 10 ∧ 0 + 2 ^ 10 ≤ 1024) ∧
    (let s := waiting (tileBed (tileOf .write [] (some other))) .c (.access 0x100000 4)
     coreRuns s 0 = true ∧ waitHolds s s.core .c (.access 0x100000 4) = false ∧ detectorDue s s.core = false) ∧
    (let s := handling false
     let s := { s with core := { s.core with tstat := 2, tcmp := 1, cycle := 1 } }
     coreRuns s 0 = true ∧ s.core.tstat.getLsbD 0 = false ∧ s.core.c.state = .run ∧ s.core.c.fault = none ∧ s.core.tstat.getLsbD (streamNum .d) = true ∧
     isWritten (writeRecord (abandonWait s 0 .c) 0 .c { TrapRecord.none with valid := true, rets := s.core.c.rets } (some 0)) (fun _ => true) = true ∧ s.core.tcmp ≠ 0 ∧
     s.core.tcmp.toNat ≤ s.core.cycle.toNat ∧ (ctxAt s 0).tdel1.getLsbD 21 = true ∧ (ctxAt s 0).tvec ≠ 0 ∧ (ctxAt bed 0).tdel1.getLsbD 21 = false) ∧
    (∀ now ∈ [1023, 1024], let s := stuckBed now
     coreStuck s s.core = true ∧ s.core.stuckSince = some 0 ∧ (∀ q ∈ [StreamName.c, .d], streamNum q < streamNum .v → (streamOf s.core q).state ≠ .wait)) := by decide +kernel
/-- A claim that another has forestalled since the wait held. -/
theorem witness_StreamEvents_claim :
    let b : State := { focusOn (claimBed 0) 0 with cur := .v, words := wordList 0 }
    (match claimAndQueue b claiming with | .error (.claim w _) => decide (w ≠ .lease) | _ => false) = true := by decide +kernel
/-- A stream's fault that its engine has left. -/
theorem witness_StreamEvents_fault :
    let f : EngineFault := ⟨.vector, 2, false, .descInvalid, 0, 0, 0, 0, 0⟩
    let s := { bed with core := { bed.core with v := { bed.core.v with state := .run, fault := some f } } }
    coreRuns s 0 = true ∧ s.core.v.state = .run ∧ s.core.v.fault.isSome = true := by decide +kernel

/-- The two sides of an engine's work: an element under way, the last element, and an element that traps. -/
theorem witness_EngineEvents_work :
    let s := issued (.vadd 1 2 3 none plainSy) (engBed .v)
    let e := headOf s .vector
    let l := setEntry s .vector { e with progress := 3 }
    let z := issued (.vdiv 1 2 3 none plainSy) { engBed .v with core := { (engBed .v).core with vctlLo := 0x20 } }
    let w (s : State) (eng : EngineName) (p : QEntry → Res UnitOut → Bool) : Bool :=
      coreRuns (focusOn s 0) 0 && (workEntry (focusOn s 0) eng).any fun e => !e.stopped && p e (runUnit { focusOn s 0 with cur := e.stream } e)
    w s .vector (fun e r => okB r fun o => !o.done && decide (o.e ≠ e)) = true ∧ w l .vector (fun _ r => okB r fun o => o.done) = true ∧
    w z .vector (fun _ r => match r with | .error (.trap _) => true | _ => false) = true ∧
    w (updating bed (.semadd 3 1 0) 1 false) .data (fun e r => okB r fun o => o.done && takesEffectLate e.instr) = true ∧
    w ((after (.engineInstructionComplete 0 .group) (issued (.gsync 1 plainSy) groupBed)).getD bed) .group
      (fun e r => okB r fun o => !o.done && decide (o.e = e)) = true ∧
    (let a := issued (.xzero .neginf true plainSy) (setPurse arrayBed 1 0 0 ⟨100, 0, true, false⟩)
     w a .matrix (fun e _ => !e.started) = true ∧ a.core.lease = .held ∧ grantDue a 0 = false) := by decide +kernel

/-- A turn of one unit goes on to the end of a 16-byte part: behind the third of four elements of 4 bytes no cut is allowed, behind the last element of
eight of 4 bytes at 0 the first part is whole. -/
theorem witness_EngineEvents_cut :
    let s := issued (.vadd 1 2 3 none plainSy) (engBed .v)
    let e := headOf s .vector
    let l : QEntry := { e with progress := 2 }
    okB (runUnit (setEntry s .vector l) l) (fun o => cutHere o.s o.e 2 o.e.progress = false && decide (workEntry (setEntry o.s .vector o.e) .vector = some o.e) &&
      okB (runUnit (setEntry o.s .vector o.e) o.e) (fun o2 => o2.done)) = true ∧
    cutHere s { e with descs := [region 0 0 8 4 1 0, region 0 64 8 4 1 0, region 0 128 8 4 1 0] } 3 4 = true ∧
    enginesRun (focusOn s 0) 0 = true := by decide +kernel

/-- A core that holds array 0, its grant at an end or not, and another core that asks for it or not. -/
def grantBed (passes : Nat) (asks : Bool) : State :=
  let s := setPurse arrayBed 1 0 0 ⟨100, 0, true, false⟩
  { s with
    core := { s.core with arr := { ArrayState.fresh with passes := passes } }
    arrays := [(0, ⟨some 0, 0⟩)]
    jobs := [(0, some { loneJob with cores := [0, 1] })]
    others := if asks then [(1, { Core.reset with job := some 0, jobRank := 1, lease := .reclaim,
                                                  qmat := [{ (default : QEntry) with instr := .xcellop 1 plainSy, stream := .x }] })] else [] }
theorem witness_EngineEvents_array :
    (grantDue (grantBed 0 false) 0 = false ∧ (grantBed 0 false).focus = 0) ∧
    (let s := (after (.engineInstructionComplete 0 .matrix) (issued (.xlease plainSy) (setPurse (engBed .x) 1 0 0 ⟨100, 0, true, false⟩))).getD bed
     (arrayAt s 0).holder = none ∧ leaseOrder s 0 = [0] ∧ s.core.lease = .waiting ∧ s.core.qmat.length = 1) ∧
    (let s := { grantBed 0 true with arrays := [], core := { (grantBed 0 true).core with lease := .none } }
     let u := { s with others := s.others.map fun p => (p.1, { p.2 with x := { p.2.x with state := .wait, pending := some ⟨.lease, 0, 10, 0, some claiming⟩ } }) }
     leaseOrder u 0 = [1] ∧ (focusOn u 1).core.lease ≠ .waiting ∧ ((focusOn u 1).core.x.pending.map (·.on)) = some .lease) ∧
    (let s := { grantBed 0 true with arrays := [], core := { (grantBed 0 true).core with lease := .none } }
     leaseOrder s 0 = [1] ∧ (focusOn s 1).core.lease ≠ .waiting ∧ (focusOn s 1).core.x.state ≠ .wait) ∧
    (∀ s ∈ [grantBed 0 false, grantBed 16 false, grantBed 16 true],
      (arrayAt s 0).holder = some 0 ∧ (coreAt s 0).lease = .held ∧ arrayBoundary s 0 = true ∧ ticking s (coreAt s 0) = true) ∧
    leaseOrder (grantBed 16 false) 0 = [] ∧ leaseOrder (grantBed 16 true) 0 ≠ [] := by decide +kernel

/-- A request in the arrival order, for a tile that is free or held by another. -/
def asking (st : TileState) (w : Option Holder) : State :=
  let s := tileBed (tileOf st [] w)
  { s with ctxs := [(0, { loneContext false with tiles := [(3, some (tileOf st [] w))], gens := [(3, 1)], requests := [⟨1, 0, .c, mine, 4099, true⟩] })] }
theorem witness_EngineEvents_tenure :
    let r : TenureReq := ⟨1, 0, .c, mine, 4099, true⟩
    (∀ s ∈ [asking .none none, asking .write (some other)],
      (ctxAt s 0).requests.find? (fun q => q.id = r.id) = some r ∧ (tileAt (ctxAt s 0) 3).isSome = true ∧ coreRuns s r.core = true) ∧
    grantable (ctxAt (asking .none none) 0) 3 (tileOf .none [] none) mine true [] = true ∧
    grantable (ctxAt (asking .write (some other)) 0) 3 (tileOf .write [] (some other)) mine true [] = false ∧
    (holdsTile (tileOf .none [] none) mine = false ∧ tenuresHeld (ctxAt (asking .none none) 0) mine < 64) ∧
    (holdsTile (tileOf .read [mine] none) mine = true ∧ grantable (ctxAt (asking .none none) 0) 3 (tileOf .read [mine] none) mine false [] = true) := by decide +kernel

/-! ### Events of jobs and queues -/

/-- Pages of a save frame at 0x100000 mapped to frames from 5 on, and a byte of code. -/
def saveBed (pages : Nat) : State :=
  { bed with
    mem := tabSetRange 0 (tabSetRange 0 bed.mem 0x30080 ((upFrom 5 pages).flatMap fun f => natLe 8 (plainLeaf f))) 0x40000 [1]
    pot := (upFrom 1 20).map fun f => (f, ⟨1, 1⟩) }
/-- A kernel object of one level of at most 4 cores, whose images of 4 bytes stand at its byte 256. -/
def object : List Byte :=
  natLe 4 0x314E524B ++ natLe 4 1 ++ natLe 8 0 ++ (List.replicate 4 (natLe 8 0x100 ++ natLe 8 4)).flatten ++ natLe 8 1 ++ natLe 8 (1 + 4 * 2 ^ 32)
/-- Its record, in the slot that queue 0 reads next. -/
def record : List Byte := natLe 8 0x110000 ++ natLe 8 7 ++ natLe 4 1 ++ List.replicate 20 0 ++ natLe 8 (2 ^ 25)
/-- A virtual device with a partition of one cluster and a resident queue, one IDLE context and a job on it that waits. -/
def waitJob : Job := { loneJob with state := .queued, cores := [], rcd := recordOf record, kern := { kernelOf (object ++ List.replicate 160 0) with got := .nothing } }
def placeBed (tail : Nat) (jobs : Tab (Option Job)) : State :=
  let s := setPurse (saveBed 2) 0 0 0 ⟨100, 0, true, false⟩
  { s with
    core := Core.reset
    mem := tabSetRange 0 (tabSetRange 0 s.mem 0x60000 object) 0x50000 record
    jobs := jobs
    nextJob := 3
    ctxs := [(0, { loneContext false with state := .idle, job := none })]
    parts := [(0, 1)]
    vds := [(0, { VDev.reset with
      rcd := 2 ^ 6 + 8 * 2 ^ 22 + 2 ^ 31 + 2 ^ 64 + 2 ^ 512
      scheduled := true
      evbase := 0x100000
      queues := [(0, { Queue.reset with qbase := 0x100000, qctl := 0x64, tail := tail, resident := true })] })] }
/-- The same with a job that runs on core 0. -/
def runBed (j : Job) : State :=
  let s := placeBed 0 [(0, some j), (1, some { loneJob with state := .saved, vd := 1, cores := [] })]
  { s with core := bed.core, ctxs := bed.ctxs, mem := (saveBed 16).mem, vds := s.vds ++ [(1, { VDev.reset with rcd := 2 ^ 31 })] }
def perm (p : Nat) : Job := { loneJob with rcd := { loneJob.rcd with perm := p, est := 2000 }, resident := 2 ^ 17 + 1024, drainAt := some 1024 }

theorem witness_JobEvents_records :
    (let ready (s : State) : Prop := (vdAt s 0).paused = false ∧ (vdAt s 0).stopped = false ∧ inReset s 0 = false ∧ settleReading s 0 0 = s ∧
      (queueAt s 0 0).resident = true ∧ (queueAt s 0 0).qctl.getLsbD 6 = true
     ready (placeBed 0 []) ∧ ready (placeBed 1 []) ∧ ready { placeBed 1 [] with ctxs := [] }) ∧
    (queueAt (placeBed 0 []) 0 0).tail = (queueAt (placeBed 0 []) 0 0).prog ∧ (queueAt (placeBed 1 []) 0 0).tail ≠ (queueAt (placeBed 1 []) 0 0).prog ∧
    queueContext (placeBed 1 []) 0 0 = some 0 ∧ queueContext { placeBed 1 [] with ctxs := [] } 0 0 = none ∧
    okB (agentLoad (placeBed 1 []) 0 0x100000 2 64) (fun r => match r with | .ok _ => true | _ => false) = true ∧
    (match agentLoad (placeBed 1 []) 0 0x900000 2 64 with | .error (.trap _) => true | _ => false) = true ∧
    (match checkLaunch (placeBed 0 []) waitJob with | (.pass _, true) => true | _ => false) = true ∧ jobSize { waitJob with state := .queued, asked := [] } ≠ 0 := by
  decide +kernel
/-- A waiting job of priority 3. -/
def urgent : Job := { waitJob with rcd := { waitJob.rcd with prio := 3 } }
/-- All cores of the cluster held by a job that permits a checkpoint, and a job that waits for one of them in a second context. -/
def fullBed : State :=
  let s := placeBed 0 [(0, some { perm 2 with cores := upFrom 0 8 }), (1, some urgent)]
  { s with
    core := bed.core
    others := (upFrom 1 7).map fun c => (c, { Core.reset with job := some 0, jobRank := c })
    ctxs := [(0, loneContext false), (1, { loneContext false with state := .idle, job := none, saven := 1 })] }
theorem witness_JobEvents_placement :
    let s := placeBed 0 [(0, some waitJob)]
    chosenJob s 0 = some (0, waitJob) ∧ contextFor s waitJob = some 0 ∧ placeOk s 0 0 waitJob [0] = true ∧ onHome s waitJob [0] = true ∧
    heldFrom s 0 waitJob [0] = false ∧ waitingJobs s 0 = [] ∧ choices (placeBed 0 []) 0 = [] ∧ queueContext s 0 0 = some 0 ∧
    jobAt s 0 = some waitJob ∧ dispatcherOf s waitJob = 0 ∧ okB (readImages s 0 waitJob) (fun r => match r with | .ok _ => true | _ => false) = true ∧
    choices fullBed 0 = [(1, urgent)] ∧ placeable fullBed urgent = false ∧ yielding fullBed urgent = some ([0], []) := by
  decide +kernel
theorem witness_JobEvents_completion :
    let j : Job := { loneJob with state := .retired, ending := some 0, rcd := { loneJob.rcd with csem := 0x100000 } }
    let s := placeBed 0 [(0, some j)]
    jobAt s 0 = some j ∧ j.ending = some 0 ∧ wordContext s j = some 0 ∧ inReset s 0 = false ∧
    (match translate s ⟨0, false, none, vdHome s 0⟩ .atomic 0x100000 with | .ok (.absent _) => false | _ => true) = true ∧
    isOk (memAtomic s ⟨0, false, none, vdHome s 0⟩ 0x100000 4) = true ∧ (jobAt s 1 = none ∧ jobAt (placeBed 0 [(0, some waitJob)]) 0 = some waitJob) ∧
    (∀ g ∈ [0, 1], let e : HeldEvent := ⟨1, 0, 0, 0, 0, g⟩
     let s := setVd s 0 { vdAt s 0 with held := [e] }
     let d := vdAt s 0
     d.held = e :: [] ∧ d.scheduled = true ∧ d.paused = false ∧ (d.evtail + 2 ^ 32 - d.evhead) % 2 ^ 32 < 2 ^ bitField d.evctl.toNat 0 5 ∧
      firstContext s 0 = some 0 ∧ (match translate s ⟨0, false, none, vdHome s 0⟩ .write 0x100000 with
        | .ok (.here _ pa) => (paTier pa).isSome && isOk (storeErrors s pa 16 0x100000) && isOk (checkTag s pa 16 (ctxAt s 0).world 0x100000 false)
        | _ => false) = true) ∧ (vdAt s 0).rgen = 0 := by decide +kernel
def stopped : State := stopCore (runBed (perm 2)) 0
theorem witness_JobEvents_checkpoint :
    let s := runBed (perm 2)
    jobAt s 0 = some (perm 2) ∧ bitAt (perm 2).rcd.perm 1 = true ∧ jobRuns s 0 = true ∧ (perm 2).state = .running ∧ retireIfMet s 0 = s ∧ jobRuns stopped 0 = true := by
  decide +kernel
/-- Each page of its frame, in its one context, can be written, or none can; it has no lent vault to save. -/
theorem witness_JobEvents_checkpoint_saved :
    (∀ q ∈ upFrom 0 16, isOk (framePa stopped 0 (frameVa (ctxAt stopped 0) 0 + q * 65536) 65536 true) = true) ∧ lentVaults stopped [0] = [] ∧
    (coreAt stopped 0).jobRank = 0 ∧ isOk (framePa (placeBed 0 []) 0 (frameVa (ctxAt (placeBed 0 []) 0) 0 + 0x20000) 65536 true) = false := by
  decide +kernel
/-- A SAVED job whose frame is sound at its FRVER, or is not. -/
def savedBed (ver : Byte) : State :=
  let s := placeBed 0 [(0, some { waitJob with state := .saved, image := [{ Core.reset with job := some 0 }] })]
  { s with
    mem := tabSetRange 0 (tabSetRange 0 bed.mem 0x30098 (natLe 8 (plainLeaf 8))) 0x51801 [ver]
    ctxs := [(0, { loneContext false with state := .saved })] }
/-- An empty directory is sound. -/
theorem frameSound_of_zeros (s : State) (k r n : Nat) (h : readFrame s k (frameVa (ctxAt s k) r + 0x1801) 1 = .ok [1])
    (hd : readFrame s k (frameVa (ctxAt s k) r + 0x34000) 1024 = .ok (List.replicate n 0)) : frameSound s k r = .ok () := by
  have hn : ∀ n, leNat (List.replicate n (0 : Byte)) = 0 := fun n => by
    induction n with
    | zero => rfl
    | succ n ih => rw [List.replicate_succ, leNat, ih]; rfl
  have hall : ∀ l : List (Res Unit), (∀ r ∈ l, r = .ok ()) → inOrder l = .ok () := fun l hl => by
    induction l with
    | nil => rfl
    | cons r l ih => rw [hl r (List.mem_cons_self ..)]; exact ih fun r hr => hl r (List.mem_cons_of_mem _ hr)
  have hz : ∀ va, recordSound s k va 0 = .ok () := fun _ => by unfold recordSound; exact if_pos (by decide)
  unfold frameSound
  generalize frameVa (ctxAt s k) r = va at h hd ⊢
  have hb {α β : Type} (a : α) (f : α → Res β) : Except.bind (.ok a) f = f a := rfl
  simp only [h, hb, hd]
  refine hall _ fun r hr => ?_
  obtain ⟨b, -, rfl⟩ := List.mem_map.mp hr
  rw [List.drop_replicate, List.take_replicate, hn]; exact hz _
def savedJob : Job := { waitJob with state := .saved, image := [{ Core.reset with job := some 0 }] }
theorem witness_JobEvents_resume :
    (∀ v ∈ [(0 : Byte), 1], let s := savedBed v
     jobAt s 0 = some savedJob ∧ (vdAt s 0).paused = false ∧ inReset s 0 = false ∧ vdField s 0 31 1 = 1 ∧ heldBack s 0 [0] = false ∧
     placeOk s 0 0 savedJob [0] = true ∧ savedJob.image.length = 1 ∧ savedJob.lent ≤ (lentVaults (lendUnits s 0 [0]) [0]).length ∧
     isOk (restoreVaults s 0 0 ((lentVaults s [0]).take 0)) = true ∧ (ctxAt (lendUnits s 0 [0]) 0).haltPending = false) ∧
    isOk (frameSound (lendUnits (savedBed 0) 0 [0]) 0 0) = false ∧ frameSound (lendUnits (savedBed 1) 0 [0]) 0 0 = .ok () :=
  ⟨by decide +kernel, by decide +kernel, frameSound_of_zeros _ _ _ 1024 (by decide +kernel) (by decide +kernel)⟩
/-- The bytes of the frame are read, and a stream's position in them is taken for its own. -/
theorem witness_JobEvents_frame :
    isOk (readRegion (runBed (perm 2)) 0 17 (frameVa (ctxAt (runBed (perm 2)) 0) 0) 0 (2 ^ 20)) = true ∧
    isOk (readFrames (runBed (perm 2)) 0 0 [Core.reset]) = true ∧ frameNat [(0x1808, 1)] (0x800 + 0x400 * 3 + 8) 8 = 0 ∧
    frameNat [(0x1408, 1)] (0x800 + 0x400 * 3 + 8) 8 = 1 := by decide +kernel
theorem witness_JobEvents_preemption :
    (∀ p ∈ [0, 1, 2, 4], let s := runBed (perm p)
     jobAt s 0 = some (perm p) ∧ jobRuns s 0 = true ∧ retireIfMet s 0 = s ∧ vdField s 0 6 16 ≠ 0 ∧
     vdField s 0 6 16 * 1024 + (perm p).sliceAt ≤ (perm p).resident ∧ othersWait s (perm p) = true ∧ ¬ (perm p).rcd.est - (perm p).resident / 1024 ≤ 128 ∧
     1024 + 2 ^ 17 ≤ (perm p).resident) ∧
    (let j : Job := { perm 1 with drainAt := none, rcd := { (perm 1).rcd with est := 257 } }
     let s := runBed j
     jobRuns s 0 = true ∧ othersWait s j = true ∧ bitAt j.rcd.perm 0 = true ∧ j.rcd.est - j.resident / 1024 ≤ 128) ∧
    (let j := perm 4; let b := setJob (runBed j) 0 { j with drainAt := none }; retireIfMet b 0 = b) ∧ bitAt 2 1 = true ∧ bitAt 4 1 = false ∧ bitAt 4 2 = true ∧
    (let s := setVd (placeBed 0 []) 0 { vdAt (placeBed 0 []) 0 with scheduled := false, rcdNew := 2 ^ 31 }
     (vdAt (placeBed 0 []) 0).scheduled = true ∧ (vdAt s 0).scheduled = false ∧ (vdAt s 0).paused = false ∧ bitAt (setField (2 ^ 31) 512 384 0) 31 = true ∧
     scheduledOn s 0 < 32) := by decide +kernel

/-! ### Events of the host port and of management -/

/-- The same package with its virtual device's interface in a state. -/
def tdispBed (s : State) (t : Tdisp) : State := setVd s 0 { vdAt s 0 with tdisp := t, ide := some 5 }
/-- A debugger's target: the C stream of rank 0, TRAPPED for it, through a window on context 0. -/
def debugBed : State :=
  let s := setVd bed 0 { VDev.reset with winctl := 0x200, winbase := 0x100000 }
  { s with core := { s.core with c := { s.core.c with state := .trapped, record := { TrapRecord.none with debug := true, cause := 9 } } } }
theorem witness_HostEvents_queues :
    let s := queueBed 3
    s.phase = 7 ∧ inReset s 0 = false ∧ (vdAt s 0).tdisp = .unlocked ∧ (vdAt (tdispBed s .run) 0).tdisp = .run ∧ (vdAt (tdispBed s .run) 0).ide = some 5 ∧
    (vdAt (tdispBed s .error) 0).tdisp = .error ∧ inReset (setVd s 0 { vdAt s 0 with resetting := some (0, false) }) 0 = true ∧
    (queueAt s 0 2).qctl.getLsbD 5 = true ∧ (queueAt s 0 0).qctl.getLsbD 5 = false ∧
    (16 + 2 ^ 32 - progSeen (queueAt s 0 0)) % 2 ^ 32 ≤ 2 ^ qlog (queueAt s 0 0) ∧ 2 ^ qlog (queueAt s 0 0) < (17 + 2 ^ 32 - progSeen (queueAt s 0 0)) % 2 ^ 32 ∧
    (vdAt s 0).held = [] ∧ tabSorted s.vds = true ∧
    (0 + 2 ^ 32 - (vdAt s 0).evhead) % 2 ^ 32 ≤ ((vdAt s 0).evtail + 2 ^ 32 - (vdAt s 0).evhead) % 2 ^ 32 ∧
    (ctxAt { s with ctxs := [(0, { loneContext false with state := .halted })] } 0).state = .halted ∧
    coreOfRank { s with ctxs := [(0, { loneContext false with state := .halted })] } 0 0 = some 0 ∧
    (let h : State := { s with health := [(0, 0x0008005900000000)] }
     (2 ^ 51 : Nat).testBit 51 = true ∧ tabSorted h.health = true ∧ (tabGet healthReset h.health 0).toNat / 2 ^ 32 % 256 < 90 ∧
     90 ≤ (tabGet healthReset [(0, 0x0008005A00000000)] 0).toNat / 2 ^ 32 % 256) ∧
    (let a : State := { s with agentCtx := 0, ctxs := [(0, { loneContext false with state := .halted })] }
     (ctxAt a a.agentCtx).state = .halted ∧ coreOfRank a a.agentCtx (a.agentSel.toNat % 2 ^ 32) = some 0 ∧ streamNum .c = a.agentSel.toNat / 2 ^ 32 % 4) ∧
    (let r := setVd s 0 { vdAt s 0 with resetting := some (7, true) }
     (outstandingOn r 0 = false ∧ (vdAt r 0).resetting = some (7, true)) ∧ 7 < 7 + 200 * 1750 ∧
      outstandingOn (setVd (issued (.gsync 1 plainSy) groupBed) 0 { VDev.reset with resetting := some (7, true) }) 0 = true) := by decide +kernel
theorem test_queue_tail_refused : (after (.qtailWrite 0 0 17 none) (queueBed 3)).map (fun t => ((queueAt t 0 0).tail, (queueAt t 0 0).qsts)) = some (0, 1) := by
  decide +kernel
theorem witness_HostEvents_windows :
    let s := debugBed
    dbgTarget s 0 = some (0, .c) ∧ (coreAt s 0).job = some 0 ∧ dbgTarget bed 0 = none ∧ dbgContext s 0 = 0 ∧ (ctxAt s 0).state ≠ .free ∧ (ctxAt s 0).vd = 0 ∧
    userDebug s 0 = true ∧ windowContext s 0 = some 0 ∧ windowContext bed 0 = none ∧ isOk (windowSpot s 0 ((vdAt s 0).winbase.toNat + 8) 4 false) = true ∧
    isOk (windowSpot s 0 ((vdAt s 0).winbase.toNat + 8) 4 true) = true ∧ (4092 % 4096 + 4 ≤ 4096) := by decide +kernel
/-- A request of the host to a page that a migration holds, and one behind it. -/
theorem witness_StepRunsDecoded_host :
    let s := { debugBed with mem := tabSetRange 0 debugBed.mem 0x30080 (natLe 8 (plainLeaf 5 + 4096)), pin := none }
    let i : Instr := .windowWrite 0 8 [1, 0, 0, 0] none
    requestHeld s (.event i) = true ∧ s.pin = none ∧
    (∃ u ∈ { s with hostHeld := [.event i] }.hostHeld, hostFunction u = some 0) := by
  exact ⟨by decide +kernel, rfl, _, List.mem_cons_self .., rfl⟩
theorem witness_HostEvents_interface :
    (vdAt bed 0).tdisp = .unlocked ∧ (vdAt bed 0).resetting = none ∧ inReset bed 0 = false ∧ streamFree bed 5 = true ∧ (∀ t ∈ [Tdisp.locked, .run, .error], (vdAt (tdispBed bed t) 0).tdisp = t) ∧
    (∀ p ∈ (tdispBed bed .run).vds, p.2.ide ≠ some 6) ∧
    (∀ t ∈ [Tdisp.locked, .run], (tdispBed bed t).vds.filter (fun p => p.2.ide = some 5) = [(0, vdAt (tdispBed bed t) 0)]) ∧
    streamFree { bed with vds := (upFrom 0 64).map fun v => (v, { VDev.reset with ide := some v }) } 64 = false := by decide +kernel
theorem test_lock_then_start :
    ((after (.lockInterfaceRequest 0 5) State.reset).bind (after (.startInterfaceRequest 0))).map (fun t => (vdAt t 0).tdisp) = some .run := by decide +kernel

/-- An adapter of one page on the CXL port, its page table in frame 5 and its page in frame 6, in a state with references. -/
def entryOf (state home crefs : Nat) : Nat :=
  setField (setField (setField (setField 0 0 8 1) 14 6 5) 20 3 state) 23 1 home + 2 ^ 24 + 8 * 2 ^ 40 + 8 * 2 ^ 56 + 2 ^ 72 + crefs * 2 ^ 96 + 0x50000 * 2 ^ 168 + 2 ^ 200 * 2 ^ 72
def adapterBed (state home crefs : Nat) : State :=
  { saveBed 3 with
    att := [(3, entryOf state home crefs)]
    mem := tabSetRange 0 (saveBed 3).mem 0x50000 (natLe 8 0x60000)
    pot := (saveBed 3).pot ++ [(0x100000000, ⟨1, 1⟩)]
    pinPools := [(0, [90]), (1, [90]), (2, [90]), (3, [90])] }
theorem witness_ManagementEvents_contexts :
    let in_ (t : CtxState) (p : Word) (j : Option Nat) : State := { bed with ctxs := [(0, { loneContext false with state := t, policy := p, job := j })] }
    bed.phase = 7 ∧ { bed with phase := 2 }.phase ≠ 7 ∧ createFits bed 1 0 1 0x10000 0x100000 1 = true ∧ createFits bed 0 0 1 0x10000 0x100000 1 = false ∧
    (∀ t ∈ [CtxState.idle, .halted, .saved, .running, .free], (ctxAt (in_ t 0 none) 0).state = t) ∧ (ctxAt (in_ .idle 0 none) 0).policy.getLsbD 2 = false ∧
    ((ctxAt (in_ .idle 4 none) 0).policy.getLsbD 2 = true ∧ (ctxAt (in_ .idle 4 none) 0).policy.getLsbD 1 = false) ∧
    (ctxAt (releaseHolding (unhaltCores (in_ .halted 0 none) 0)) 0).job = none ∧ (∀ x ∈ [CtxState.idle, .halted], (in_ x 0 none).ctxs.length = 1) ∧ (ctxAt (releaseHolding (unhaltCores (in_ .halted 0 (some 0)) 0)) 0).job = some 0 ∧
    okB (agentLoad (in_ .idle 0 none) 0 0x100000 (64 / 65536 + 2) 64) (fun r => match r with | .ok _ => true | _ => false) = true := by decide +kernel
theorem witness_ManagementEvents_adapters :
    let fits (s : State) (f : Nat) : Prop := let e := attAt s 3
      attState e ≠ 0 ∧ adapterPages e = 1 ∧ factorsRead s e 1 0 = .ok () ∧ paTier (f * 65536) = some (1 - attHome e) ∧
      checkPot s (f * 65536) (attWorld e) false false 0 = .ok ()
    installFits (adapterBed 1 1 0) 4 (entryOf 0 0 0) = true ∧ installFits (adapterBed 1 1 0) 3 (entryOf 0 0 0) = false ∧
    fits (adapterBed 1 1 0) 7 ∧ fits (adapterBed 2 0 0) 0x100000000 ∧ attState (attAt bed 3) = 0 ∧
    (∀ st ∈ [1, 2, 3, 4, 5], ∀ n ∈ [0, 1], attState (attAt (adapterBed st 1 n) 3) = st ∧ attCrefs (attAt (adapterBed st 1 n) 3) + attOrefs (attAt (adapterBed st 1 n) 3) = n) ∧
    (∀ die < 4, adapterPages (attAt (adapterBed 1 1 0) 3) ≤ (pinPlaces (adapterBed 1 1 0) die).length) := by
  refine ⟨?_, ?_, ⟨?_, ?_, ?_, ?_, rfl⟩, ⟨?_, ?_, ?_, ?_, rfl⟩, ?_⟩ <;> decide +kernel
theorem test_move_home : (after (.adapterMoveHome 3 [7]) (adapterBed 1 1 0)).map
    (fun t => (attState (attAt t 3), attHome (attAt t 3), leNat (physBytes t 0x50000 8), t.outbox)) = some (2, 0, 0x70000, [.answer 1 0]) := by decide +kernel
theorem witness_ManagementEvents_units :
    let s := placeBed 0 []
    partitionFits s 1 2 = true ∧ partitionFits s 1 1 = false ∧ rcdFits bed 0 (rcdWritten (2 ^ 31)) = true ∧ rcdFits bed 384 (rcdWritten 0) = false ∧
    (let b : State := { bed with pot := [(7, ⟨0, 0⟩), (0x100000007, ⟨0, 0⟩)] }
     ∀ p ∈ [(0, 7), (1, 0x100000007)], paTier (p.2 * 65536) = some p.1 ∧ frameMapped b p.2 = true ∧ (potAt b p.2).state = 0 ∧ pooled b p.2 = false) ∧
    (90 < 96 ∧ bed.fenced.contains (1024 + 0 * 96 + 90) = false ∧ ∀ q ∈ upFrom (0 * 16) 16, (recVaults (tabGet 0 bed.parts q)).testBit 90 = false ∧ (recVaults (partNow bed q)).testBit 90 = false) ∧
    (ctxAt bed 0).state ≠ .free ∧ (∀ f ∈ [7], (potAt { bed with pot := [(7, ⟨1, 4⟩)] } f).state = 4) ∧ (∃ f ∈ [5], (potAt bed f).state ≠ 4) ∧
    tabGet .home bed.margins 5 = .home ∧ tabGet .home [(5, Margin.lent 2 1)] 5 = .lent 2 1 ∧ (rangeTier (7 * 65536)).isSome = true ∧ frameMapped bed 7 = true ∧
    (∀ p ∈ [1, 2, 3, 4, 5, 6, 7], { bed with phase := p }.phase = p) ∧ bed.identity = true ∧ { bed with identity := false }.identity = false := by decide +kernel

/-! ### Events of power, purses and pages -/

theorem witness_PowerAndPageEvents_power :
    let s := { bed with now := 1024 }
    arbiterCount 0 = 1536 ∧ tabGet 0 s.refills (0 * 2048 + 5) < s.now / 1024 ∧ s.now / 1024 ≤ tabGet 0 [(5, 1)] (0 * 2048 + 5) ∧
    (let x : Served := ⟨0, 10 + 100 * 2 ^ 16 + 3 * 2 ^ 32, ⟨5, 0, true, true⟩⟩
     purseLend x.cfg = true ∧ x.purse.idle = true ∧ 0 < min (purseDepth x.cfg : Int) (x.purse.bal + purseFill x.cfg) ∧ purseBorrow x.cfg = true) ∧
    (let x : Served := ⟨0, 10 + 100 * 2 ^ 16, ⟨5, 0, false, false⟩⟩; ¬ (purseLend x.cfg = true)) ∧
    (∀ die < 4, (tabGet healthReset bed.health die).toNat / 2 ^ 43 % 256 = 0 ∧ (tabGet healthReset bed.health die).toNat / 2 ^ 40 % 8 < 7) ∧
    (tabGet healthReset [(2, BitVec.ofNat 64 (7 * 2 ^ 40 + 3 * 2 ^ 43))] 2).toNat / 2 ^ 43 % 256 ≠ 0 ∧ bed.govRun < 11 ∧ 11 ≤ { bed with govRun := 11 }.govRun := by
  decide +kernel
theorem test_governor_steps : (after (.governorMeasure 2401) bed).map (fun t => (tabGet healthReset t.health 3).toNat / 2 ^ 40 % 8) = some 1 ∧
    (after (.governorMeasure 2400) bed).map (fun t => (tabGet healthReset t.health 3).toNat / 2 ^ 40 % 8) = some 0 := by decide +kernel
theorem test_thermal_step : (after (.thermalClockStep 1 100) bed).map (fun t => (tabGet healthReset t.health 1).toNat / 2 ^ 43 % 256) = some 1 ∧
    (after (.thermalClockStep 1 99) bed).map (fun t => (tabGet healthReset t.health 1).toNat / 2 ^ 43 % 256) = some 0 := by decide +kernel

/-- A page request for the page at 0x100000, and a migration of it from frame 5 to a frame of the pool. -/
def requestBed (leaf hbm : Nat) : State :=
  let s := pageBed leaf (if hbm = 0 then [] else [hbm]) []
  { s with pageReqs := [⟨0, 16, plainLeaf 5 + 256, some (7, 0), 0, false⟩] }
def migrationBed (leaf : Nat) : State :=
  let s := pageBed leaf [] []
  { s with
    migs := [⟨0, 16, 0x30080, plainLeaf 5 + 4096, 5, some 7, 0, 0, false⟩]
    l2 := []
    pot := [(1, ⟨1, 1⟩), (2, ⟨1, 1⟩), (3, ⟨1, 1⟩), (4, ⟨1, 1⟩), (5, ⟨1, 3⟩), (7, ⟨0, 0⟩)] }
theorem witness_PowerAndPageEvents_pages :
    let r : PageRequest := ⟨0, 16, plainLeaf 5 + 256, some (7, 0), 0, false⟩
    let m : Migration := ⟨0, 16, 0x30080, plainLeaf 5 + 4096, 5, some 7, 0, 0, false⟩
    let none_ : PageRequest := { r with frame := none }
    let fits (s : State) : Prop :=
      let b := flushFrame { s with migs := [] } m.old
      framesSound b m = true ∧ evictable b m = true ∧ leNat (physBytes b m.leafAt 8) = m.leaf
    (requestBed 0 7).pageReqs.find? (fun q => q.ctx = 0 && q.page = 16) = some r ∧
    { requestBed 0 7 with pageReqs := [none_] }.pageReqs.find? (fun q => q.ctx = 0 && q.page = 16) = some none_ ∧ (openContents r none).isNone = true ∧
    okB (walk { requestBed (plainLeaf 5 + 256) 7 with pageReqs := [] } 0 (16 * 65536)) (fun l => decide (l.entry = r.leaf)) = true ∧
    okB (walk { requestBed (plainLeaf 6) 7 with pageReqs := [] } 0 (16 * 65536)) (fun l => decide (l.entry ≠ r.leaf)) = true ∧
    isOk (walk { requestBed 0 7 with pageReqs := [] } 0 (16 * 65536)) = false ∧
    bed.pageReqs.find? (fun q => q.ctx = 0 && q.page = 16) = none ∧ bed.migs.find? (fun q => q.ctx = 0 && q.page = 16) = none ∧
    (∀ e ∈ [plainLeaf 5 + 4096, plainLeaf 5], (migrationBed e).migs.find? (fun q => q.ctx = 0 && q.page = 16) = some m) ∧
    (fits (migrationBed (plainLeaf 5 + 4096)) ∧ evictable (migrationBed 0) { m with frame := none } = true) ∧ ¬ fits (migrationBed (plainLeaf 5)) := by
  decide +kernel
/-- 65,536 bytes open the request of a page that is not confidential. -/
theorem opens_plain (bs : List Byte) (h : bs.length = 65536) : openContents ⟨0, 16, plainLeaf 5 + 256, some (7, 0), 0, false⟩ (some bs) = some bs := if_pos h
theorem witness_PowerAndPageEvents_contents : ∃ bs, openContents ⟨0, 16, plainLeaf 5 + 256, some (7, 0), 0, false⟩ (some bs) = some bs :=
  ⟨_, opens_plain (List.replicate 65536 0) List.length_replicate⟩

/-! ### Events of the fabric and of groups -/

/-- Context 0 paired with context 9 of package 7, its batch header at 0x100000 with a status array. -/
def peerBed (f : RxFlow) : State :=
  let s := memBed []
  setRxFlow { s with pairings := [(0, 7, 9)], mem := tabSetRange 0 s.mem 0x100000 [] } (rxKey 7 9 0 3) f
/-- The D stream's link instruction of flow 1 in its queue, its first part in a state of R441. -/
def sentBed (i : Instr) (st : PartState) (sentAt : Nat) : State :=
  let s := issued i linkBed
  { s with core := { s.core with qdata := s.core.qdata.map fun e => { e with part := .parts [(0, ⟨st, 0, [], sentAt, none⟩)] } } }
def partOf (s : State) : Option (QEntry × Nat) := findPart s.core (1 * 2 ^ 24)
def haltedBed (s : State) : State := { s with ctxs := [(0, { loneContext false with state := .halted })] }
/-- A flow of the peer in its mode, alive or dead, the next part expected being `n`. -/
def rxOf (o d : Bool) (n : Nat) : RxFlow := { RxFlow.fresh with opened := true, ordered := o, dead := d, next := n }
/-- A part of one run, or a run of more than one. -/
def runOf (type arg : Nat) (bs : List Byte) : RxPart := ⟨0, type, 0x100000, arg * 2 ^ 64, bs⟩
theorem witness_FabricEvents_arrival :
    let key := rxKey 7 9 0 3
    (∀ x ∈ [rxOf false false 0, rxOf true false 0, rxOf true false 1, rxOf false true 0, rxOf true false (2 ^ 24 - 1)], let s := peerBed x
      localContext s 7 9 = some 0 ∧ (ctxAt s 0).state ≠ .free ∧ (ctxAt s 0).state ≠ .halted ∧ (rxFlowAt s key).dead = x.dead ∧
      (rxFlowAt s key).ordered = x.ordered ∧ (rxFlowAt s key).held = [] ∧ tabSorted s.rxFlows = true ∧ inReset s (ctxAt s 0).vd = false) ∧
    argRank (0 * 2 ^ 64) = 0 ∧ localContext bed 7 9 = none ∧ (ctxAt (haltedBed (peerBed (rxOf false false 0))) 0).state = .halted ∧
    (2 ^ 23 ≤ (0 % 2 ^ 24 + 2 ^ 24 - 1) % 2 ^ 24 ∧ (0 % 2 ^ 24 + 2 ^ 24 - (2 ^ 24 - 1)) % 2 ^ 24 < 2 ^ 23 ∧ 0 % 2 ^ 24 ≠ 2 ^ 24 - 1) ∧
    (2 ^ 16 / 2 ^ 16 % 2 ^ 16 ≠ 0 ∧ (8 * 2 ^ 64) / 2 ^ 16 % 2 ^ 16 = 0) := by decide +kernel
/-- What a port makes of a part that has landed, must wait or is refused. -/
theorem witness_FabricEvents_lands :
    let lands (s : State) (p : RxPart) (f : Except Nat (List Byte) → Bool) : Bool := f (landPart s 0 (rxKey 7 9 0 3) [p]).2
    let ok : Except Nat (List Byte) → Bool := fun r => match r with | .ok _ => true | _ => false
    let s := peerBed (rxOf false false 0)
    lands s (runOf 0 0 [1, 2]) ok = true ∧ lands s (runOf 1 8 []) ok = true ∧ lands s (runOf 3 4 [1, 0, 0, 0]) ok = true ∧
    lands s (runOf 3 (256 + 4) (List.replicate 8 0)) ok = true ∧
    lands s { runOf 0 0 [1, 2] with va := 0x900000 } (fun r => match r with | .error n => decide (0 < n ∧ n ≠ notYet) | _ => false) = true ∧
    lands { s with purses := [] } (runOf 0 0 [1, 2]) (fun r => match r with | .error n => decide (n = notYet) | _ => false) = true ∧
    (∀ k ∈ [Access.write, .read, .atomic], (match (landRange s 0 k 2 0x100000 4).2 with | .ok _ => true | _ => false) = true) := by decide +kernel
theorem witness_FabricEvents_missing :
    let s := peerBed RxFlow.fresh
    let header (stat : Nat) : State :=
      { s with mem := tabSetRange 0 s.mem 0x50000 (natLe 8 0x100100 ++ natLe 4 16 ++ natLe 4 8 ++ List.replicate 24 0 ++ natLe 8 stat) }
    let read (t : State) (f : Batch → Bool) : Bool := match (landRead t 0 0x100000 64).2 with | .ok bs => f (batchOf bs) | _ => false
    read (header 0x100200) (fun b => decide (b.statVa ≠ 0 ∧ 7 < b.cap)) = true ∧ read (header 0) (fun b => decide (b.statVa = 0)) = true ∧
    (match (landRead { header 0 with purses := [] } 0 0x100000 64).2 with | .error c => decide (c = notYet) | _ => false) = true ∧
    (match (landWrite (header 0x100200) 0 0x100207 [2]).2 with | .ok _ => true | _ => false) = true ∧
    (match (landWrite { header 0x100200 with purses := [] } 0 0x100207 [2]).2 with | .error c => decide (c = notYet) | _ => false) = true ∧
    inReset (setVd s 0 { vdAt s 0 with resetting := some (0, false) }) (ctxAt s 0).vd = true := by decide +kernel
theorem witness_FabricEvents_parts :
    let p := sentBed (.dput 1 25 1 0 plainSy) (.sent 0 0) 0; let g := sentBed (.dget 1 1 25 plainSy) (.sent 0 0) 0
    (p.core.job ≠ none ∧ (ctxAt p p.core.ctx).state ≠ .halted ∧ (ctxAt (haltedBed p) p.core.ctx).state = .halted) ∧
    (partOf p).any (fun x => decide ((partAt (partsOf x.1) x.2).state = .sent 0 0) && !returnsBytes x.1) = true ∧
    (partOf g).any (fun x => decide (partSize x.1 x.2 = 16) && returnsBytes x.1) = true ∧ (List.replicate 16 (0 : Byte)).length = 16 ∧
    (partOf (sentBed (.dput 1 25 1 0 plainSy) (.sent 15 3) 0)).any (fun x => decide ((partAt (partsOf x.1) x.2).state = .sent 15 3)) = true ∧
    (∀ due ∈ [0, 3500], let r := sentBed (.dput 1 25 1 0 plainSy) (.refused due 1) 0
      (partOf r).any (fun x => decide ((partAt (partsOf x.1) x.2).state = .refused due 1)) = true) ∧
    (∀ n ∈ [0, 1], let r := sentBed (.dput 1 25 1 0 plainSy) (.refused 0 n) 0
      (partOf r).any (fun x => decide (lowPart x.1 = 0 ∧ x.2 = 0 ∧ partSize x.1 x.2 = 16) && !heldBefore r.core 1 (partAt (partsOf x.1) x.2).seq) = true ∧
      credited r (flowAt r.core 1) 16 = true ∧ reachable r (flowPeer (flowAt r.core 1)) = true ∧
      (∀ port < 32, funded { r with purses := [] } 5 port 0 = false ∧ funded { r with purses := [(purseKey 5 port 0, ⟨1000, 0, true, false⟩)] } 5 port 0 = true) ∧
      credited r { flowAt r.core 1 with fcfg := 7 + 2 ^ 12 } 65537 = false) ∧
    (let t := { p with now := 3500000 }
     ∃ e ∈ t.core.qdata, t.core.qdata.head? = some e ∧ linkFlow e.instr = some 1 ∧
       ∃ q ∈ partsOf e, (∃ a b, q.2.state = .sent a b) ∧ q.2.back = none ∧ q.2.sentAt + 3500000 ≤ t.now) ∧
    bed.core.qdata = [] := by
  refine ⟨?_, ?_, ?_, ?_, ?_, ?_, ?_, ⟨_, List.mem_cons_self .., rfl, ?_, _, List.mem_cons_self .., ⟨_, _, rfl⟩, ?_, ?_⟩, ?_⟩ <;> decide +kernel
theorem test_sixteenth_refusal_ends_the_flow :
    (after (.partRefused 0 (1 * 2 ^ 24) 2) (sentBed (.dput 1 25 1 0 plainSy) (.sent 15 0) 0)).map (fun t => t.core.qdata.map fun e => e.part) =
      some [.abandoned .remoteRefusedLimit] := by decide +kernel
/-- Flow 2 with an open frame of `n` rows, which closes after 1,750 cycles. -/
def frameFlow (n : Nat) : Flow := { Flow.idle with fcfg := 7 + 2 ^ 13 + 2 ^ 24, fsts := BitVec.ofNat 64 (1 + n * 2 ^ 40), hdr := 0x100000 }
def frameBed (n now : Nat) : State := { linkBed with now := now, core := { linkBed.core with flows := tabSet Flow.idle linkBed.core.flows 2 (frameFlow n) } }
/-- A DFENCEF that has waited since cycle 0. -/
def lateEntry (limit : Word) : QEntry :=
  { (default : QEntry) with instr := .dfencef 1 26 2 plainSy, stream := .d, seq := 7, hvals := [0, limit], stall := some (0, 30) }
def lateBed (limit : Word) (now : Nat) : State := { linkBed with now := now, core := { linkBed.core with qdata := [lateEntry limit] } }
theorem witness_FabricEvents_frames :
    enginesRun (frameBed 3 1750) 0 = true ∧ flowAt (focusOn (frameBed 3 0) 0).core 2 = frameFlow 3 ∧ flowAt (focusOn (frameBed 0 0) 0).core 2 = frameFlow 0 ∧
    flowRows (frameFlow 3) ≠ 0 ∧ flowRows (frameFlow 0) = 0 ∧ (frameFlow 3).since + flowFtim (frameFlow 3) * 1750 = 1750 :=
  by refine ⟨?_, rfl, rfl, ?_, ?_, ?_⟩ <;> decide +kernel
theorem witness_FabricEvents_late :
    enginesRun (lateBed 2 0) 0 = true ∧ workEntry (focusOn (lateBed 2 3500) 0) .data = some (lateEntry 2) ∧
    workEntry (focusOn (lateBed 0 3500) 0) .data = some (lateEntry 0) ∧ (lateEntry 2).stall = some (0, 30) ∧ (lateEntry 2).stopped = false ∧
    (((lateEntry 2).hvals.drop 1).headD 0).toNat = 2 :=
  by refine ⟨?_, rfl, rfl, rfl, rfl, ?_⟩ <;> decide +kernel
theorem witness_FabricEvents_groups :
    let j (r : Nat) : JoinRec := ⟨9, r, 2, [], [0, 0], some (0, 1)⟩
    let s : State := { bed with joins := [j 0, j 1], core := { bed.core with groups := [(1, { GroupSlot.free with state := 1, key := 9 })] } }
    let y : Contribution := { (default : Contribution) with key := 9, rank := 1 }
    groupReady bed 9 = false ∧ groupReady s 9 = true ∧ (j 0).place = some (0, 1) ∧ (groupAt (focusOn s 0).core 1).state = 1 ∧
    (groupAt (focusOn s 0).core 1).key = 9 ∧ keyHeld s y.key = true ∧ (∀ x ∈ s.contribs, x.key ≠ y.key ∨ x.seq ≠ y.seq ∨ x.rank ≠ y.rank) ∧ keyHeld bed 9 = false ∧
    (∀ x ∈ s.contribs, x.sent = false) ∧ { y with sent := true }.sent = true ∧ s.joins.find? (fun x => x.key = 9 && x.rank = 1 && x.place.isSome) = some (j 1) := by
  decide +kernel

/-! ### Effects of the array, of the data engine, of adapters, groups and links -/

/-- A core that holds the array with a right that is not due. -/
def heldArray : State := { grantBed 0 false with core := { (grantBed 0 false).core with arr := ArrayState.fresh } }
theorem witness_ArrayResults :
    let s := heldArray
    let e : QEntry := { entryFor (.xpass false 1 2 plainSy) [region 3 1024 4 1 2 16, region 3 2048 4 1 2 16] 2 with stream := .x, started := true }
    let map : State := { s with core := { s.core with spad := tabSetRange 0 [] 0 (List.replicate 128 0xFF) } }
    (s.core.lease = .held ∧ grantDue s s.focus = false ∧ e.started = true ∧ bitField e.vctl.toNat 4 4 = 0 ∧ tabWf 0 s.core.arr.acc = true ∧ tabWf 0 s.core.arr.side = true) ∧
    (descOf (BitVec.ofNat 256 (2 ^ 61 + 2 ^ 179))).amv = true ∧
    ((upFrom 0 16).all fun g => spadOk map (8 * g) 8 && spadSound map (8 * g) 8 && decide (bitField (leNat (spadBytes map (8 * g) 8)) 0 16 = 0xFFFF)) = true ∧
    descRows (descOf (region 3 2048 4 1 2 16)) ≤ 256 ∧
    ((upFrom 0 8).all fun k => isRead s (region 3 1024 4 1 2 16) k && isRead s (region 3 2048 4 1 2 16) k) = true ∧ mapSlot s.core.arr 0 = 0xFFFF ∧
    (isPut s (f32At 0) 0 = true ∧ drainBankOk s.core.arr (descOf (f32At 0)) = true ∧ 0 < 1 * descCount (descOf (f32At 0)) ∧ isRead s (f32At 64) 0 = true) ∧
    (s.core.arr.alive = false ∧ s.core.arr.sideLive = false) := by decide +kernel
theorem witness_ArrayResults_map : ∀ g < 16, bitField (2 ^ 64 - 1 - 2 ^ 16 * (2 ^ 16 - 1)) 16 16 = 0 ∧ bitField (2 ^ 64 - 1 - 2 ^ 16 * (2 ^ 16 - 1)) 0 16 = 0xFFFF := by
  decide +kernel
/-- The pages of a pass without adapters. -/
theorem witness_ArrayResults_pages (e : QEntry) (a b : Nat) (y : Sync) (h : e.instr = .xpass false a b y) : fetchPass heldArray e = .ok heldArray := by
  simp [fetchPass, h]

/-- A tensor in memory whose page is SOFT-ABSENT. -/
def tensorAt (va : Nat) : DescWord := BitVec.ofNat 256 ((region 0 va 4 4 1 0).toNat + 2 ^ 62)
theorem witness_DataElements :
    (let e := entryFor (.dcopy .rows 1 2 none plainSy) [f32At 0, f32At 64, region 14 256 4 0 1 0] 4
     descScale (descOf (f32At 0)) = none ∧ bitField e.vctl.toNat 4 4 = 0 ∧ e.progress < e.count ∧ isPut bed (f32At 0) 0 = true ∧ isRead bed (f32At 64) 0 = true ∧
     isPut bed (region 14 256 4 0 1 0) 0 = true) ∧
    (let x := descOf (tensorAt 0x100000)
     let s := pageBed (plainLeaf 5 + 256) [] []
     x.type = 3 ∧ descScale x = none ∧ (elemAt x 0).1 = 0x100000 ∧
       (match translate s (engineAccessor s) .read 0x100000 with | .ok (.absent l) => decide (pteClass l.entry ≠ 3) | _ => false) = true) ∧
    (let s : State := { bed with core := { bed.core with spad := tabSetRange 0 [] 128 (natLe 4 1 ++ natLe 4 4) } }
     let n (k : Nat) := indexVal (valOf s (descOf (i32At 128)) k, 0)
     0 < 1 * descCount (descOf (f32At 64)) ∧ isRead s (i32At 128) 0 = true ∧ 0 ≤ n 0 ∧ n 0 < descRows (descOf (region 0 64 4 4 4 16)) ∧ ¬ n 1 < descRows (descOf (region 0 64 4 4 4 16)) ∧
     isPut s (region 0 64 4 4 4 16) 4 = true ∧ isRead s (region 0 64 4 4 4 16) 4 = true) := by decide +kernel

/-- Adapter 3 in a state, with references, and a core with slots whose scratchpad holds its handle; the virtual device may bind one slot and caches in
vault 0. -/
def handleBed (state crefs : Nat) (slots : Tab (Option (Nat × Nat × Nat))) : State :=
  let s := adapterBed state 1 crefs
  { s with
    vds := [(0, { VDev.reset with rcd := 2 ^ 64 + 2 ^ 256 + 2 ^ 1536 })]
    core := { s.core with slots := slots, spad := tabSetRange 0 [] 512 (natLe 8 (3 * 2 ^ 44 + 1)) } }
def handles : DescWord := region 15 512 1 8 1 0
theorem witness_AdapterResults :
    let h := 3 * 2 ^ 44 + 1
    (∀ s ∈ [handleBed 1 0 [], handleBed 3 1 [(5, some (3, 1, 1))], handleBed 4 2 []],
      let x := attAt s (h / 2 ^ 44)
      tabWf 0 s.att = true ∧ attState x ≠ 0 ∧ attTag x = h % 2 ^ 44 ∧ attWorld x = (curCtx s).world ∧ attState x ≠ 5 ∧ attLayers x = 1 ∧ attVersion x = 1 ∧
        attVersion x ≠ 0xFFFFFF ∧ attOrefs x = 0 ∧ windowFits s 3 x 0 1 = true) ∧
    rawOf (handleBed 1 0 []) (descOf handles) 0 = h ∧ isRead (handleBed 1 0 []) handles 0 = true ∧ spadOk (handleBed 1 0 []) 0 4 = true ∧
    (attState (attAt (handleBed 5 1 []) 3) = 5 ∧ attTag (attAt bed 3) ≠ h % 2 ^ 44) ∧
    (let s := handleBed 1 0 []
     quotaCount s (curCtx s).vd (attClass (attAt s 3)) + 1 ≤ vdField s (curCtx s).vd (256 + 16 * attClass (attAt s 3)) 16 ∧ tabGet none s.core.slots 0 = none) ∧
    (∀ n ∈ [1, 2], attCrefs (attAt (handleBed 3 n []) 3) = n) ∧
    (let s := handleBed 3 1 [(5, some (3, 1, 1))]
     let s := { s with core := { s.core with spad := tabSetRange 0 [] 0 (natLe 2 5 ++ natLe 2 0xFFFF ++ natLe 2 6) } }
     ((upFrom 0 3).all fun k => spadOk s (2 * k) 2 && spadSound s (2 * k) 2) = true ∧ leNat (spadBytes s 0 2) = 5 ∧ leNat (spadBytes s 2 2) = 0xFFFF ∧
     leNat (spadBytes s 4 2) = 6 ∧ tabGet none s.core.slots 5 = some (3, 1, 1) ∧ tabGet none s.core.slots 6 = none) := by decide +kernel

/-- The group engine's entry of an instruction on slot 1, its announcement sent or not, and the contributions of both members. -/
def groupEntry (i : Instr) (started sent : Bool) : QEntry :=
  { entryFor i [f32At 0, f32At 64] 4 with stream := .d, part := .group 0 sent, started := started }
def told (rank kind : Nat) (n : Nat) : Contribution := ⟨5, 0, rank, kind, 0, n, 0, 0, false, (List.replicate n 0), (List.replicate n (packReal xZero)), true⟩
theorem witness_CollectiveResults :
    let g := groupAt groupBed.core 1
    let from_ (cs : List Contribution) (q : Nat) := (cs.filter fun c => c.key = g.key && c.seq = 0).find? fun c => c.rank = q
    let both := [told 0 2 4, told 1 2 4]
    g.state = 2 ∧ g.size = 2 ∧ g.key = 5 ∧ g.rank = 0 ∧ (groupAt bed.core 1).state ≠ 2 ∧ ((0 : Word).toNat % 65536 = g.rank) ∧
    ((upFrom 0 4).all fun j => isRead groupBed (f32At 64) j && isPut groupBed (f32At 0) j) = true ∧ 2 ≤ (groupEntry .nop true true).descs.length ∧
    (∀ q < g.size, ∃ c ∈ both, c.rank = q ∧ c.sent = true) ∧ (∀ c ∈ both, c.kind ≠ 4 ∧ c.op = 0) ∧ (∃ c ∈ [told 0 2 4, told 1 4 0], c.kind = 4) ∧
    (∃ z, from_ [told 0 2 4, told 1 3 4] 0 = some z ∧ ∃ c ∈ [told 0 2 4, told 1 3 4], z.kind ≠ c.kind) ∧
    (∀ q < 2, (from_ both q).any (fun c => decide (c.vals[0]? = some (packReal xZero) ∧ c.bits[0]? = some 0)) = true) ∧
    (both.find? fun c => c.rank = c.root).isSome = true ∧ (tree (combine false (xAdd false)) ((upFrom 0 2).map fun _ => (xZero, 0))).isSome = true := by
  refine ⟨?_, ?_, ?_, ?_, ?_, ?_, ?_, ?_, ?_, ?_, ?_, ⟨told 0 2 4, ?_, ?_⟩, ?_⟩ <;> decide +kernel

/-- A single port that reaches a package sends for it, whichever the choice. -/
theorem sendingPort_one {s : State} {pkg n : Nat} (h : ((upFrom 0 32).filter fun p => bitAt (routeOf s pkg) p && !s.portsDown.contains p) = [n]) :
    sendingPort s pkg = n := by
  unfold sendingPort; rw [h]; simp [Nat.mod_one]
/-- The peer reached by port 0 alone, and operands of 4 elements of 4 bytes: one part of 16 bytes. -/
def onePort : State := { linkBed with portsDown := upFrom 1 31 }
theorem witness_LinkParts_port : maySend onePort (curCtx onePort).vd (flowAt onePort.core 1) 16 = true := by
  unfold maySend
  rw [sendingPort_one (n := 0) (by decide +kernel)]
  decide +kernel
theorem witness_LinkParts :
    let s := onePort
    let local_ := tabGet 0 s.core.descs 1
    let far := descOf (tabGet 0 s.core.descs 25)
    reachable s (flowPeer (flowAt s.core 1)) = true ∧ far.type = 5 ∧ flowKind (flowAt s.core 1) ≠ 1 ∧ flowPbe (flowAt s.core 1) = true ∧
    ((upFrom 0 4).all fun k => isRead s local_ k && isPut s local_ k) = true ∧ isRead s (i32At 2048) 0 = true ∧ isPut s (i32At 2304) 0 = true ∧
    (∀ k < 4, (elemAt far k).1.toNat = (elemAt far 0).1.toNat + k * 4) ∧ ceilDiv 4 (224 / 4) = 1 ∧ min (224 / 4) 4 = 4 ∧
    (partsOf (entryFor (.dput 1 25 1 0 plainSy) [] 4) = [] ∧ Part.fresh.state = .unsent ∧ Part.fresh.back = none) ∧
    (let e : QEntry := { entryFor (.dget 1 1 25 plainSy) [] 4 with part := .parts [(0, ⟨.sent 0 0, 0, [], 0, some (List.replicate 16 0)⟩)] }
     (tabGet Part.fresh (partsOf e) 0).back = some (List.replicate 16 0) ∧ (tabGet Part.fresh (partsOf e) 0).state ≠ .performed) ∧
    writesBefore s.core 1 7 = false ∧ writesBefore (issued (.dput 1 25 1 0 plainSy) linkBed).core 1 7 = true ∧
    (∀ st ∈ [0, 1, 2], flowState { Flow.idle with fsts := BitVec.ofNat 64 st } = st) ∧ tabWf Flow.idle s.core.flows = true ∧ s.core.qdata = [] := by
  decide +kernel

/-! ### Clauses on waits, merges, pages and frames -/

/-- A DGET whose bytes came back while its job was saved, towards the scratchpad or memory, and a merge that is asked for. -/
def mergeBed (dd : DescWord) (l : Nat) : State :=
  let s := pageBed l [] []
  { s with core := { linkBed.core with
    merge := some []
    qdata := [{ (default : QEntry) with instr := .dget 1 1 25 plainSy, stream := .d, seq := 7, count := 4, descs := [dd, tabGet 0 linkBed.core.descs 25],
                                        part := .parts [(0, ⟨.sent 0 0, 0, [], 0, some (List.replicate 16 0)⟩)] }] } }
/-- A group instruction at its end, before or behind a SEMSET of its stream that still stands in the data engine's queue. -/
def syncing (seq : Nat) : State :=
  { groupBed with core := { groupBed.core with
    qdata := [{ (default : QEntry) with instr := .semset 3 1 0, stream := .d, seq := 6 }]
    qgrp := [{ (default : QEntry) with instr := .gsync 1 plainSy, stream := .d, seq := seq, started := true, part := .group 0 true, descs := [0, 0] }] } }
/-- A core that waits for a reclaim of a live array state, whose save area stands on a page under a leaf. -/
def lapsedBed (l : Nat) : State :=
  let s := setPurse (saveBed 3) 1 0 0 ⟨100, 0, true, false⟩
  { s with
    mem := tabSetRange 0 s.mem 0x30080 (natLe 8 l)
    core := { s.core with lease := .reclaim, arr := { ArrayState.fresh with alive := true },
                          qmat := [{ (default : QEntry) with instr := .xcellop 1 plainSy, stream := .x }] } }
theorem witness_EngineEvents_merge :
    (let s := focusOn (mergeBed (tensorAt 0x100000) (plainLeaf 5 + 4096)) 0
     enginesRun s 0 = true ∧ s.core.merge = some [] ∧ (mergeParts s).2 = true ∧ (mergeParts s).1.core.merge.isSome = true) ∧
    (let s := focusOn (mergeBed (f32At 0) (plainLeaf 5)) 0
     enginesRun s 0 = true ∧ s.core.merge = some [] ∧ (mergeParts s).2 = false) := by decide +kernel
theorem witness_EngineEvents_order :
    ∀ q ∈ [(5, false), (7, true)], let b := focusOn (syncing q.1) 0
      enginesRun b 0 = true ∧ b.core.merge = none ∧
      (workEntry b .group).any (fun e => updateBefore b.core .group e = q.2 && okB (runUnit { b with cur := e.stream } e) (·.done)) = true := by decide +kernel
theorem witness_EngineEvents_reclaim :
    ∀ q ∈ [(plainLeaf 5 + 4096, true), (plainLeaf 5, false)], let n := noteShort (lapsedBed q.1) 0
      (arrayAt n 0).holder = none ∧ leaseOrder n 0 = [0] ∧ (focusOn n 0).core.lease = .reclaim ∧
      (match restoredArray n 0 with | .error .busy => q.2 | .ok _ => !q.2 | _ => false) = true := by decide +kernel
/-- A GJOIN that waits, its members joined. -/
def groupWait : State :=
  let j (r : Nat) : JoinRec := ⟨9, r, 2, [], [0, 0], some (0, 1)⟩
  let s := waiting bed .d (.group 1)
  { s with joins := [j 0, j 1], core := { s.core with groups := [(1, { GroupSlot.free with state := 1, key := 9 })] } }
theorem witness_StreamEvents_waits :
    (coreRuns groupWait 0 = true ∧ waitHolds groupWait groupWait.core .d (.group 1) = true) ∧
    (let s := { waiting bed .c (.takes [4]) with now := 1024 }
     0 = s.focus ∧ s.pin = none ∧ (pinDue s).pin = some (.event (.waitTimeout 0 .c)) ∧ watchdogDue s 0 .c = true) ∧
    (let s := { stuckBed 1024 with pin := none }
     (pinDue s).pin = some (.event (.syncDeadlock 0)) ∧ detectorDue s (coreAt s 0) = true ∧ waitHolds s s.core .v (.takes [4]) = false) := by decide +kernel
theorem witness_TrapsServed_waits :
    (∀ w ∈ [Wait.engines true 0, .sealing 4099 0, .page 0x100000, .ring 2 true 2, .lease, .result 4], let s := waiting trapBed .d w
      (streamOf s.core .d).state = .wait ∧ (streamOf s.core .d).pending.map (·.on) = some w ∧ ∀ e ∈ s.core.qdata ++ s.core.qmat, e.seq ≠ 4) ∧
    (jobAt fullBed 0).isSome = true ∧ candidateWaits fullBed { perm 2 with cores := upFrom 0 8 } = true := by decide +kernel
/-- A table frame that migrates, a frame that is no longer FREE, and one that is. -/
theorem witness_PowerAndPageEvents_frames :
    let s := requestBed (plainLeaf 5 + 256) 7
    let w (s : State) (busy : Bool) : Bool := match walk s 0 (16 * 65536) with | .error .busy => busy | _ => !busy
    w { s with pot := tabSet ⟨0, 0⟩ s.pot 3 ⟨1, 3⟩ } true = true ∧ w s false = true ∧ (potAt s 7).state = 0 ∧
    (potAt { s with pot := tabSet ⟨0, 0⟩ s.pot 7 ⟨1, 1⟩ } 7).state ≠ 0 := by decide +kernel
theorem witness_HostEvents_absent :
    (6 ≤ bed.phase ∧ inReset bed 0 = false) ∧ ¬ (6 ≤ { bed with phase := 2 }.phase) ∧ (vdAt bed 0).tdisp = .unlocked := by decide +kernel
theorem witness_ManagementEvents_lent :
    let s := { bed with margins := [(5, Margin.lent 2 1)] }
    5 ∉ s.fenced ∧ tabGet .home s.margins 5 = .lent 2 1 ∧ tabGet .home s.margins 6 = .home ∧ attState (attAt s 3) = 0 := by decide +kernel
/-- An element of a tensor that is here, on a page of class DEVICE, absent, unmapped, or beyond the address space. -/
theorem witness_DataElements_pages :
    let answer (l : Nat) (f : Res Xlat → Bool) : Bool := f (translate (pageBed l [] []) (engineAccessor (pageBed l [] [])) .read 0x100000)
    let e (i : Instr) : QEntry := entryFor i [tensorAt 0x100000, region 14 256 4 0 1 0] 4
    answer (plainLeaf 5) (fun r => match r with | .ok (.here l pa) => decide (pteClass l.entry ≠ 3 ∧ pa = 0x50000) | _ => false) = true ∧
    answer (plainLeaf 5 + 4) (fun r => match r with | .ok (.here l _) => decide (pteClass l.entry = 3) | _ => false) = true ∧
    answer (plainLeaf 5 + 256) (fun r => match r with | .ok (.absent l) => decide (pteClass l.entry ≠ 3) | _ => false) = true ∧
    answer 0 (fun r => match r with | .error (.trap _) => true | _ => false) = true ∧
    (0 < (e (.dpref 1 plainSy)).count ∧ (elemAt (descOf (tensorAt 0x100000)) 0).1 = 0x100000 ∧ 2 ^ 55 < (elemAt (descOf (tensorAt (2 ^ 55 - 8))) 2).1 + 4) ∧
    (isRead bed (region 14 256 4 0 1 0) 0 = true ∧ { e (.dpreq .elems 1 2 plainSy) with part := .pages [0] [16], progress := 4 }.part = .pages [0] [16] ∧
      (elemAt (descOf (tensorAt 0x100000)) 0).1.toNat / 65536 ∈ [16]) ∧
    writeBackDue { memBed [] with l2 := [] } 0x50000 = none ∧ (writeBackDue { memBed [] with l2 := [(0xA00, some ⟨1, 0, 0⟩)], purses := [] } 0x50000).isSome = true := by
  decide +kernel
/-- The operands of the forms that are not of two sources, and a block of a block-scaled destination that VFMA adds to. -/
theorem witness_VectorElements_forms :
    let s := bed
    let d := descOf (f32At 0)
    let m := descOf (region 14 256 4 0 1 0)
    let b := descOf (scaledAt 0)
    descScale d = none ∧ isPut s (f32At 0) 0 = true ∧ pairsWith m d ∧ isRead s (region 14 256 4 0 1 0) 0 = true ∧ isRead s (f32At 0) 0 = true ∧
    (entryFor (.vfma 1 2 3 none plainSy) [f32At 0, f32At 64, f32At 128, f32At 0] 4).descs.getD 3 0 = f32At 0 ∧
    (descScale b).isSome = true ∧ spadOk s 1024 1 = true ∧ spadSound s 1024 1 = true ∧ i4Reserved (descFmt b) 0 = false ∧
    (upFrom 0 16).all (fun k => spadOk s k 1 && spadSound s k 1) = true := by
  unfold pairsWith; decide +kernel
/-- Flow 2 with an open frame of `rows` rows at an address of the peer. -/
def openFrame (rows hdr : Nat) : State :=
  { linkBed with core := { linkBed.core with flows := tabSet Flow.idle linkBed.core.flows 2 { (frameFlow rows) with hdr := hdr } } }
/-- A row that goes into the open frame, one that fills it, and rows before which it closes. -/
theorem witness_LinkParts_frames :
    (∀ r ∈ [(0, 0x1000), (1, 0x1000), (119, 0x1000), (120, 0x1000), (1, 0x2000)],
      let s := issued (.dput 2 25 1 30 plainSy) (openFrame r.1 r.2)
      let e := headOf s .data
      e.descs.length = 3 ∧ e.count = 1 ∧ flowKind (flowAt s.core 2) = 1 ∧ reachable s (flowPeer (flowAt s.core 2)) = true ∧
      (flowParts s.core 2).length < 2 ^ 20 ∧ partAt (partsOf e) 0 = Part.fresh ∧ isRead s (e.descs.getD 2 0) 0 = true ∧
      ((upFrom 0 4).all fun k => isRead s (e.descs.getD 1 0) k) = true) ∧
    (∀ n ∈ [0, 1], let s := issued (.dput 2 25 1 30 plainSy) (openFrame n 0x1000)
      okB (runUnit s (headOf s .data)) (fun o => flowRows (flowAt o.s.core 2) = n + 1) = true) ∧
    descBase (descOf (tabGet 0 linkBed.core.descs 25)) = 0x1000 ∧ tabWf Flow.idle (openFrame 1 0).core.flows = true := by decide +kernel
/-- Remote elements in two runs: rows of two elements 64 bytes apart. -/
theorem witness_LinkParts_runs :
    let far := descOf (BitVec.ofNat 256 (5 * 2 ^ 61 + 0x1000 + 2 * 2 ^ 64 + 4 * 2 ^ 80 + 2 * 2 ^ 112 + 64 * 2 ^ 128))
    [(elemAt far 0).1, (elemAt far 1).1, (elemAt far 2).1, (elemAt far 3).1] = [0x1000, 0x1004, 0x1040, 0x1044] := by decide +kernel

/-! ### Every step -/

theorem settled_reset : settled State.reset := by
  refine ⟨?_, ?_⟩
  · intro p r h; simp [State.reset, tabGet] at h
  · intro n h; exfalso
    simp [coreAt, State.reset, Core.reset, tabGet] at h
/-- After reset, the first step. -/
theorem witness_StepsSettle : settled State.reset ∧ ∃ t, step State.reset = .next t := ⟨settled_reset, _, rfl⟩
theorem coreTidy_reset : coreTidy Core.reset := by
  unfold coreTidy
  refine ⟨?_, rfl, rfl, rfl, rfl, rfl, rfl, ?_⟩ <;> simp [Core.reset, Stream.reset, tabSorted]
theorem tidy_reset : tidy State.reset := by
  unfold tidy
  refine ⟨rfl, rfl, ?_, rfl, rfl, rfl, rfl, rfl, rfl, coreTidy_reset, ?_, ?_, ?_⟩ <;> simp [State.reset]
/-- After reset, the first step again. -/
theorem witness_StepsKeepTables : tidy State.reset ∧ ∃ t, step State.reset = .next t := ⟨tidy_reset, _, rfl⟩

end Sys2Proof.Tests
end

section
/-! PROOF. The state after reset and bring-up (R425, R453): every accessor gives the unit's reset record. -/

namespace Sys2Proof.Proofs
open Sys2Proof.Machine Sys2Proof.Claims

/-! ### The units of the package at reset -/

@[simp] theorem coreAt_reset (n : Nat) : coreAt State.reset n = Core.reset := by simp [coreAt, State.reset, tabGet]
@[simp] theorem ctxAt_reset (k : Nat) : ctxAt State.reset k = Context.reset := rfl
@[simp] theorem vdAt_reset (v : Nat) : vdAt State.reset v = VDev.reset := rfl
@[simp] theorem queueAt_reset (v q : Nat) : queueAt State.reset v q = Queue.reset := rfl
@[simp] theorem purseAt_reset (k n v : Nat) : purseAt State.reset k n v = Purse.reset := rfl
@[simp] theorem streamOf_reset (st : StreamName) : streamOf Core.reset st = Stream.reset := by cases st <;> rfl

/-- A core after reset has empty tables and nothing queued. -/
theorem coreTidy_coreReset : coreTidy Core.reset :=
  ⟨by simp [Core.reset, Stream.reset, tabSorted], rfl, rfl, rfl, rfl, rfl, rfl, by simp [Core.reset, Stream.reset]⟩

/-- No partition record waits, and no core has a job for its detector to count on (R318, R384). -/
theorem settled_stateReset : settled State.reset :=
  ⟨fun p r h => by simp [State.reset, tabGet] at h, fun n h => by simp [Core.reset] at h⟩

/-- Every table of the package is empty. -/
theorem tidy_stateReset : tidy State.reset :=
  ⟨rfl, rfl, by simp [State.reset], rfl, rfl, rfl, rfl, rfl, rfl, coreTidy_coreReset, by simp [State.reset], by simp [State.reset], by simp [State.reset]⟩

/-- Settles O58: every record of the package stands at its reset value, and with every table empty the two invariants hold. -/
theorem resetState : Obligations.ResetState := by
  refine ⟨settled_stateReset, tidy_stateReset, rfl, rfl, fun k => ?contexts, fun n st => ?cores, fun v q => ?devices, fun k n v => ?purses,
    fun _ => rfl, fun _ => rfl⟩
  case contexts => rw [ctxAt_reset]; exact ⟨rfl, rfl, rfl, rfl, rfl⟩
  case cores =>
    rw [coreAt_reset, streamOf_reset]
    exact ⟨rfl, rfl, rfl, rfl, fun _ => rfl⟩
  case devices =>
    rw [queueAt_reset, vdAt_reset]
    exact ⟨rfl, rfl, rfl, rfl, rfl, rfl, rfl, rfl, rfl, rfl, rfl, rfl, rfl⟩
  case purses => rw [purseAt_reset]; exact ⟨rfl, rfl⟩

end Sys2Proof.Proofs
end

section
/-! PROOF. The host port: which requests are accepted, what an accepted one does, and the function's interface and reset (R337 to R348, R367 to R369,
R397, R426 to R431, R449). -/

namespace Sys2Proof.Proofs
open Sys2Proof.Machine Sys2Proof.Claims

variable {s : State} {v : Nat} {tee : Option Nat}

/-! ### Virtual devices and fields -/

/-- A virtual device reads as it was written. -/
theorem vdAt_setVd_same (h : tabSorted s.vds = true) (d : VDev) : vdAt (setVd s v d) v = d := by simp [vdAt, setVd, tabGet_set _ h]

theorem bitField_low (x w : Nat) : bitField x 0 w = x % 2 ^ w := by rw [bitField, Nat.pow_zero, Nat.div_one]

theorem bitAt_eq_testBit (x i : Nat) : bitAt x i = x.testBit i := by simp [bitAt, Nat.testBit_eq_decide_div_mod_eq]

theorem bitAt_eq_false_iff {x i : Nat} : bitAt x i = false ↔ x / 2 ^ i % 2 = 0 := by rw [bitAt, decide_eq_false_iff_not]; omega

@[simp] theorem streamOfNum_streamNum (st : StreamName) : streamOfNum (streamNum st) = st := by cases st <;> rfl

/-- Two halves of 32 bits, laid side by side in a word. -/
theorem ofNat_halves (hi lo : Nat) (hh : hi < 2 ^ 32) (hl : lo < 2 ^ 32) :
    BitVec.ofNat 64 (hi * 2 ^ 32 + lo) = BitVec.ofNat 64 hi <<< 32 ||| BitVec.ofNat 64 lo := by
  apply BitVec.eq_of_toNat_eq
  have hs : hi <<< 32 < 2 ^ 64 := by rw [Nat.shiftLeft_eq]; omega
  rw [BitVec.toNat_or, BitVec.toNat_shiftLeft, BitVec.toNat_ofNat, BitVec.toNat_ofNat, BitVec.toNat_ofNat, Nat.mod_eq_of_lt (a := hi) (by omega),
    Nat.mod_eq_of_lt (a := lo) (by omega), Nat.mod_eq_of_lt hs, ← Nat.shiftLeft_add_eq_or_of_lt hl, Nat.shiftLeft_eq, Nat.mod_eq_of_lt (by omega)]

/-- A 4-byte write of a register's lower half. -/
theorem setField_lower_half (x : Word) (value : Nat) :
    BitVec.ofNat 64 (setField x.toNat 0 32 (bitField value 0 32)) = (x >>> 32) <<< 32 ||| BitVec.ofNat 64 (value % 2 ^ 32) := by
  have hx := x.isLt
  have hf : setField x.toNat 0 32 (bitField value 0 32) = x.toNat / 2 ^ 32 * 2 ^ 32 + value % 2 ^ 32 := by simp only [setField, bitField]; omega
  have hs : x >>> 32 = BitVec.ofNat 64 (x.toNat / 2 ^ 32) := by
    rw [← Nat.shiftRight_eq_div_pow, ← BitVec.toNat_ushiftRight, BitVec.ofNat_toNat, BitVec.setWidth_eq]
  rw [hf, hs, ofNat_halves _ _ (by omega) (by omega)]

/-- A 4-byte write of a register's upper half. -/
theorem setField_upper_half (x : Word) (value : Nat) :
    BitVec.ofNat 64 (setField x.toNat 32 32 (bitField value 0 32)) = BitVec.ofNat 64 (value % 2 ^ 32) <<< 32 ||| BitVec.ofNat 64 (x.toNat % 2 ^ 32) := by
  have hx := x.isLt
  have hf : setField x.toNat 32 32 (bitField value 0 32) = value % 2 ^ 32 * 2 ^ 32 + x.toNat % 2 ^ 32 := by simp only [setField, bitField]; omega
  rw [hf, ofNat_halves _ _ (by omega) (by omega)]

/-! ### Which requests are accepted (R430) -/

theorem vfPresent_iff : vfPresent s v = true ↔ 6 ≤ s.phase ∧ v < 384 := by simp [vfPresent]

/-- R430 for a page of BAR 0 that is not shared, and for the memory window. -/
theorem barAccepts_private_iff : barAccepts s v tee true = true ↔
    ((vdAt s v).tdisp = .unlocked ∨ (vdAt s v).tdisp = .locked) ∧ tee = none ∨ (vdAt s v).tdisp = .run ∧ tee ≠ none ∧ (vdAt s v).ide = tee := by
  cases ht : (vdAt s v).tdisp <;> cases tee <;> simp [barAccepts, ht]

/-- The requests to such a page that R430 refuses, by the function's state. -/
theorem barAccepts_private_refuses (h : ((vdAt s v).tdisp = .unlocked ∨ (vdAt s v).tdisp = .locked) ∧ tee ≠ none ∨
    (vdAt s v).tdisp = .run ∧ (tee = none ∨ (vdAt s v).ide ≠ tee) ∨ (vdAt s v).tdisp = .error) : barAccepts s v tee true = false := by
  rw [← Bool.not_eq_true, barAccepts_private_iff]
  cases ht : (vdAt s v).tdisp <;> simp [ht] at h ⊢ <;> tauto

/-- An unlocked function accepts every request without TEE. -/
theorem barAccepts_unlocked (h : (vdAt s v).tdisp = .unlocked) (priv : Bool) : barAccepts s v none priv = true := by simp [barAccepts, h]

/-- The function is there and is not being reset (R397, R453). -/
def fnAnswers (s : State) (v : Nat) : Prop := vfPresent s v = true ∧ inReset s v = false

theorem fnAnswers_iff : fnAnswers s v ↔ (6 ≤ s.phase ∧ v < 384) ∧ inReset s v = false := by rw [fnAnswers, vfPresent_iff]

theorem hostWrite_of_accepts (h : fnAnswers s v) {off : Nat} (ha : barAccepts s v tee (barPrivate off) = true) (r : State) :
    hostWrite s v off tee r = r := by simp [hostWrite, h.1, h.2, ha]

theorem hostWrite_of_refuses {off : Nat} (h : inReset s v = true ∨ barAccepts s v tee (barPrivate off) = false) (r : State) :
    hostWrite s v off tee r = s := by rcases h with h | h <;> simp [hostWrite, h]

/-- A write of TAIL, of EVHEAD or of a debug command that is not accepted is discarded (R430), and so is one during a reset (R397). -/
theorem exec_of_discarded (h : inReset s v = true ∨ barAccepts s v tee true = false) (q value : Nat) :
    ∀ i ∈ [Instr.qtailWrite v q value tee, .evheadWrite v value tee, .dbgReturn v tee, .dbgStep v tee, .dbgDisplaced v tee, .dbgKill v tee,
      .dbgInval v tee], exec i s = .next s := by
  have hw (r : State) : hostWrite s v 0x1000 tee r = s := hostWrite_of_refuses h r
  simp only [List.forall_mem_cons, List.not_mem_nil, false_imp_iff, implies_true, and_true]
  refine ⟨?_, congrArg _ (hw _), congrArg _ (hw _), congrArg _ (hw _), congrArg _ (hw _), congrArg _ (hw _), congrArg _ (hw _)⟩
  show Host.Outcome.next (if q < 8 then hostWrite s v 0x1000 tee (writeTail s v q value) else s) = _
  rw [hw, ite_self]

/-! ### Queue and event registers (R338, R345) -/

theorem exec_qtailWrite (h : fnAnswers s v) (ha : barAccepts s v tee true = true) {q : Nat} (hq : q < 8) (value : Nat) :
    exec (.qtailWrite v q value tee) s = .next (writeTail s v q value) := by
  show Host.Outcome.next (if q < 8 then hostWrite s v 0x1000 tee (writeTail s v q value) else s) = _
  rw [if_pos hq, hostWrite_of_accepts h ha]

/-- A queue with DEV = 1 takes no tail of the host: ILL (R338). -/
theorem writeTail_device {q : Nat} (h : (queueAt s v q).qctl.getLsbD 5 = true) (value : Nat) :
    writeTail s v q value = setQueue s v q { queueAt s v q with qsts := (queueAt s v q).qsts ||| 2 } := if_pos h

section Tail
variable {q value : Nat} (h : (queueAt s v q).qctl.getLsbD 5 = false)
include h

/-- A tail within the queue's slots (R338). -/
theorem writeTail_within (hle : (value % 2 ^ 32 + 2 ^ 32 - progSeen (queueAt s v q)) % 2 ^ 32 ≤ 2 ^ qlog (queueAt s v q)) :
    writeTail s v q value = setQueue s v q { queueAt s v q with tail := value % 2 ^ 32 } :=
  (if_neg (ne_true_of_eq_false h)).trans (if_pos hle)

/-- A tail that passes the queue's slots: OVR (R338). -/
theorem writeTail_beyond (hlt : 2 ^ qlog (queueAt s v q) < (value % 2 ^ 32 + 2 ^ 32 - progSeen (queueAt s v q)) % 2 ^ 32) :
    writeTail s v q value = setQueue s v q { queueAt s v q with qsts := (queueAt s v q).qsts ||| 1 } :=
  (if_neg (ne_true_of_eq_false h)).trans (if_neg (Nat.not_le.2 hlt))

end Tail

/-- EVHEAD as far as EVTAIL; no event is held that could follow (R345). -/
theorem hostEvhead_within {value : Nat} (hs : tabSorted s.vds = true) (hh : (vdAt s v).held = [])
    (hle : (value % 2 ^ 32 + 2 ^ 32 - (vdAt s v).evhead) % 2 ^ 32 ≤ ((vdAt s v).evtail + 2 ^ 32 - (vdAt s v).evhead) % 2 ^ 32) :
    hostEvhead s v value = setVd s v { vdAt s v with evhead := value % 2 ^ 32 } := by
  have hw : writeEvhead s v (value % 2 ^ 32) = setVd s v { vdAt s v with evhead := value % 2 ^ 32 } := by
    rw [writeEvhead, if_pos hle, Nat.mod_mod]
  simp only [hostEvhead, hw, writeHeld, vdAt_setVd_same hs, hh, List.length_nil, writeEvents]

/-! ### Registers of BAR 0 (R426) -/

/-- A read of a register that the function answers: 0 in a reset, Unsupported Request where R430 refuses it, and else the register's bytes. -/
theorem hostRead_answers {off n : Nat} (hp : vfPresent s v = true) (ho : off < 65536) (hn : 0 < n) (h8 : off % 8 + n ≤ 8) :
    hostRead s v off n tee = if inReset s v then send s (.data (natLe n 0))
      else if !barAccepts s v tee (barPrivate off) then send s (.completion 1)
      else send s (.data (natLe n (bitField (barWord s v (off / 8 * 8)) (off % 8 * 8) (8 * n)))) := by
  rw [hostRead, if_neg]
  simp only [hp, Bool.not_true, Bool.false_eq_true, false_or]
  omega

section Unlocked
variable (h : fnAnswers s v) (hu : (vdAt s v).tdisp = .unlocked)
include h hu

theorem exec_barWrite (off : Nat) {value : Nat} (hv : value < 2 ^ 64) :
    exec (.registerWrite (.bar v none) off value) s = .next (writeBar s v off value) := by
  show Host.Outcome.next (hostWrite s v off none (writeBar s v off (value % 2 ^ 64))) = _
  rw [Nat.mod_eq_of_lt hv, hostWrite_of_accepts h (barAccepts_unlocked hu _)]

theorem takeTurn_barWrite4 (off value : Nat) : takeTurn s (.act (.barWrite4 v off value none)) = .next (writeBarHalf s v off value) := by
  show Host.Outcome.next (hostWrite s v off none (writeBarHalf s v off value)) = _
  rw [hostWrite_of_accepts h (barAccepts_unlocked hu _)]

end Unlocked

theorem lockedWrite_unlocked (hu : (vdAt s v).tdisp = .unlocked) (changes : Bool) (a b : State) : lockedWrite s v changes a b = a := by
  simp [lockedWrite, unlocked, hu]

theorem writeBar_qbase (hu : (vdAt s v).tdisp = .unlocked) {q value : Nat} (hq : q < 8) (h6 : value % 64 = 0) (h55 : value / 2 ^ 55 = 0) :
    writeBar s v (0x1000 + 0x40 * q) value = setQueue s v q { queueAt s v q with qbase := BitVec.ofNat 64 value } := by
  have hw : (0x1000 + 0x40 * q - 0x1000) / 0x40 = q := by omega
  have ho : (0x1000 + 0x40 * q) % 0x40 = 0 := by omega
  have hlow : bitField value 0 6 = 0 := by rw [bitField_low]; exact h6
  have hhigh : bitField value 55 9 = 0 := by rw [bitField, h55, Nat.zero_mod]
  rw [writeBar, if_pos (by omega), hw, ho, writeQueueReg, lockedWrite_unlocked hu, if_pos (by simp [hlow, hhigh])]

/-- The lower half of DBGX. -/
theorem writeBarHalf_dbgx_lower (value : Nat) : writeBarHalf s v 0x1428 value =
    setVd s v { vdAt s v with dbgx := ((vdAt s v).dbgx >>> 32) <<< 32 ||| BitVec.ofNat 64 (value % 2 ^ 32) } := by
  rw [← setField_lower_half]; rfl

/-- The upper half of DBGX, which holds no bit that a write of 1 clears. -/
theorem writeBarHalf_dbgx_upper (value : Nat) : writeBarHalf s v 0x142C value =
    setVd s v { vdAt s v with dbgx := BitVec.ofNat 64 (value % 2 ^ 32) <<< 32 ||| BitVec.ofNat 64 ((vdAt s v).dbgx.toNat % 2 ^ 32) } := by
  have hw : barWord s v 0x1428 = (vdAt s v).dbgx.toNat := rfl
  have hk : barW1c 0x1428 = 0 := rfl
  rw [← setField_upper_half, writeBarHalf, if_neg (by decide), if_pos (by decide)]
  simp only [hw, hk, Nat.reduceDiv, Nat.reduceMul, Nat.and_zero, Nat.sub_zero]
  rfl

/-! ### Configuration space (R429) -/

theorem exec_configWrite (h : fnAnswers s v) (off value : Nat) : exec (.registerWrite (.config v) off value) s = .next (writeConfig s v off value) :=
  congrArg _ (if_pos (.inr (by simp [h.1, h.2])))

theorem readConfig_answers (h : fnAnswers s v) :
    ∀ x ∈ [(0, (vdAt s v).memOn), (1, (vdAt s v).busOn), (2, (vdAt s v).msixOn), (3, (vdAt s v).msixMask)],
      readConfig s (some v) x.1 = send s (.data (natLe 4 (if x.2 then 1 else 0))) := by
  have hn : ¬ (!vfPresent s v ∨ inReset s v) := by simp [h.1, h.2]
  simp only [List.forall_mem_cons, List.not_mem_nil, false_imp_iff, implies_true, and_true]
  exact ⟨if_neg hn, if_neg hn, if_neg hn, if_neg hn⟩

theorem readConfig_absent (h : ¬ fnAnswers s v) (x : Nat) : readConfig s (some v) x = s := by
  refine if_pos ?_
  rw [fnAnswers] at h
  cases hp : vfPresent s v <;> simp_all

/-! ### The debug agent's window (R369) -/

theorem exec_agentWrite (h : s.phase = 7) (off value : Nat) : exec (.registerWrite .agent off value) s = .next (writeAgent s off value) :=
  congrArg _ (if_pos h)

theorem exec_agentWrite_context (h : s.phase = 7) (value : Nat) : exec (.registerWrite .agent 0 value) s = .next { s with agentCtx := value % 512 } := by
  rw [exec_agentWrite h]
  show Host.Outcome.next { s with agentCtx := bitField value 0 9 } = _
  rw [bitField_low, show (2 : Nat) ^ 9 = 512 from rfl]

/-- The PC of the addressed stream, as the window writes and reads it. -/
theorem writeAgent_pc (value : Nat) :
    writeAgent s 0x50 value = (agentTarget s).elim s fun p => updStream s p.1 p.2 fun t => { t with pc := BitVec.ofNat 64 value } := rfl
theorem agentReg_pc : agentReg s 0x50 = (agentTarget s).elim 0 fun p => (streamOf (coreAt s p.1) p.2).pc.toNat := rfl

theorem agentTarget_eq {c : Nat} {st : StreamName} (hk : (ctxAt s s.agentCtx).state = .halted)
    (hc : coreOfRank s s.agentCtx (s.agentSel.toNat % 2 ^ 32) = some c) (hst : streamNum st = s.agentSel.toNat / 2 ^ 32 % 4) :
    agentTarget s = some (c, st) := by
  have h0 : bitField s.agentSel.toNat 0 32 = s.agentSel.toNat % 2 ^ 32 := bitField_low _ _
  have h32 : bitField s.agentSel.toNat 32 2 = streamNum st := hst.symm
  rw [agentTarget, if_neg (by simp [hk]), h0, h32, hc, streamOfNum_streamNum]
  rfl

theorem agentTarget_running (hk : (ctxAt s s.agentCtx).state ≠ .halted) : agentTarget s = none := if_pos hk

/-! ### Health registers (R448, R449) -/

theorem healthAt_setHealth_same (hs : tabSorted s.health = true) (k h : Nat) : healthAt (setHealth s k h) k = (BitVec.ofNat 64 h).toNat := by
  simp [healthAt, setHealth, tabGet_set _ hs]

/-- A die's health with TRIP cleared. -/
def clearTrip (s : State) (k : Nat) : State := setHealth s k (setField (healthAt s k) 51 1 0)

@[simp] theorem setHealth_tripped (s : State) (k h : Nat) : (setHealth s k h).tripped = s.tripped := rfl
@[simp] theorem clearTrip_tripped (s : State) (k : Nat) : (clearTrip s k).tripped = s.tripped := setHealth_tripped ..

/-- TRIP then reads 0, and TJ as before. -/
theorem healthAt_clearTrip (hs : tabSorted s.health = true) (k : Nat) :
    bitField (healthAt (clearTrip s k) k) 32 8 = healthAt s k / 2 ^ 32 % 256 ∧ bitAt (healthAt (clearTrip s k) k) 51 = false := by
  have hx : healthAt s k < 2 ^ 64 := BitVec.isLt _
  rw [clearTrip, healthAt_setHealth_same hs, BitVec.toNat_ofNat, bitAt_eq_false_iff]
  generalize healthAt s k = x at hx ⊢
  simp only [bitField, setField]
  omega

section Health
variable {k value : Nat} (hk : k < 4) (hb : value.testBit 51 = true)
include hk hb

theorem exec_healthWrite (h7 : s.phase = 7) : exec (.registerWrite (.health k) 0 value) s = .next (settleTrip (clearTrip s k) k) := by
  have hw : writeHealth s k value = settleTrip (clearTrip s k) k := if_pos ⟨hk, by rw [bitAt_eq_testBit, hb]⟩
  rw [← hw]
  exact congrArg _ (if_pos ⟨rfl, h7⟩)

/-- A die that has cooled down issues again. -/
theorem exec_healthWrite_cool (hs : tabSorted s.health = true) (h7 : s.phase = 7) (ht : healthAt s k / 2 ^ 32 % 256 < 90) :
    exec (.registerWrite (.health k) 0 value) s = .next { clearTrip s k with tripped := s.tripped.filter fun x => x ≠ k } := by
  obtain ⟨htj, htrip⟩ := healthAt_clearTrip hs k
  rw [exec_healthWrite hk hb h7, settleTrip, if_pos ⟨by rw [htj]; exact ht, by rw [htrip]; rfl⟩, clearTrip_tripped]

/-- A die that is still hot stays tripped (log 15). -/
theorem exec_healthWrite_hot (hs : tabSorted s.health = true) (h7 : s.phase = 7) (ht : 90 ≤ healthAt s k / 2 ^ 32 % 256) :
    exec (.registerWrite (.health k) 0 value) s = .next (clearTrip s k) := by
  obtain ⟨htj, -⟩ := healthAt_clearTrip hs k
  rw [exec_healthWrite hk hb h7, settleTrip, if_neg (by rw [htj]; omega)]

end Health

/-! ### Debug commands (R368) -/

/-- An accepted command register write runs its command. -/
theorem exec_debugCommand (h : fnAnswers s v) (ha : barAccepts s v tee true = true) :
    exec (.dbgReturn v tee) s = .next (debugCommand s v 1) ∧ exec (.dbgStep v tee) s = .next (debugCommand s v 2) ∧
    exec (.dbgDisplaced v tee) s = .next (debugCommand s v 3) ∧ exec (.dbgKill v tee) s = .next (debugCommand s v 4) ∧
    exec (.dbgInval v tee) s = .next (debugCommand s v 5) := by
  have hw (r : State) : hostWrite s v 0x1000 tee r = r := hostWrite_of_accepts h ha r
  exact ⟨congrArg _ (hw _), congrArg _ (hw _), congrArg _ (hw _), congrArg _ (hw _), congrArg _ (hw _)⟩

theorem dbgReturnWith_target {c : Nat} {st : StreamName} (ht : dbgTarget s v = some (c, st)) (f : Stream → Stream) :
    dbgReturnWith s v f = updStream (returnStream s c st) c st fun t => if t.state = .run then f t else t := by rw [dbgReturnWith, ht]

theorem debugCommand_kill {c j : Nat} {st : StreamName} (ht : dbgTarget s v = some (c, st)) (hj : (coreAt s c).job = some j) :
    debugCommand s v 4 = killJob s j (streamOf (coreAt s c) st).record.cause := by simp only [debugCommand, ht, hj]

/-- Without a stream that waits for the debugger, a command on one does nothing. -/
theorem debugCommand_noTarget (ht : dbgTarget s v = none) : ∀ cmd ∈ [1, 2, 3, 4], debugCommand s v cmd = s := by
  simp [debugCommand, dbgReturnWith, ht]

/-! ### The memory window (R427) -/

/-- An access within one page to a function that answers: refused, failed for want of a context, or performed at its physical address. -/
theorem windowAccess_answers {off n : Nat} (h : fnAnswers s v) (ho : off < 2 ^ 32) (hn : n ≠ 0) (hp : off % 4096 + n ≤ 4096) (stores : Bool)
    (f : State → Nat → Nat → State) (refused failed : State → State) :
    let r := windowAccess s v off n tee stores f refused failed
    (barAccepts s v tee true = false → r = refused s) ∧
    (barAccepts s v tee true = true → windowContext s v = none → r = failed (windowFailed s v none)) ∧
    (∀ k pa, barAccepts s v tee true = true → windowContext s v = some k →
      windowSpot s k ((vdAt s v).winbase.toNat + off) n stores = .ok pa → r = f s k pa) := by
  have hf : ¬ (!vfPresent s v ∨ 2 ^ 32 ≤ off ∨ n = 0 ∨ 4096 < off % 4096 + n) := by
    simp only [h.1, Bool.not_true, Bool.false_eq_true, false_or]; omega
  have hr : ¬ inReset s v = true := by simp [h.2]
  refine ⟨fun ha => ?_, fun ha hc => ?_, fun k pa ha hc hs => ?_⟩ <;> rw [windowAccess, if_neg hf, if_neg hr]
  · rw [ha]; rfl
  · rw [ha, hc]; rfl
  · simp only [ha, hc, hs]; rfl

/-! ### The interface's TDISP state (R428, R429, R431) -/

theorem exec_lock_free (h : fnAnswers s v) (hu : (vdAt s v).tdisp = .unlocked) {n : Nat} (hn : streamFree s n = true) :
    exec (.lockInterfaceRequest v n) s =
      .next (tdispAnswer (setVd s v { vdAt s v with tdisp := .locked, ide := some n, report := some (reportOf s v n) }) v 1 none) :=
  congrArg _ ((if_neg (by simp [h.1])).trans (if_pos ⟨hu, by simp [h.2], hn⟩))

theorem exec_lock_refused (hp : vfPresent s v = true) {n : Nat} (h : (vdAt s v).tdisp ≠ .unlocked ∨ inReset s v = true ∨ streamFree s n = false) :
    exec (.lockInterfaceRequest v n) s = .next (tdispAnswer s v 0 none) := by
  refine congrArg _ ((if_neg (by simp [hp])).trans (if_neg ?_))
  rintro ⟨hu, hr, hn⟩
  simp [hu, hn] at h
  simp [h] at hr

theorem exec_start_locked (h : fnAnswers s v) (hl : (vdAt s v).tdisp = .locked) :
    exec (.startInterfaceRequest v) s = .next (tdispAnswer (setVd s v { vdAt s v with tdisp := .run }) v 1 none) :=
  congrArg _ ((if_neg (by simp [h.1])).trans (if_pos ⟨hl, by simp [h.2]⟩))

theorem exec_start_refused (hp : vfPresent s v = true) (h : (vdAt s v).tdisp ≠ .locked ∨ inReset s v = true) :
    exec (.startInterfaceRequest v) s = .next (tdispAnswer s v 0 none) := by
  refine congrArg _ ((if_neg (by simp [hp])).trans (if_neg ?_))
  rintro ⟨hl, hr⟩
  simp [hl] at h
  simp [h] at hr

/-- A stop that finds no reset under way: answered at once when the interface is unlocked, else a reset begins. -/
theorem exec_stop (hp : vfPresent s v = true) (hr : (vdAt s v).resetting = none) :
    exec (.stopInterfaceRequest v) s = .next (if (vdAt s v).tdisp = .unlocked then tdispAnswer s v 1 none else beginReset s v true) := by
  show execStopInterfaceRequest v s = _
  simp only [execStopInterfaceRequest, hp, hr, Bool.not_true, Bool.false_eq_true, if_false]

theorem exec_state (hp : vfPresent s v = true) :
    exec (.getDeviceInterfaceState v) s = .next (tdispAnswer s v (16 + tdispNum (vdAt s v).tdisp) none) := congrArg _ (if_pos hp)

/-- The report is given while the interface is locked or runs, and only then. -/
theorem exec_report_given (hp : vfPresent s v = true) (ht : (vdAt s v).tdisp = .locked ∨ (vdAt s v).tdisp = .run) :
    exec (.getDeviceInterfaceReport v) s = .next (tdispAnswer s v 2 (vdAt s v).report) := by
  show execGetDeviceInterfaceReport v s = _
  rw [execGetDeviceInterfaceReport, if_neg (by simp [hp])]
  rcases ht with ht | ht <;> simp only [ht]

theorem exec_report_refused (hp : vfPresent s v = true) (ht : (vdAt s v).tdisp = .unlocked ∨ (vdAt s v).tdisp = .error) :
    exec (.getDeviceInterfaceReport v) s = .next (tdispAnswer s v 0 none) := by
  show execGetDeviceInterfaceReport v s = _
  rw [execGetDeviceInterfaceReport, if_neg (by simp [hp])]
  rcases ht with ht | ht <;> simp only [ht]

/-- A function that is not there takes no TDISP message and no reset (R453; log 125). -/
theorem exec_absent (hp : vfPresent s v = false) (n : Nat) :
    ∀ i ∈ [Instr.lockInterfaceRequest v n, .startInterfaceRequest v, .stopInterfaceRequest v, .getDeviceInterfaceState v,
      .getDeviceInterfaceReport v, .functionLevelReset v], exec i s = .next s := by
  have hn : (!vfPresent s v) = true := by simp [hp]
  simp only [List.forall_mem_cons, List.not_mem_nil, false_imp_iff, implies_true, and_true]
  exact ⟨congrArg _ (if_pos hn), congrArg _ (if_pos hn), congrArg _ (if_pos hn), congrArg _ (if_neg (by simp [hp])), congrArg _ (if_pos hn),
    congrArg _ (if_neg (by simp [hp]))⟩

theorem exec_ideFailure_unbound {n : Nat} (h : ∀ p ∈ s.vds, p.2.ide ≠ some n) : exec (.ideFailure n) s = .next s := by
  have hf : (s.vds.filter fun p => p.2.ide = some n) = [] := List.filter_eq_nil_iff.2 fun p hp => by simpa using h p hp
  show Host.Outcome.next (((s.vds.filter fun p => p.2.ide = some n).map (·.1)).foldl tdispError s) = _
  rw [hf]; rfl

theorem exec_ideFailure_bound {n : Nat} {d : VDev} (h : (s.vds.filter fun p => p.2.ide = some n) = [(v, d)]) :
    exec (.ideFailure n) s = .next (tdispError s v) := by
  show Host.Outcome.next (((s.vds.filter fun p => p.2.ide = some n).map (·.1)).foldl tdispError s) = _
  rw [h]; rfl

theorem tdispError_locked (h : (vdAt s v).tdisp = .locked) : tdispError s v = setVd s v { vdAt s v with tdisp := .error } := by simp only [tdispError, h]

theorem tdispError_run (h : (vdAt s v).tdisp = .run) :
    tdispError s v = killVd (setVd s v { vdAt s v with tdisp := .error, stopped := true }) v (causeCode .tdispError) 1 := by simp only [tdispError, h]

/-! ### The function-level reset (R397) -/

/-- A reset begins unless one is under way (R398). -/
theorem exec_functionLevelReset : exec (.functionLevelReset v) s = .next (if vfPresent s v ∧ !inReset s v then beginReset s v false else s) := rfl

/-- Records not yet placed are dropped as a reset begins; the virtual device changes in nothing else. -/
theorem beginReset_eq (stop : Bool) : beginReset s v stop = setVd (dropUnplaced s v) v { vdAt s v with resetting := some (s.now, stop) } := rfl

section EndReset
variable {t0 : Nat} {stop : Bool} (h : (vdAt s v).resetting = some (t0, stop))
include h

theorem endReset_waits (ho : outstandingOn s v = true) (ht : s.now < t0 + 200 * usCycles) : endReset s v = s := by
  simp only [endReset, h, ho, decide_eq_true ht, Bool.and_self, if_true]

theorem endReset_acts (hd : outstandingOn s v = false ∨ t0 + 200 * usCycles ≤ s.now) :
    let r := resetFunction s v
    let w := setVd r v { vdAt r v with tdisp := .unlocked, ide := none, report := none }
    endReset s v = if stop then tdispAnswer w v 1 none else w := by
  have hc : ¬ (outstandingOn s v && decide (s.now < t0 + 200 * usCycles)) = true := by
    rw [Bool.and_eq_true, decide_eq_true_eq]
    rintro ⟨ho, ht⟩
    rcases hd with hd | hd
    · simp [ho] at hd
    · omega
  simp only [endReset, h, if_neg hc]

end EndReset

/-- Settles O54: the acceptance of R430 decides whether a request is discarded or answered Unsupported Request, and an accepted one does what its
register, command or message names. -/
theorem hostEvents : Obligations.HostEvents := by
  intro s v q off n k value c pa t0 tee st bytes stop d x present free takes refuses outs t
  have there : present → vfPresent s v = true := vfPresent_iff.2
  have awake : free → fnAnswers s v := fnAnswers_iff.2
  have accepted : takes → fnAnswers s v ∧ barAccepts s v tee true = true := by
    rintro ⟨hf, ha⟩
    refine ⟨awake hf, barAccepts_private_iff.2 (ha.imp_right ?_)⟩
    rintro ⟨hr, rfl, hi⟩
    exact ⟨hr, by simp, hi⟩
  have refused : refuses → barAccepts s v tee true = false := barAccepts_private_refuses
  refine ⟨?tails, ?heads, ?discards, ?reads, ?registers, ?config, ?configAbsent, ?base, ?agent, ?health, ?debug, ?noTarget, ?inval,
    ?window, ?lock, ?lockRefused, ?start, ?startRefused, ?stopUnlocked, ?absent, ?begins, ?ends, ?state, ?report, ?noReport, ?unbound, ?boundLocked, ?boundRun,
    ?registersReset⟩
  case tails =>
    intro ht hq
    obtain ⟨h, ha⟩ := accepted ht
    rw [exec_qtailWrite h ha hq]
    exact ⟨fun h5 => congrArg _ (writeTail_device h5 value), fun h5 hle => congrArg _ (writeTail_within h5 hle),
      fun h5 hlt => congrArg _ (writeTail_beyond h5 hlt)⟩
  case heads =>
    intro ht hh hle hs
    obtain ⟨h, ha⟩ := accepted ht
    exact congrArg _ ((hostWrite_of_accepts h ha _).trans (hostEvhead_within hs hh hle))
  case discards => exact fun _ h => exec_of_discarded (h.imp_right refused) q value
  case reads =>
    intro hp ho hn h8
    have hw := hostRead_answers (tee := tee) (there hp) ho hn h8
    refine ⟨fun hr => congrArg _ (hw.trans (if_pos hr)), fun hr ha hpage => congrArg _ (hw.trans ?_), fun hr hu htee => congrArg _ (hw.trans ?_)⟩
    · have hpriv : barPrivate off = true := by simpa [barPrivate] using hpage
      rw [hr, hpriv, refused ha]; rfl
    · rw [hr, htee, barAccepts_unlocked hu]; rfl
  case registers =>
    intro hf hu hv
    have h := awake hf
    have hb (off : Nat) := exec_barWrite h hu off hv
    refine ⟨fun hq h6 h55 => (hb _).trans (congrArg _ (writeBar_qbase hu hq h6 h55)), hb _, hb _, ?_, ?_, hb _, ?_, ?_, ?_⟩
    · exact (takeTurn_barWrite4 h hu _ _).trans (congrArg _ (writeBarHalf_dbgx_lower value))
    · exact (takeTurn_barWrite4 h hu _ _).trans (congrArg _ (writeBarHalf_dbgx_upper value))
    all_goals
      rw [exec_configWrite h, ← bitAt_eq_testBit]
      exact congrArg _ (lockedWrite_unlocked hu _ _ _)
  case config => exact fun hf x hx => congrArg _ (readConfig_answers (awake hf) x hx)
  case configAbsent => exact fun hf x => congrArg _ (readConfig_absent (mt fnAnswers_iff.1 hf) x)
  case base => exact fun hp => congrArg _ (if_pos ⟨rfl, hp⟩)
  case agent =>
    intro h7
    refine ⟨exec_agentWrite_context h7 value, exec_agentWrite h7 _ _, fun hk hc hst => ?_, fun hk => (exec_agentWrite h7 _ _).trans (congrArg _ ?_)⟩
    · have ht := agentTarget_eq hk hc hst
      exact ⟨(exec_agentWrite h7 _ _).trans (congrArg _ (by rw [writeAgent_pc, ht]; rfl)),
        congrArg _ ((if_pos h7).trans (by rw [agentReg_pc, ht]; rfl))⟩
    · rw [writeAgent_pc, agentTarget_running hk]; rfl
  case health =>
    intro h7 hk hb u tj hs
    exact ⟨exec_healthWrite_cool hk hb hs h7, exec_healthWrite_hot hk hb hs h7⟩
  case debug =>
    intro ht htg back
    obtain ⟨h, ha⟩ := accepted ht
    obtain ⟨e1, e2, e3, e4, -⟩ := exec_debugCommand h ha
    refine ⟨e1.trans (congrArg _ (dbgReturnWith_target htg _)), e2.trans (congrArg _ (dbgReturnWith_target htg _)),
      e3.trans (congrArg _ (dbgReturnWith_target htg _)), fun j hj => e4.trans (congrArg _ (debugCommand_kill htg hj))⟩
  case noTarget =>
    intro ht htg
    obtain ⟨h, ha⟩ := accepted ht
    obtain ⟨e1, e2, e3, e4, -⟩ := exec_debugCommand h ha
    have hn := debugCommand_noTarget htg
    simp only [List.forall_mem_cons, List.not_mem_nil, false_imp_iff, implies_true, and_true] at hn ⊢
    obtain ⟨n1, n2, n3, n4⟩ := hn
    exact ⟨e1.trans (congrArg _ n1), e2.trans (congrArg _ n2), e3.trans (congrArg _ n3), e4.trans (congrArg _ n4)⟩
  case inval =>
    rintro ht rfl hk hv hd
    obtain ⟨h, ha⟩ := accepted ht
    obtain ⟨-, -, -, -, e5⟩ := exec_debugCommand h ha
    exact e5.trans (congrArg _ (if_pos ⟨hk, hv, hd⟩))
  case window =>
    intro hf ho hn hp took
    have h := awake hf
    have ha : took → barAccepts s v tee true = true := barAccepts_private_iff.2
    obtain ⟨rRefused, rFailed, rDone⟩ := windowAccess_answers (tee := tee) h ho hn hp false (fun s _ pa => send s (.data (physBytes s pa n)))
      (fun s => send s (.completion 1)) fun s => send s (.completion 2)
    have write (hl : bytes.length = n) := windowAccess_answers (tee := tee) h ho (hl ▸ hn) (hl ▸ hp) true
      (fun s k pa => physWrite s pa bytes (ownerTag s k pa)) id id
    refine ⟨fun ht hc hs => congrArg _ (rDone k pa (ha ht) hc hs), fun ht hc hl hs => ?_, fun ht hc => congrArg _ (rFailed (ha ht) hc),
      fun hr => ⟨congrArg _ (rRefused (refused hr)), fun hl => ?_⟩⟩
    · obtain ⟨-, -, wDone⟩ := write hl
      exact congrArg _ (wDone k pa (ha ht) hc (hl ▸ hs))
    · obtain ⟨wRefused, -, -⟩ := write hl
      exact congrArg _ (wRefused (refused hr))
  case lock => exact fun hf hu hn => exec_lock_free (awake hf) hu hn
  case lockRefused => exact fun hp h => exec_lock_refused (there hp) h
  case start => exact fun hl hf => exec_start_locked (awake hf) hl
  case startRefused => exact fun hp h => exec_start_refused (there hp) h
  case stopUnlocked => exact fun hp hu hr => (exec_stop (there hp) hr).trans (congrArg _ (if_pos hu))
  case absent => exact fun hp => exec_absent (Bool.eq_false_iff.2 (mt vfPresent_iff.1 hp)) n
  case begins =>
    refine ⟨fun hp hu hr => (exec_stop (there hp) hr).trans (congrArg _ ((if_neg hu).trans (beginReset_eq true))), fun hf => ?_, fun hr => ?_⟩
    · obtain ⟨hp, hr⟩ := awake hf
      exact exec_functionLevelReset.trans (congrArg _ ((if_pos ⟨hp, by simp [hr]⟩).trans (beginReset_eq false)))
    · exact exec_functionLevelReset.trans (congrArg _ (if_neg (by simp [hr])))
  case ends => exact fun h => ⟨endReset_waits h, endReset_acts h⟩
  case state => exact fun hp => exec_state (there hp)
  case report => exact fun hp ht => exec_report_given (there hp) ht
  case noReport => exact fun hp ht => exec_report_refused (there hp) ht
  case unbound => exact exec_ideFailure_unbound
  case boundLocked => exact fun hb hl => (exec_ideFailure_bound hb).trans (congrArg _ (tdispError_locked hl))
  case boundRun => exact fun hb hr => (exec_ideFailure_bound hb).trans (congrArg _ (tdispError_run hr))
  case registersReset => exact ⟨rfl, rfl, rfl, rfl, rfl, rfl, rfl, rfl, rfl, rfl, rfl, rfl, rfl⟩

end Sys2Proof.Proofs
end

section
/-! PROOF. What a write of register 0 and an instruction of the integer class leave unchanged (R10, R83, R91, R95 to R100). -/

namespace Sys2Proof.Proofs
open Sys2Proof.Machine Sys2Proof.Claims

variable {s : State} {d : Nat}

/-! ### A register written -/

theorem regOf_setRegOf_of_ne {t : Stream} (h : tabSorted t.regs = true) {i : Nat} (hi : i ≠ d) (v : Word) :
    regOf (setRegOf t d v) i = regOf t i := by
  unfold setRegOf
  split
  · rfl
  · simp only [regOf, tabGet_set _ h, if_neg hi]

/-- A write of register 0 is performed and its result discarded: the flow goes on as after any other (R10). -/
theorem finish_writeReg_zero (s : State) (v : Word) : finish (writeReg s 0 v) = .next (advance s) := by rw [writeReg_zero]; rfl

/-! ### The executing stream as it goes on (R83, R91) -/

/-- The executing stream past its instruction: the next PC, the loops that are left, in RUN with nothing pending. -/
def goneOn (s : State) : Stream :=
  let t := curStream s
  let r := backEdge t.pc.toNat (instrBytes s) (t.pc + BitVec.ofNat 64 (instrBytes s)) (innermost t.loops)
  { t with pc := r.1, loops := innermost r.2, displaced := keptWords s, state := .run, pending := none }

/-- Outside a single step, an instruction that completes changes its own stream alone. -/
theorem advance_of_step_off (h : (curStream s).step = .off) : advance s = setCur s (goneOn s) := by
  simp [advance, advanceBy, completeAt, goneOn, keptWords, levelP, h]

/-! ### The frame -/

/-- A state that differs in its executing stream alone, and there in the named registers, the PC, the loops and the stream's state. -/
theorem onlyRegisters_setCur {x : Stream} {written : List Nat} (hdraws : x.draws = (curStream s).draws) (hrets : x.rets = (curStream s).rets)
    (hrecord : x.record = (curStream s).record) (hfault : x.fault = (curStream s).fault) (hstep : x.step = (curStream s).step)
    (hregs : ∀ i, i ∉ written → regOf x i = readReg s i) : onlyRegisters s (setCur s x) written := by
  refine ⟨⟨x, rfl, hdraws, hrets, hrecord, hfault, hstep⟩, fun i hi => ?regs, fun st hst => ?streams, ?_⟩
  case regs => rw [readReg, curStream_setCur, hregs i hi]
  case streams => exact streamOf_setStream_ne s.core x hst
  simp [physBytes]

/-- An instruction that writes one register and completes changes that register, the PC and the loops. -/
theorem finish_writeReg_onlyRegisters (hoff : (curStream s).step = .off) (hs : tabSorted (curStream s).regs = true) (v : Word) :
    ∃ t, finish (writeReg s d v) = .next t ∧ onlyRegisters s t [d] := by
  have hcur := curStream_writeReg s d v
  have hgo : advance (writeReg s d v) = setCur s (goneOn (writeReg s d v)) := by
    rw [advance_of_step_off (by rw [hcur, setRegOf_step, hoff])]
    exact setCur_setCur ..
  refine ⟨_, congrArg Host.Outcome.next hgo, onlyRegisters_setCur ?_ ?_ ?_ ?_ ?_ fun i hi => ?regs⟩
  case regs =>
    calc regOf (goneOn (writeReg s d v)) i = regOf (setRegOf (curStream s) d v) i := by rw [← hcur]; rfl
      _ = readReg s i := regOf_setRegOf_of_ne hs (List.ne_of_not_mem_cons hi) v
  all_goals simp [goneOn, hcur]

/-- R96: a division by a divisor other than 0 is an instruction on two registers as any other. -/
theorem divide_of_ne_zero {b : Nat} (h : readReg s b ≠ 0) (a : Nat) (f : Word → Word → Word) : divide s d a b f = alu2 s d a b f := if_neg h

/-- Settles O9: every integer instruction ends in one register write, which register 0 discards, and in the stream's going on, which outside a single
step changes that stream's PC and loops. -/
theorem integerFrame : Obligations.IntegerFrame := by
  refine ⟨fun s a b i => ⟨readReg_zero s, writeReg_zero s, ?_⟩, fun s d a b sh i hoff hs => ?_⟩
  · exact ⟨finish_writeReg_zero s _, finish_writeReg_zero s _, finish_writeReg_zero s _⟩
  have written (v : Word) := finish_writeReg_onlyRegisters (d := d) hoff hs v
  have quotient (h : readReg s b ≠ 0) (f : Word → Word → Word) : ∃ t, divide s d a b f = .next t ∧ onlyRegisters s t [d] := by
    rw [divide_of_ne_zero h]; exact written _
  simp only [List.forall_mem_cons, List.not_mem_nil, false_imp_iff, implies_true, and_true]
  refine ⟨?results, fun h => ⟨quotient h _, quotient h _, quotient h _⟩⟩
  case results => and_intros <;> exact written _

end Sys2Proof.Proofs
end

section
/-! PROOF. Scalar floating point: an exception whose trap is enabled (R45, R102 to R110). -/

namespace Sys2Proof.Proofs
open Sys2Proof.Machine Sys2Proof.Claims

variable {s : State} {d a fmt n : Nat} {rm : Rm} {fl : Flags}

/-! ### The operands and the rounding of a scalar instruction (R102) -/

theorem f32Of_eq (s : State) (i : Nat) : f32Of s i = decodeFmt .f32 ((readReg s i).toNat % 2 ^ 32) := by rw [f32Of, bitField_low]

theorem scalarRounding_eq (s : State) (rm : Rm) : scalarRounding s rm =
    ⟨rm.getD (modeOfCode (s.core.vctlLo.toNat % 8)), s.core.vctlLo.getLsbD 3, s.core.vctlSeed, 0, 0⟩ := by
  rw [scalarRounding, roundingOf, modeOf, bitField_low]; rfl

/-- Above the magnitude of an infinity an F32 encoding is NaN (R23, R24). -/
theorem decodeFmt_f32_nan {p : Nat} (h : 0x7F800000 < p % 2 ^ 31) : decodeFmt .f32 p = .nan := by
  have hm : p % 2 ^ 32 % 2 ^ 31 = p % 2 ^ 31 := by omega
  simp only [decodeFmt, floatSpec, decodeFloat, fmtWidth, Nat.reduceSub, hm]
  rw [if_pos (by omega), if_neg (by omega)]

/-! ### What enabled exceptions do (R45, R103) -/

/-- The exception reported is the lowest that is enabled (log 21). -/
theorem enabledTrap_of_lowest {vctl : Word} (hn : n < 3) (hf : fl.getLsbD n = true) (hv : vctl.getLsbD (5 + n) = true)
    (hlow : ∀ k < n, (fl.getLsbD k && vctl.getLsbD (5 + k)) = false) : enabledTrap vctl fl = some n := by
  have raised : (fl.getLsbD n && vctl.getLsbD (5 + n)) = true := by rw [hf, hv]; rfl
  unfold enabledTrap
  match n, hn with
  | 0, _ => rw [if_pos raised]
  | 1, _ => rw [if_neg (ne_true_of_eq_false (hlow 0 (by omega))), if_pos raised]
  | 2, _ => rw [if_neg (ne_true_of_eq_false (hlow 0 (by omega))), if_neg (ne_true_of_eq_false (hlow 1 (by omega))), if_pos raised]

/-- An enabled exception faults, and nothing is written (R103). -/
theorem flagged_traps (h4 : (fl.getLsbD 7 && s.core.vctlLo.getLsbD 4) = false) (ht : enabledTrap s.core.vctlLo fl = some n) (v : Nat) :
    flagged s d v fl = .next (trapCur s { cause := .fpTrap, esw := n }) := by
  rw [flagged, raiseFlags, if_neg (ne_true_of_eq_false h4), ht]; rfl

/-- A reserved I4S code faults under VCTL.I4TRAP before any exception is judged; a scalar instruction names no operand (R110). -/
theorem flagged_reserved (h7 : fl.getLsbD 7 = true) (h4 : s.core.vctlLo.getLsbD 4 = true) (hop : reservedOperand fl = 0) (v : Nat) :
    flagged s d v fl = .next (trapCur s { cause := .int4ReservedTrap }) := by
  rw [flagged, raiseFlags, if_pos (by rw [h7, h4]; rfl), hop]; rfl

/-! ### Conversions and comparison -/

/-- FCVT.TO rounds once to the format, which is not B1 (R108). -/
theorem exec_fcvtTo {f : Fmt} (hf : fmtOfCode fmt = some f) (h1 : f ≠ .b1) :
    exec (.fcvtTo d a fmt rm) s = flagged s d (cvtWord f (scalarRound s rm f (f32Of s a, 0)).1) (scalarRound s rm f (f32Of s a, 0)).2 := by
  show execFcvtTo d a fmt rm s = _
  unfold execFcvtTo
  rw [hf]
  cases f with
  | b1 => exact absurd rfl h1
  | _ => rfl

/-- FCVT.FROM rounds the value of the source's low bits to F32; a reserved I4S code raises its flag (R109, R110). -/
theorem exec_fcvtFrom {f : Fmt} (hf : fmtOfCode fmt = some f) :
    let bits := (readReg s a).toNat % 2 ^ fmtWidth f
    exec (.fcvtFrom d a fmt rm) s = fArith s d rm (decodeFmt f bits, if f = .i4s ∧ bits = 8 then flagI4 else 0) := by
  intro bits
  have hb : i4Reserved f bits = decide (f = .i4s ∧ bits = 8) := by
    by_cases h : f = .i4s
    · have : bits % 16 = bits := by subst h; exact Nat.mod_mod _ _
      simp [i4Reserved, h, this]
    · simp [i4Reserved, h]
  show execFcvtFrom d a fmt rm s = _
  simp only [execFcvtFrom, hf, Option.getD_some, bitField_low]
  rw [show i4Reserved f ((readReg s a).toNat % 2 ^ fmtWidth f) = _ from hb]
  simp only [decide_eq_true_eq]
  rfl

/-- LT and LE raise NV on NaN (R106). -/
theorem fRelation_nan {x y : XR} (h : x = .nan ∨ y = .nan) : ∀ cc ∈ [FCond.lt, .le], (fRelation cc x y).2 = flagNV := by
  have hun : (xIsNan x || xIsNan y) = true := by rcases h with rfl | rfl <;> simp [xIsNan]
  simp [fRelation, hun]

/-- Settles O14: an instruction that ends in flags faults before it writes when one of them has its trap enabled. -/
theorem floatTraps : Obligations.FloatTraps := by
  intro s d a b fmt rm n r p q x y z rdn nan traps
  have hr : r = scalarRounding s rm := (scalarRounding_eq s rm).symm
  have hrdn : rdn = roundsDown s rm := by show decide (r.mode = .rdn) = _; rw [hr]; rfl
  have hx : x = f32Of s a := (f32Of_eq s a).symm
  have hy : y = f32Of s b := (f32Of_eq s b).symm
  have hz : z = f32Of s d := (f32Of_eq s d).symm
  have key (i : Instr) (v : FV) (f : Fmt) (out : Nat) (h : exec i s = flagged s d out (scalarRound s rm f v).2) : traps i v f := by
    intro hn hf hv hlow h4
    have hfl : v.2 ||| (roundTo v.1 f r).2 = (scalarRound s rm f v).2 := by rw [hr]; rfl
    rw [hfl] at hf hlow h4
    rw [h, flagged_traps h4 (enabledTrap_of_lowest hn hf hv hlow)]
  refine ⟨?arithmetic, fun f hf => ⟨fun h1 => ?outward, ?inward⟩, fun h hv cc hcc => ?compare, fun h8 h4 => ?reserved⟩
  case arithmetic =>
    rw [hrdn, hx, hy, hz]
    simp only [List.forall_mem_cons, List.not_mem_nil, false_imp_iff, implies_true, and_true]
    and_intros <;> exact key _ _ _ _ rfl
  case outward => rw [hx]; exact key _ _ _ _ (exec_fcvtTo hf h1)
  case inward => exact key _ _ _ _ (exec_fcvtFrom hf)
  case compare =>
    have hn : f32Of s a = .nan ∨ f32Of s b = .nan := by rw [f32Of_eq, f32Of_eq]; exact h.imp decodeFmt_f32_nan decodeFmt_f32_nan
    show flagged s d _ (fRelation cc (f32Of s a) (f32Of s b)).2 = _
    rw [fRelation_nan hn cc hcc]
    exact flagged_traps rfl (enabledTrap_of_lowest (by omega) rfl hv (by simp)) _
  case reserved =>
    have hv : (decodeFmt .i4s ((readReg s a).toNat % 16), if Fmt.i4s = .i4s ∧ (readReg s a).toNat % 16 = 8 then flagI4 else 0) = (xZero, flagI4) := by
      rw [h8]; rfl
    have he := exec_fcvtFrom (s := s) (d := d) (a := a) (rm := rm) (show fmtOfCode 9 = some .i4s from rfl)
    refine he.trans ?_
    rw [show (2 : Nat) ^ fmtWidth .i4s = 16 from rfl, hv]
    have hfl : (scalarRound s rm .f32 (xZero, flagI4)).2 = flagI4 := show flagI4 ||| 0 = flagI4 from BitVec.or_zero
    rw [fArith, hfl]
    exact flagged_reserved rfl h4 (by decide) _

end Sys2Proof.Proofs
end

section
/-! PROOF. The control and status registers: the value that a write leaves, and what it leaves unchanged (R43, R44, R319, R372, R373, R376). -/

namespace Sys2Proof.Proofs
open Sys2Proof.Machine Sys2Proof.Claims

variable {s : State} {n m : Nat}

/-! ### The register map (R372) -/

/-- The registers whose every bit is writable. -/
def csrWhole : List Nat := [0x002, 0x009, 0x102, 0x104, 0x106, 0x107]

/-- The registers without a writable field. -/
def csrReadOnly : List Nat := [0x008, 0x010, 0x011, 0x012, 0x013, 0x014, 0x018, 0x108, 0x109]

theorem csrOk_cases (h : csrOk n = true) : n = 0 ∨ n = 1 ∨ n ∈ csrWhole ∨ n ∈ csrReadOnly ∨ n = 0x003 ∨ n = 0x100 ∨ n = 0x101 ∨ n = 0x103 ∨
    n = 0x105 := by
  simp only [csrOk, Bool.or_eq_true, Bool.and_eq_true, decide_eq_true_eq] at h
  simp only [csrWhole, csrReadOnly, List.mem_cons, List.not_mem_nil, or_false]
  omega

/-! ### The core or its context written -/

@[simp] theorem ctxAt_setCore (s : State) (c : Core) (k : Nat) : ctxAt { s with core := c } k = ctxAt s k := rfl
@[simp] theorem ctxidOf_setCore (s : State) (c : Core) (k : Nat) : ctxidOf { s with core := c } k = ctxidOf s k := rfl
@[simp] theorem setCurCtx_core (s : State) (x : Context) : (setCurCtx s x).core = s.core := rfl

theorem ctxAt_setCurCtx (h : tabSorted s.ctxs = true) (x : Context) : ctxAt (setCurCtx s x) s.core.ctx = x := by
  simp [setCurCtx, ctxAt, setCtx, tabGet_set _ h]

theorem curCtx_setCurCtx (h : tabSorted s.ctxs = true) (x : Context) : curCtx (setCurCtx s x) = x := ctxAt_setCurCtx h x

/-- CTXID is the slot's number with its world and virtual device (R373). -/
theorem ctxidOf_setCurCtx (h : tabSorted s.ctxs = true) {x : Context} (hw : x.world = (ctxAt s s.core.ctx).world)
    (hv : x.vd = (ctxAt s s.core.ctx).vd) :
    ctxidOf (setCurCtx s x) s.core.ctx = ctxidOf s s.core.ctx := by
  simp only [ctxidOf, ctxAt_setCurCtx h, hw, hv]

/-! ### What a CSR write leaves unchanged -/

theorem csrWrite_streams (new : Word) (st : StreamName) : streamOf (csrWrite s n new).core st = streamOf s.core st := by
  unfold csrWrite
  split <;> cases st <;> rfl

theorem csrWrite_mem (new : Word) : (csrWrite s n new).mem = s.mem := by
  unfold csrWrite
  split <;> rfl

/-- The other registers stay. -/
theorem csrRead_csrWrite_ne (h : tabSorted s.ctxs = true) (hm : m ≠ n) (new : Word) : csrRead (csrWrite s n new) m = csrRead s m := by
  unfold csrWrite
  -- each register written, against each row of the map: it is not the one read, or the row reads what it read
  split <;> unfold csrRead <;> split <;> simp [curCtx, ctxAt_setCurCtx h, ctxidOf_setCurCtx h] at hm ⊢

theorem csrRead_vstat_ne (hm : m ≠ 0) (w : Word) : csrRead { s with core := { s.core with vstat := w } } m = csrRead s m := by
  unfold csrRead
  split <;> simp [curCtx] at hm ⊢

/-! ### The value that a CSR write leaves -/

theorem csrWrite_of_readOnly (hn : n ∈ csrReadOnly) (new : Word) : csrWrite s n new = s := by
  revert n
  simp only [csrReadOnly, List.forall_mem_cons, List.not_mem_nil, false_imp_iff, implies_true, and_true]
  and_intros <;> rfl

theorem csrRead_csrWrite_whole (h : tabSorted s.ctxs = true) (hn : n ∈ csrWhole) (new : Word) : csrRead (csrWrite s n new) n = new := by
  revert n
  simp only [csrWhole, List.forall_mem_cons, List.not_mem_nil, false_imp_iff, implies_true, and_true]
  and_intros <;> simp [csrWrite, csrRead, curCtx_setCurCtx h]

theorem csrRead_csrWrite_vctl (new : Word) : csrRead (csrWrite s 1 new) 1 =
    if 6 ≤ new.toNat % 8 then csrRead s 1 &&& ~~~0xF8 ||| new &&& 0xF8 else csrRead s 1 &&& ~~~0xFF ||| new &&& 0xFF := by
  show vctlWritten s.core.vctlLo new = _
  rw [vctlWritten, bitField_low, apply_ite (mergeBits s.core.vctlLo new)]
  rfl

/-- WAITCTL (R319). -/
theorem csrRead_csrWrite_waitctl (h : tabSorted s.ctxs = true) (new : Word) : csrRead (csrWrite s 0x003 new) 0x003 =
    if 10 ≤ new.toNat % 64 ∧ new.toNat % 64 ≤ 40 then csrRead s 0x003 &&& ~~~0x3F ||| new &&& 0x3F else csrRead s 0x003 := by
  simp only [csrRead, csrWrite, curCtx_setCurCtx h, waitctlWritten, bitField_low]
  rfl

/-- TVEC (R373). -/
theorem csrRead_csrWrite_tvec (h : tabSorted s.ctxs = true) (new : Word) : csrRead (csrWrite s 0x100 new) 0x100 =
    if new.toNat % 8 = 0 ∧ new.toNat / 2 ^ 55 = 0 then new else csrRead s 0x100 := by
  have hhigh : bitField new.toNat 55 9 = new.toNat / 2 ^ 55 := by rw [bitField]; omega
  simp only [csrRead, csrWrite, curCtx_setCurCtx h, tvecWritten, bitField_low, hhigh]
  rfl

/-- TVLEN (R373). -/
theorem csrRead_csrWrite_tvlen (h : tabSorted s.ctxs = true) (new : Word) : csrRead (csrWrite s 0x101 new) 0x101 =
    if new.toNat % 4 = 0 ∧ new.toNat % 2 ^ 25 ≤ 2 ^ 24 then BitVec.ofNat 64 (new.toNat % 2 ^ 25) else csrRead s 0x101 := by
  have h4 : new.toNat % 2 ^ 25 % 4 = new.toNat % 4 := by omega
  simp only [csrRead, csrWrite, curCtx_setCurCtx h, tvlenWritten, bitField_low, h4]

/-- TDEL1 (R373). -/
theorem csrRead_csrWrite_tdel1 (h : tabSorted s.ctxs = true) (new : Word) :
    csrRead (csrWrite s 0x103 new) 0x103 = csrRead s 0x103 &&& ~~~0xFFFFFFFF ||| new &&& 0xFFFFFFFF := by
  simp only [csrRead, csrWrite, curCtx_setCurCtx h, mergeBits]

/-- TSTAT (R373). -/
theorem csrRead_csrWrite_tstat (new : Word) : csrRead (csrWrite s 0x105 new) 0x105 = csrRead s 0x105 &&& ~~~0xFF0F00 ||| new &&& 0xFF0F00 := rfl

/-- Bits `lo` to `lo + w - 1` hold all of a multiple of `2 ^ lo` below `2 ^ (lo + w)`. -/
theorem and_mask_eq_self {x mask : Word} (lo w : Nat) (hmask : mask.toNat = (2 ^ w - 1) <<< lo) (hlo : x.toNat % 2 ^ lo = 0)
    (hw : x.toNat / 2 ^ lo < 2 ^ w) : x &&& mask = x := by
  apply BitVec.eq_of_toNat_eq
  have hx : x.toNat = (x.toNat / 2 ^ lo) <<< lo := by rw [Nat.shiftLeft_eq, Nat.div_mul_cancel (Nat.dvd_of_mod_eq_zero hlo)]
  rw [BitVec.toNat_and, hmask, hx, ← Nat.shiftLeft_and_distrib, Nat.and_two_pow_sub_one_eq_mod, Nat.mod_eq_of_lt hw]

/-- The lowest bits of a word are those under their mask. -/
theorem and_lowMask {x mask : Word} (w : Nat) (hmask : mask.toNat = 2 ^ w - 1) : x &&& mask = BitVec.ofNat 64 (x.toNat % 2 ^ w) := by
  apply BitVec.eq_of_toNat_eq
  have hlt : x.toNat % 2 ^ w < 2 ^ 64 := lt_of_le_of_lt (Nat.mod_le _ _) x.isLt
  rw [BitVec.toNat_and, hmask, Nat.and_two_pow_sub_one_eq_mod, BitVec.toNat_ofNat, Nat.mod_eq_of_lt hlt]

theorem csrField_whole (hn : n ∈ csrWhole) (new : Word) : csrField n new = (BitVec.allOnes 64, True) := by
  revert n
  simp only [csrWhole, List.forall_mem_cons, List.not_mem_nil, false_imp_iff, implies_true, and_true]
  and_intros <;> rfl

theorem csrField_readOnly (hn : n ∈ csrReadOnly) (new : Word) : csrField n new = (0, True) := by
  revert n
  simp only [csrReadOnly, List.forall_mem_cons, List.not_mem_nil, false_imp_iff, implies_true, and_true]
  and_intros <;> rfl

/-- The writable fields of a CSR hold the new value where the map performs the write, and everything else of it what it held. -/
theorem csrRead_csrWrite_same (h : tabSorted s.ctxs = true) (hok : csrOk n = true) (h0 : n ≠ 0) (h1 : n ≠ 1) (new : Word) :
    let f := csrField n new
    let old := csrRead s n
    (f.2 → (n = 0x100 ∨ n = 0x101 → old &&& ~~~f.1 = 0) → csrRead (csrWrite s n new) n = old &&& ~~~f.1 ||| new &&& f.1) ∧
    (¬ f.2 → csrRead (csrWrite s n new) n = old) := by
  intro f old
  rcases csrOk_cases hok with hn | hn | hn | hn | rfl | rfl | rfl | rfl | rfl
  · exact absurd hn h0
  · exact absurd hn h1
  · rw [show f = _ from csrField_whole hn new, csrRead_csrWrite_whole h hn, BitVec.not_allOnes, BitVec.and_zero, BitVec.zero_or, BitVec.and_allOnes]
    exact ⟨fun _ _ => rfl, fun hp => absurd trivial hp⟩
  · rw [show f = _ from csrField_readOnly hn new, csrWrite_of_readOnly hn]
    refine ⟨fun _ _ => ?_, fun hp => absurd trivial hp⟩
    show old = old &&& ~~~0#64 ||| new &&& 0#64
    rw [BitVec.and_zero, BitVec.or_zero, BitVec.not_zero, BitVec.and_allOnes]
  · rw [csrRead_csrWrite_waitctl h]
    exact ⟨fun hp _ => if_pos hp, fun hp => if_neg hp⟩
  · rw [csrRead_csrWrite_tvec h]
    refine ⟨fun hp hz => ?_, fun hp => if_neg hp⟩
    obtain ⟨hlow, hhigh⟩ := hp
    rw [if_pos ⟨hlow, hhigh⟩, hz (.inl rfl)]
    exact (and_mask_eq_self 3 52 rfl hlow (by omega)).symm.trans BitVec.zero_or.symm
  · rw [csrRead_csrWrite_tvlen h]
    refine ⟨fun hp hz => ?_, fun hp => if_neg hp⟩
    rw [hz (.inr rfl)]
    exact (if_pos hp).trans ((and_lowMask 25 rfl).symm.trans BitVec.zero_or.symm)
  · rw [csrRead_csrWrite_tdel1 h]
    exact ⟨fun _ _ => rfl, fun hp => absurd trivial hp⟩
  · rw [csrRead_csrWrite_tstat]
    exact ⟨fun _ _ => rfl, fun hp => absurd trivial hp⟩

/-! ### The CSR instructions (R376) -/

/-- What CSRW, CSRS and CSRC leave of the machine before gd is written: `clears` where the instruction clears W1C fields by `v`. -/
def csrLeaves (s : State) (n : Nat) (new v : Word) (clears : Bool) : State := if clears then csrClear (csrWrite s n new) n v else csrWrite s n new

theorem csrLeaves_vstat (new v : Word) (clears : Bool) :
    csrLeaves s 0 new v clears = if clears then { s with core := { s.core with vstat := s.core.vstat &&& ~~~(v &&& 0xFF) } } else s := rfl

theorem csrLeaves_of_ne_zero (hn : n ≠ 0) (new v : Word) (clears : Bool) : csrLeaves s n new v clears = csrWrite s n new := by
  cases clears
  · rfl
  · exact if_neg hn

/-- VSTAT aside from its clearing, the streams, memory and every other register stay. -/
theorem csrLeaves_frame (h : tabSorted s.ctxs = true) (new v : Word) (clears : Bool) :
    let t := csrLeaves s n new v clears
    (∀ st, streamOf t.core st = streamOf s.core st) ∧ t.mem = s.mem ∧ ∀ m, m ≠ n → csrRead t m = csrRead s m := by
  by_cases hn : n = 0
  · subst hn
    rw [csrLeaves_vstat]
    cases clears
    · exact ⟨fun _ => rfl, rfl, fun _ _ => rfl⟩
    · refine ⟨fun st => by cases st <;> rfl, rfl, fun m hm => ?_⟩
      exact csrRead_vstat_ne hm _
  · rw [csrLeaves_of_ne_zero hn]
    exact ⟨csrWrite_streams new, csrWrite_mem new, fun m hm => csrRead_csrWrite_ne h hm new⟩

/-- A CSR of the map, at the level it needs, is reached. -/
theorem onCsr_reached (hok : csrOk n = true) (hp : csrPriv n = true → s.cur = .c ∧ s.core.tstat.getLsbD 0 = true) (r : Outcome) : onCsr s n r = r := by
  rw [onCsr, if_neg (by simp [hok])]
  split
  case isTrue h =>
    obtain ⟨hc, ht⟩ := hp h
    exact if_pos (by simp [levelP, hc, ht])
  case isFalse => rfl

/-- CSRW, CSRS and CSRC form the new word of the whole register (log 58). -/
theorem exec_csrUpdate (s : State) (d a n : Nat) :
    let old := csrRead s n
    let v := readReg s a
    ∀ p ∈ [(Instr.csrw d a n, v, true), (.csrs d a n, old ||| v, false), (.csrc d a n, old &&& ~~~v, true)],
      exec p.1 s = onCsr s n (finish (writeReg (csrLeaves s n p.2.1 v p.2.2) d old)) := by
  intro old v
  simp only [List.forall_mem_cons, List.not_mem_nil, false_imp_iff, implies_true, and_true]
  exact ⟨rfl, rfl, rfl⟩

/-- Settles O46: the instruction reaches its register, and each field of it follows the map. -/
theorem csrResults : Obligations.CsrResults := by
  intro s d a n hok hp hs old v
  refine ⟨onCsr_reached hok hp _, fun p hmem => ?_⟩
  obtain ⟨hstreams, hmem', hothers⟩ := csrLeaves_frame (n := n) hs p.2.1 v p.2.2
  refine ⟨csrLeaves s n p.2.1 v p.2.2, (exec_csrUpdate s d a n p hmem).trans (onCsr_reached hok hp _), hstreams, hmem', hothers,
    fun h0 => ?vstat, fun h1 => ?vctl, fun h0 h1 => ?fields⟩
  case vstat =>
    subst h0
    rw [csrLeaves_vstat]
    split <;> rfl
  case vctl =>
    subst h1
    rw [csrLeaves_of_ne_zero (by omega), csrRead_csrWrite_vctl]
  case fields =>
    rw [csrLeaves_of_ne_zero h0]
    exact csrRead_csrWrite_same hs hok h0 h1 p.2.1

end Sys2Proof.Proofs
end

section
/-! PROOF. The group instructions at the head of the group engine: the contribution sent, the start, and the results (R48, R49, R326, R329 to R333). -/

namespace Sys2Proof.Proofs
open Sys2Proof.Machine Sys2Proof.Claims

variable {s : State} {e : QEntry} {k seq : Nat} {sent : Bool} {op : GroupOp} {make : State → Res (State × Contents)}
  {final : State → QEntry → GroupSlot → List Contribution → UnitRes}

/-! ### A unit of a group instruction, by its phase (R326, R329 to R331) -/

/-- The final phase. -/
theorem unitGroup_started (hp : e.part = .group seq sent) (hs : e.started = true) :
    unitGroup s e k op make final = final s e (groupAt s.core k) (contribsOf s (groupAt s.core k).key seq) := by
  simp only [unitGroup, hp, hs, if_true]

/-- On a slot that is not JOINED the instruction faults (R326). -/
theorem unitGroup_notJoined (hp : e.part = .group seq sent) (hs : e.started = false) (hg : (groupAt s.core k).state ≠ 2) :
    unitGroup s e k op make final =
      .error (.trap { cause := .groupAborted, esw := if (groupAt s.core k).state = 3 then (groupAt s.core k).reason else 5 }) := by
  simp [unitGroup, hp, hs, joined, hg, groupFault]

/-- The contribution is sent once, to every member's package (R329, R330). -/
theorem unitGroup_sends (hp : e.part = .group seq false) (hs : e.started = false) (hg : (groupAt s.core k).state = 2) {x : Contents}
    (hm : make s = .ok (s, x)) :
    let g := groupAt s.core k
    unitGroup s e k op make final = .ok ⟨announce s g { op.entry { g with seq := seq } (e.descs.map descOf) e.hvals with
      integer := x.1, bits := x.2.1, vals := x.2.2, sent := true }, { e with part := .group seq true }, false⟩ := by
  simp [unitGroup, hp, hs, joined, hg, hm]

/-- What follows the sending: the notice of a member that has left, the comparison of the announcements, the start, the wait (R329, R331). -/
theorem unitGroup_waits (hp : e.part = .group seq true) (hs : e.started = false) (hg : (groupAt s.core k).state = 2) :
    let g := groupAt s.core k
    let cs := contribsOf s g.key seq
    unitGroup s e k op make final =
      if cs.any (fun c => c.kind = 4) then .ok ⟨{ s with core := setGroup s.core k { g with state := 3, reason := 3 } }, e, false⟩
      else if mismatched cs then .ok ⟨abortGroup s g.key 4 g.members, e, false⟩
      else if complete g cs then .ok ⟨s, { e with started := true }, false⟩
      else .ok ⟨s, e, false⟩ := by
  simp [unitGroup, hp, hs, joined, hg]

/-! ### The announcements compared (R329, R333) -/

theorem mismatched_iff (cs : List Contribution) : mismatched cs = true ↔ (∃ c ∈ cs, 2 ≤ c.kind ∧ c.op ≠ 0) ∨
    ∃ z, cs.find? (fun c => c.rank = 0) = some z ∧
      ∃ c ∈ cs, ¬ (z.kind = c.kind ∧ z.op = c.op ∧ z.n = c.n ∧ z.fmt = c.fmt ∧ z.root = c.root) := by
  unfold mismatched
  cases hz : cs.find? fun c => c.rank = 0 <;> simp [announcedAlike, imp_iff_not_or, or_assoc]

theorem complete_iff (g : GroupSlot) (cs : List Contribution) : complete g cs = true ↔ ∀ q < g.size, ∃ c ∈ cs, c.rank = q ∧ c.sent = true := by
  simp [complete, mem_upFrom]

/-! ### What a member sends (R330, R333) -/

/-- Sending to packages charges purses, and changes nothing else. -/
theorem chargeSends_purses (n : Nat) (ps : List Nat) (s : State) :
    ∃ q, ps.foldl (fun t p => chargeSend t (curCtx t).vd p n) s = { s with purses := q } := by
  induction ps generalizing s with
  | nil => exact ⟨s.purses, rfl⟩
  | cons p ps ih =>
    obtain ⟨q, hq⟩ := ih (chargeSend s (curCtx s).vd p n)
    exact ⟨q, hq⟩

/-- The state with a contribution's flits charged for each other package (R388, log 95). -/
def chargedFor (s : State) (g : GroupSlot) (c : Contribution) : State :=
  let flits := max 1 ((8 * max c.bits.length c.vals.length + 223) / 224)
  (otherPackages s g).foldl (fun t p => chargeSend t (curCtx t).vd p flits) s

/-- A contribution takes the place of its member's entry, is sent where other packages have members, and is charged for each of these. -/
theorem announce_eq (s : State) (g : GroupSlot) (c : Contribution) : announce s g c =
    { chargedFor s g c with
      contribs := s.contribs.filter (fun x => ¬ (x.key = c.key ∧ x.seq = c.seq ∧ x.rank = c.rank)) ++ [c],
      outbox := s.outbox ++ if ∀ m ∈ g.members, m = s.package then [] else [.contribute c] } := by
  obtain ⟨q, ht⟩ : ∃ q, chargedFor s g c = { s with purses := q } := chargeSends_purses _ _ s
  have hann : announce s g c =
      { chargedFor s g c with
        contribs := ((chargedFor s g c).contribs.filter fun x => !sameEntry x c) ++ [c],
        outbox := if g.members.all (· = (chargedFor s g c).package) then (chargedFor s g c).outbox
          else (chargedFor s g c).outbox ++ [.contribute c] } := rfl
  have hsame : (fun x => !sameEntry x c) = fun x => decide ¬ (x.key = c.key ∧ x.seq = c.seq ∧ x.rank = c.rank) := by
    funext x; simp [sameEntry, ← Bool.decide_and, and_assoc]
  have hout : (if g.members.all (· = s.package) then s.outbox else s.outbox ++ [Message.contribute c]) =
      s.outbox ++ if ∀ m ∈ g.members, m = s.package then [] else [.contribute c] := by
    simp only [List.all_eq_true, decide_eq_true_eq]
    split <;> simp
  rw [hann, ht, hsame, ← hout]

theorem raiseFlags_zero (s : State) (vctl : Word) : raiseFlags s vctl 0 = .ok s := by
  rw [raiseFlags, if_neg (by simp), show enabledTrap vctl 0 = none by simp [enabledTrap], mergeFlags_zero]

/-- The flags of some values that raise none. -/
theorem foldl_noFlags (xs : List XR) : (xs.map fun x => (x, (0 : Flags))).foldl (fun a v => a ||| v.2) 0 = 0 := by
  induction xs with
  | nil => rfl
  | cons x xs ih => simpa using ih

/-- The member's contribution to GRED: the exact value of each element (R333). -/
theorem gredMake_of {f : Nat → XR} (h : ∀ j < descN (descOf (e.descs.getD 1 0)), valueIs s (descOf (e.descs.getD 1 0)) j (f j)) :
    gredMake e s = .ok (s, intClass (descOf (e.descs.getD 1 0)), [], (upFrom 0 (descN (descOf (e.descs.getD 1 0)))).map fun j => packReal (f j)) := by
  have hread : mapRes (fun s i => presentVal s (operandAt e 1 2) i) s (upFrom 0 (descN (operandAt e 1 2).d)) =
      .ok (s, ((upFrom 0 (descN (operandAt e 1 2).d)).map f).map fun x => (x, (0 : Flags))) := by
    rw [List.map_map]
    exact mapRes_of fun j hj => presentVal_of (descOf_exts _) (h j (by rw [mem_upFrom] at hj; exact hj.2.trans_eq (Nat.zero_add _)))
  simp only [gredMake, hread, foldl_noFlags, entryFlags, raiseFlags_zero]
  rw [List.map_map, List.map_map]
  rfl

/-- The member's contribution to GBCAST and GGATH: the raw bits (R333). -/
theorem bitsMake_of {u : Nat → Nat} (h : ∀ j < descN (descOf (e.descs.getD 1 0)), bitsAre s (descOf (e.descs.getD 1 0)) j (u j)) :
    bitsMake e s = .ok (s, false, (upFrom 0 (descN (descOf (e.descs.getD 1 0)))).map u, []) := by
  have hread := mapRes_of (s := s) (l := upFrom 0 (descN (descOf (e.descs.getD 1 0)))) (g := u) (f := fun s i => presentBits s (operandAt e 1 2) i)
    fun j hj => presentBits_of (o := operandAt e 1 2) (h j (by rw [mem_upFrom] at hj; omega))
  show (mapRes _ s (upFrom 0 (descN (operandAt e 1 2).d))).map _ = _
  rw [show (operandAt e 1 2).d = descOf (e.descs.getD 1 0) from rfl, hread]
  rfl

/-! ### The values received (R48, R49, R333) -/

/-- An exact value comes back from a contribution. -/
theorem unpackReal_packReal {x : XR} (h : ∀ b t r, x = .fin b t r → r ≠ 0) : unpackReal (packReal x) = x := by
  cases x with
  | nan => rfl
  | inf neg => rfl
  | fin neg n d => exact if_neg (h neg n d rfl)

/-- The value of GRED is the tree over rank of what the members sent (R48, R333). -/
theorem gredValue_of {op : ScanOp} {g : GroupSlot} {cs : List Contribution} {i : Nat} {x : Nat → XR} {v : FV}
    (hx : ∀ q < g.size, ∃ c, cs.find? (fun c => c.rank = q) = some c ∧ c.vals[i]? = some (packReal (x q)) ∧ ∀ b t r, x q = .fin b t r → r ≠ 0)
    (hv : tree (combine (cs.all (·.integer)) (redComb (scanRed op))) ((upFrom 0 g.size).map fun q => (x q, 0)) = some v) :
    gredValue op g cs i = v := by
  have hleaf : ∀ q ∈ upFrom 0 g.size,
      (unpackReal (((cs.find? fun c => c.rank = q).map fun c => c.vals.getD i (false, 0, 1)).getD (false, 0, 1)), (0 : Flags)) = (x q, 0) := by
    intro q hq
    obtain ⟨c, hc, hi, hden⟩ := hx q (by rw [mem_upFrom] at hq; omega)
    rw [hc, Option.map_some, Option.getD_some, List.getD_eq_getElem?_getD, hi, Option.getD_some, unpackReal_packReal hden]
  rw [gredValue, List.map_congr_left hleaf, treeOr, hv, Option.getD_some]

/-! ### The unit of each instruction -/

theorem runUnit_gsync {y : Sync} (hi : e.instr = .gsync k y) :
    runUnit s e = unitGroup s e k gsyncOp (fun s => .ok (s, (false, [], []))) fun s e _ _ => .ok ⟨s, e, true⟩ := by
  rw [runUnit, hi]; rfl

theorem runUnit_gred {op : ScanOp} {dd da : Nat} {rm : Rm} {y : Sync} (hi : e.instr = .gred op k dd da rm y) :
    runUnit s e = unitGroup s e k (gredOp op) (gredMake e) fun s e' g cs =>
      unitWrite s e' (operandAt e 0 1) rm (descN (operandAt e 0 1).d) fun s i => .ok (s, gredValue op g cs i) := by
  rw [runUnit, hi]; rfl

theorem runUnit_gbcast {dd da hb : Nat} {y : Sync} (hi : e.instr = .gbcast k dd da hb y) :
    runUnit s e = unitGroup s e k gbcastOp (bitsMake e) fun s e' _ cs =>
      unitRaw s e' (operandAt e 0 1) (descN (operandAt e 0 1).d) fun s i =>
        .ok (s, ((cs.find? fun c => c.rank = c.root).map fun c => c.bits.getD i 0).getD 0) := by
  rw [runUnit, hi]; rfl

theorem runUnit_ggath {dd da : Nat} {y : Sync} (hi : e.instr = .ggath k dd da y) :
    runUnit s e = unitGroup s e k ggathOp (bitsMake e) fun s e' _ cs =>
      let n := descN (operandAt e 1 2).d
      unitRaw s e' (operandAt e 0 1) (descN (operandAt e 0 1).d) fun s i =>
        .ok (s, ((cs.find? fun c => c.rank = i / n).map fun c => c.bits.getD (i % n) 0).getD 0) := by
  rw [runUnit, hi]; rfl

/-- The bits of an element in a contribution that is held. -/
theorem sentBits_of {o : Option Contribution} {c : Contribution} {i b : Nat} (ho : o = some c) (h : c.bits[i]? = some b) :
    (o.map fun c => c.bits.getD i 0).getD 0 = b := by
  rw [ho, Option.map_some, Option.getD_some, List.getD_eq_getElem?_getD, h, Option.getD_some]

/-- Raw bits that a unit of `unitRaw` forms without a change of state are received by its element (R333). -/
theorem receivesBits_of {o : Operand} {limit b : Nat} {f : State → Nat → Res (State × Nat)} (h : runUnit s e = unitRaw s e o limit f)
    (hf : f s e.progress = .ok (s, b)) (hi : e.progress < limit) (hc : canHold s o.d e.progress) :
    receivesBits s e o.d e.progress b 0 (e.progress + 1) limit e.part := by
  intro _ _
  rw [mergeFlags_zero]
  rw [unitRaw, if_neg (by omega)] at h
  simp only [hf, putElem_of hc] at h
  exact ⟨_, h, rfl, rfl, by simp⟩

/-- A member's instruction on a JOINED slot sends what it makes, as its announcement. -/
theorem runUnit_sends {x : Contents} {c : Contribution} (h : runUnit s e = unitGroup s e k op make final) (hp : e.part = .group seq false)
    (hs : e.started = false) (hg : (groupAt s.core k).state = 2) (hm : make s = .ok (s, x))
    (hc : { op.entry { groupAt s.core k with seq := seq } (e.descs.map descOf) e.hvals with
      integer := x.1, bits := x.2.1, vals := x.2.2, sent := true } = c) :
    runUnit s e = .ok ⟨{ chargedFor s (groupAt s.core k) c with
      contribs := s.contribs.filter (fun x => ¬ (x.key = c.key ∧ x.seq = c.seq ∧ x.rank = c.rank)) ++ [c],
      outbox := s.outbox ++ if ∀ m ∈ (groupAt s.core k).members, m = s.package then [] else [.contribute c] }, { e with part := .group seq true }, false⟩ := by
  rw [h, unitGroup_sends hp hs hg hm, hc, announce_eq]

theorem b2n_not (b : Bool) : b2n (!b) = if b then 0 else 1 := by cases b <;> rfl

/-- A descriptor that an entry has sampled, among all of them. -/
theorem descs_getD {i : Nat} (h : i < e.descs.length) : (e.descs.map descOf).getD i default = descOf (e.descs.getD i 0) := by
  rw [List.getD_eq_getElem _ _ (by simpa using h), List.getD_eq_getElem _ _ h, List.getElem_map]

/-- Settles O38: a group instruction's unit by its phase, with what its instruction sends and forms. -/
theorem collectiveResults : Obligations.CollectiveResults := by
  intro s e k dd da hb op rm y f u seq sent g d p i n cs from_ root isOne sends told num agree apart left_ all_ hlen hpart
  have hunit : isOne → ∃ gop make final, runUnit s e = unitGroup s e k gop make final := by
    rintro (hi | hi | hi | hi)
    · exact ⟨_, _, _, runUnit_gsync hi⟩
    · exact ⟨_, _, _, runUnit_gred hi⟩
    · exact ⟨_, _, _, runUnit_gbcast hi⟩
    · exact ⟨_, _, _, runUnit_ggath hi⟩
  have hd : (e.descs.map descOf).getD 0 default = d := descs_getD (by omega)
  have hp : (e.descs.map descOf).getD 1 default = p := descs_getD (by omega)
  refine ⟨fun hs hg hsent => ?sending, fun hone hs hg hsent => ?waiting, fun hone hs hg => ?notJoined, fun hs hi => ?gsync, fun hs hlt hsc hc => ?results⟩
  case sending =>
    subst hsent
    refine ⟨fun hi hv => ?gred, fun hi hr hb => ?gbcast, fun hi hb => ?ggath⟩
    case gred =>
      refine runUnit_sends (runUnit_gred hi) hpart hs hg (gredMake_of hv) ?_
      simp only [gredOp, hp]
      cases op <;> rfl
    case gbcast =>
      have hroot : rootOf (e.hvals.headD 0) = root := bitField_low _ _
      refine runUnit_sends (runUnit_gbcast hi) hpart hs hg (bitsMake_of hb) ?_
      simp only [gbcastOp, hd, hp, hroot, if_pos (show (groupAt s.core k).rank = root from hr), ← Bool.decide_and, b2n_not]
      rfl
    case ggath =>
      refine runUnit_sends (runUnit_ggath hi) hpart hs hg (bitsMake_of hb) ?_
      simp only [ggathOp, hd, hp, ne_eq, decide_not, b2n_not]
      rfl
  case waiting =>
    subst hsent
    obtain ⟨gop, make, final, hu⟩ := hunit hone
    have hleft : left_ ↔ cs.any (fun c => c.kind = 4) = true := by simp [left_]
    have hapart : apart ↔ mismatched cs = true := (mismatched_iff cs).symm
    have hall : all_ ↔ complete g cs = true := (complete_iff g cs).symm
    rw [hu, unitGroup_waits hpart hs hg, hleft, hapart, hall]
    exact ⟨fun h => if_pos h, fun h h' => (if_neg h).trans (if_pos h'), fun h h' h'' => (if_neg h).trans ((if_neg h').trans (if_pos h'')),
      fun h h' h'' => (if_neg h).trans ((if_neg h').trans (if_neg h''))⟩
  case notJoined =>
    obtain ⟨gop, make, final, hu⟩ := hunit hone
    rw [hu, unitGroup_notJoined hpart hs hg]
  case gsync =>
    rw [runUnit_gsync hi]
    exact unitGroup_started hpart hs
  case results =>
    refine ⟨fun x hx hi _ v hv => ?gred, fun c b hfind hb hi => ?gbcast, fun c b hfind hb hi => ?ggath⟩
    case gred =>
      refine receives_of (o := operandAt e 0 1) ((runUnit_gred hi).trans (unitGroup_started hpart hs)) ?_ hlt hsc hc
      refine congrArg (fun v => Except.ok (s, v)) (gredValue_of hx ?_)
      cases op <;> exact hv
    case gbcast =>
      refine receivesBits_of (o := operandAt e 0 1) ((runUnit_gbcast hi).trans (unitGroup_started hpart hs)) ?_ hlt hc
      exact congrArg (fun b => Except.ok (s, b)) (sentBits_of hfind hb)
    case ggath =>
      refine receivesBits_of (o := operandAt e 0 1) ((runUnit_ggath hi).trans (unitGroup_started hpart hs)) ?_ hlt hc
      exact congrArg (fun b => Except.ok (s, b)) (sentBits_of hfind hb)

end Sys2Proof.Proofs
end

section
/-! PROOF. A block-scaled destination whose COUNT is 0 (R31, R145, R149, R186). -/

namespace Sys2Proof.Proofs
open Sys2Proof.Machine Sys2Proof.Claims

variable {s : State} {e : QEntry} {o : Operand} {rm : Rm} {i limit : Nat} {f : State → Nat → Res (State × FV)}

/-- A destination of COUNT 0 has no element in a block. -/
theorem blockIndices_of_count_zero {d : Desc} (h : descCount d = 0) (i limit : Nat) : blockIndices d i limit = [] := by
  simp [blockIndices, blockOf, h, upFrom]

/-- A unit that finds no element in its block leaves the entry at progress 0, wherever it stood. -/
theorem unitWrite_progress_of_empty_block {u : UnitOut} (hi : e.progress < limit) (hs : (descScale o.d).isSome = true)
    (hb : blockIndices o.d e.progress limit = []) (h : unitWrite s e o rm limit f = .ok u) : u.e.progress = 0 := by
  rw [unitWrite, if_neg (by omega), if_pos hs, hb] at h
  simp only [mapRes] at h
  split at h
  case h_1 => cases h
  case h_2 => cases h; rfl

/-- So does VBCAST on a block-scaled destination of COUNT 0. -/
theorem unitVbcast_progress_of_count_zero {u : UnitOut} {kind : BcastKind} (hi : e.progress < vlim e (operandAt e 0 1).d)
    (hs : (descScale (operandAt e 0 1).d).isSome = true) (hc : descCount (operandAt e 0 1).d = 0) (h : unitVbcast s e kind rm = .ok u) :
    u.e.progress = 0 := by
  unfold unitVbcast at h
  exact unitWrite_progress_of_empty_block hi hs (blockIndices_of_count_zero hc _ _) h

/-- A descriptor of a region of the scratchpad in E4M3, of COUNT 0, with E8M0 scales of blocks of 16. -/
def emptyScaled : DescWord := 1 <<< 61 ||| 3 <<< 55 ||| 1 <<< 176

/-- An entry of VBCAST on that destination, at element 16 of 17: a count that issue, which clamps it under R137, gives to no such entry. -/
def pastEmptyBlock : QEntry :=
  { instr := .vbcast .hi64 0 0 none default, stream := .v, seq := 0, pc := 0, words := 0, progress := 16, count := 17, descs := [emptyScaled], hvals := [],
    claims := [], vctl := 0, seed := 0, part := .none, started := false, stopped := false, stall := none }

/-- Refutes O31: where the COUNT of a block-scaled destination is 0, an entry at progress 16 of 17 stands at the start of an empty block; the statement
leaves it at 16, and the unit leaves it at 0. -/
theorem not_vectorElements : ¬ Obligations.VectorElements := by
  intro h
  obtain ⟨-, hblock⟩ := h State.reset pastEmptyBlock 0 0 0 0 0 none default false (by decide)
  obtain ⟨hbcast, -⟩ := hblock .e8m0 rfl rfl rfl (List.forall_mem_nil _) (by decide) (by decide)
  obtain ⟨u, hu, -, he, -⟩ := (hbcast _ List.mem_cons_self rfl rfl).1 rfl
  have h16 : u.e.progress = 16 := by rw [he]; rfl
  have h0 : u.e.progress = 0 := unitVbcast_progress_of_count_zero (by decide) rfl rfl (show unitVbcast State.reset pastEmptyBlock .hi64 none = .ok u from hu)
  omega

end Sys2Proof.Proofs
end

section
/-! PROOF. What a step of the schedule's next turn does (R3, R66, R83, R412, R427). -/

namespace Sys2Proof.Proofs
open Sys2Proof.Machine Sys2Proof.Claims

/-! ### The next turn (R3, R412, R427) -/

theorem waitsBehind_iff {earlier : List Turn} {w : Turn} :
    waitsBehind earlier w = true ↔ ∃ v, hostFunction w = some v ∧ ∃ u ∈ earlier, hostFunction u = some v := by
  simp [waitsBehind, Option.any_eq_true]

/-- The schedule's turn is the next where none is pinned. -/
theorem nextTurn_unpinned {s : State} (h : s.pin = none) : nextTurn s = arrivesNow s s.turn := by rw [nextTurn, h]

/-- The turn of `nextIs` is taken in its state. -/
theorem nextTurn_of_nextIs {s d : State} {w : Turn} (h : nextIs s d w) : nextTurn s = takeTurn d w := by
  obtain ⟨hpin, rfl⟩ | ⟨hpin, rfl, hreq, hfree, rfl⟩ := h
  · rw [nextTurn, hpin]
  · have hw : waitsBehind d.hostHeld d.turn = false := by
      rw [Bool.eq_false_iff, Ne, waitsBehind_iff]
      rintro ⟨v, hv, u, hu, huv⟩
      exact hfree v u hv hu huv
    simp [nextTurn_unpinned hpin, arrivesNow, hw, hreq]

theorem step_of_nextTurn {s t : State} (h : nextTurn s = .next t) : step s = .next (endStep t) := by rw [step, h]

theorem takeTurn_stream {s : State} {core : Nat} (h : core < coreCount) (st : StreamName) : takeTurn s (.stream core st) = streamTurn s core st := by
  simp [takeTurn, turnOk, h]

theorem takeTurn_event {s : State} {i : Instr} (h : encode i = []) : takeTurn s (.event i) = exec i s := by simp [takeTurn, turnOk, h]

/-- A request that waits joins those that wait. -/
theorem arrivesNow_held {s : State} {w : Turn} (hok : turnOk w = true) (h : requestHeld s w = true ∨ waitsBehind s.hostHeld w = true) :
    arrivesNow s w = .next { s with hostHeld := s.hostHeld ++ [w] } := by
  rw [arrivesNow, if_pos]
  simpa [hok, or_comm] using h

/-! ### The instruction at the PC (R66, R83) -/

theorem decodeFetched_of {s : State} {ws : List Word32} {i : Instr} (h : decodeWords s.cur (levelP s) (tuned s) (ws.map (·.toNat)) = .ok i) :
    decodeFetched s ws = .ok ({ s with words := ws }, i) := by rw [decodeFetched, h]

/-- The steps of R66 fetch and decode the instruction that stands at the PC. -/
theorem nextInstr_of_standsAt {s t : State} {i : Instr} (h : standsAt s t i) : nextInstr s = .ok (t, i) := by
  obtain ⟨hdis, hpc, s1, w0, o, hf, hx, ho, h⟩ := h
  have hnow : displacedNow s = none := by rw [displacedNow, hdis]; rfl
  simp only [nextInstr, hnow, fetchDecode, hpc, hf, hx, ho]
  obtain ⟨hlong, hext, hd, rfl⟩ | ⟨hin, s2, w1, hf1, h⟩ := h
  · have hone : (o.ext && inImage s1 ((curStream s).pc.toNat + 4)) = false := by cases hext <;> simp [*]
    simp [hlong, hone, decodeFetched_of hd]
  · obtain ⟨hlong, hal, hd, rfl⟩ | ⟨hlong, hext, hx1, hd, rfl⟩ | ⟨hlong, hext, hx1, hd, rfl⟩ := h
    · simp [hlong, hal, hin, hf1, decodeFetched_of hd]
    · simp [hlong, hext, hin, hf1, hx1, decodeFetched_of hd]
    · simp [hlong, hext, hin, hf1, hx1, decodeFetched_of hd]

theorem issueOne_of_standsAt {s f t : State} {i : Instr} (h : standsAt s f i) (hx : exec i f = .next t) : issueOne s = .next (chargeIssue s t) := by
  simp only [issueOne, nextInstr_of_standsAt h, hx]

/-- A stream that runs and that nothing comes before issues its next instruction. -/
theorem issueTurn_issues {s : State} (hrun : (curStream s).state = .run) (hcore : coreRuns s s.focus = true) (hfault : (curStream s).fault = none)
    (hstep : (curStream s).step ≠ .due (levelP s))
    (hc : s.cur = .c → (tstatInh s.core = true ∨ firstPend s.core = none) ∧ timerDue s s.focus = false)
    (hfunds : 0 < purseFunds (purseAt s 0 s.focus (curCtx s).vd)) : issueTurn s = issueOne s := by
  have hpend : (decide (s.cur = .c) && !tstatInh s.core && (firstPend s.core).isSome) = false := by
    by_cases h : s.cur = .c
    · obtain hi | hp := (hc h).1 <;> simp [*]
    · simp [h]
  have htimer : (decide (s.cur = .c) && timerDue s s.focus) = false := by
    by_cases h : s.cur = .c
    · simp [(hc h).2]
    · simp [h]
  simp only [issueTurn, hrun, hcore, hstep, hfault, hpend, htimer, if_neg (not_le.2 hfunds)]
  simp

/-- Settles O10: the schedule gives the turn (`nextTurn_of_nextIs`), a stream's turn issues (`issueTurn_issues`) what the steps of R66 fetch, and a held
request only joins those that wait. -/
theorem stepRunsDecoded : Obligations.StepRunsDecoded := by
  refine ⟨fun s d core st i f t hn hcore => ?_, fun s d i t hn henc hx => ?_, fun s v off n bytes tee i hi hpin hturn hheld => ?_⟩
  · intro b hrun hcr hfault hstep hc hfunds hat hx
    refine step_of_nextTurn ?_
    calc nextTurn s = takeTurn d (.stream core st) := nextTurn_of_nextIs hn
      _ = issueTurn b := takeTurn_stream hcore st
      _ = issueOne b := issueTurn_issues hrun hcr hfault hstep hc hfunds
      _ = .next (chargeIssue b t) := issueOne_of_standsAt hat hx
  · exact step_of_nextTurn ((nextTurn_of_nextIs hn).trans ((takeTurn_event henc).trans hx))
  · obtain ⟨henc, hfn⟩ : encode i = [] ∧ hostFunction (.event i) = some v := by
      obtain rfl | rfl := by simpa using hi
      all_goals exact ⟨rfl, rfl⟩
    exact step_of_nextTurn <| calc nextTurn s
      _ = arrivesNow s (.event i) := (nextTurn_unpinned hpin).trans (congrArg (arrivesNow s) hturn)
      _ = _ := arrivesNow_held (by simp [turnOk, henc]) (hheld.imp_right fun hu => waitsBehind_iff.2 ⟨v, hfn, hu⟩)

end Sys2Proof.Proofs
end

section
/-! PROOF. Decoding gives back what encoding wrote: the immediates and the steps before the fields (R58, R59, R66). -/

namespace Sys2Proof.Proofs
open Sys2Proof.Machine Sys2Proof.Claims

variable {st : StreamName} {i : Instr} {e op w : Nat} {S : List StreamName} {x p : Bool} {y : Sync} {tail : List Nat}

/-! ### Immediates (R58) -/

theorem truncBits_lt (v : Int) (n : Nat) : truncBits v n < 2 ^ n := by
  have := Int.emod_lt_of_pos v (show (0 : Int) < 2 ^ n by positivity)
  rw [truncBits, Int.toNat_lt' (by positivity)]
  exact_mod_cast this

/-- A signed value that fits its field reads back. -/
theorem signExt_truncBits {n : Nat} (hn : 0 < n) {v : Int} (h : fitsS n v = true) : signExt (truncBits v n) n = v := by
  obtain ⟨m, rfl⟩ : ∃ m, n = m + 1 := ⟨n - 1, by omega⟩
  simp only [fitsS, Bool.and_eq_true, decide_eq_true_eq, Nat.add_sub_cancel] at h
  have hval : (truncBits v (m + 1) : Int) = v % (2 * 2 ^ m) := by
    rw [truncBits, pow_succ', Int.toNat_of_nonneg (Int.emod_nonneg _ (by positivity))]
  have hcast : ((2 ^ m : Nat) : Int) = 2 ^ m := by push_cast; rfl
  have hv : v % (2 * 2 ^ m) = if v < 0 then v + 2 * 2 ^ m else v := by
    split
    · exact (Int.add_emod_right v _).symm.trans (Int.emod_eq_of_lt (by omega) (by omega))
    · exact Int.emod_eq_of_lt (by omega) (by omega)
  rw [signExt, Nat.mod_eq_of_lt (truncBits_lt v _), pow_succ', pow_succ']
  generalize truncBits v (m + 1) = t at hval ⊢
  generalize (2 : Nat) ^ m = q at hcast ⊢
  rw [← hcast] at h hval hv ⊢
  split at hv <;> split <;> omega

theorem extension_lt (v : Int) (n : Nat) : truncBits v (n + 28) / 2 ^ n < 2 ^ 28 :=
  Nat.div_lt_of_lt_mul (pow_add 2 n 28 ▸ truncBits_lt v (n + 28))

theorem isExtWord_extension {t : Nat} (h : t < 2 ^ 28) : isExtWord (15 * 2 ^ 28 + t) = true := by
  simp only [isExtWord, decide_eq_true_eq]
  omega

/-- The words behind word 0 are none, or one extension word that the opcode accepts (R58, R59). -/
def tailOk (ext : Bool) (tail : List Nat) : Prop := tail = [] ∨ ext = true ∧ ∃ t, tail = [t] ∧ isExtWord t = true

theorem tailOk_nil (ext : Bool) : tailOk ext [] := .inl rfl

theorem tailOk_immTail (n : Nat) (im : Imm) : tailOk true (immTail n im) := by
  unfold immTail
  cases im.ext
  · exact .inl rfl
  · exact .inr ⟨rfl, _, rfl, isExtWord_extension (extension_lt im.val n)⟩

theorem immField_lt (n : Nat) (im : Imm) : immField n im < 2 ^ n := Nat.mod_lt _ (by positivity)

/-- The two parts of an extended immediate, put together. -/
theorem extended_eq (v : Int) (n : Nat) :
    (15 * 2 ^ 28 + truncBits v (n + 28) / 2 ^ n) % 2 ^ 28 * 2 ^ n + truncBits v (n + 28) % 2 ^ n = truncBits v (n + 28) := by
  rw [Nat.mul_add_mod_self_right, Nat.mod_eq_of_lt (extension_lt v n), Nat.div_add_mod']

/-- A signed immediate reads back (R58). -/
theorem immOf_immField {n : Nat} (hn : 0 < n) {im : Imm} (h : immFits n im = true) : immOf n (immField n im) (immTail n im).head? = im := by
  obtain ⟨v, ext⟩ := im
  cases ext
  case false =>
    have hv := signExt_truncBits hn (show fitsS n v = true from h)
    simpa [immOf, immField, immTail, Nat.mod_eq_of_lt (truncBits_lt v n)] using hv
  case true =>
    have hv := signExt_truncBits (by omega) (show fitsS (n + 28) v = true from h)
    simp only [immOf, immField, immTail, if_true, List.head?_cons, extended_eq, hv]

/-- An unsigned immediate reads back (R99). -/
theorem immOfU_immField {n : Nat} {im : Imm} (h : immFitsU n im = true) : immOfU n (immField n im) (immTail n im).head? = im := by
  obtain ⟨v, ext⟩ := im
  simp only [immFitsU, Bool.and_eq_true, decide_eq_true_eq] at h
  have hv (m : Nat) (hm : v < 2 ^ m) : (truncBits v m : Int) = v := by
    rw [truncBits, Int.emod_eq_of_lt h.1 hm, Int.toNat_of_nonneg h.1]
  cases ext
  case false => simpa [immOfU, immField, immTail, Nat.mod_eq_of_lt (truncBits_lt v n)] using hv n h.2
  case true => simp only [immOfU, immField, immTail, if_true, List.head?_cons, extended_eq, hv (n + 28) h.2]

/-! ### The steps of R66 before the fields -/

theorem decodeChecked_of {lvl tune : Bool} {o : OpInfo} {w1 : Option Nat} (ho : infoOf w = some o) (hst : st ∈ o.streams)
    (hp : privOf w = true → lvl = true) (ha : isApub w = true → tune = true) : decodeChecked st lvl tune w w1 = decodeFields st w w1 := by
  have hlvl : (privOf w && !lvl) = false := by cases h : privOf w <;> simp_all
  have htune : (isApub w && !tune) = false := by cases h : isApub w <;> simp_all
  simp [decodeChecked, ho, hst, hlvl, htune]

/-- A short instruction takes the word behind it where that is an extension word and the opcode accepts one (R58, R59). -/
theorem decodeWords_short {lvl tune : Bool} {o : OpInfo} {rest : List Nat} (hx : isExtWord w = false) (ho : infoOf w = some o) (hl : o.long = false) :
    decodeWords st lvl tune (w :: rest) = decodeChecked st lvl tune w (rest.head?.filter fun t => o.ext && isExtWord t) := by
  cases rest <;> simp [decodeWords, hx, ho, hl, Option.filter]

theorem decodeWords_long {lvl tune : Bool} {o : OpInfo} {w1 : Nat} {rest : List Nat} (hx : isExtWord w = false) (ho : infoOf w = some o) (hl : o.long = true) :
    decodeWords st lvl tune (w :: w1 :: rest) = decodeChecked st lvl tune w (some w1) := by
  simp [decodeWords, hx, ho, hl]

/-- The row of the opcode map that the class and the opcode of word 0 name (R64). -/
theorem infoOf_of (hc : classOf w = e) (ho : opOf w = op) {r : Option OpInfo} (h : opInfo e op = r) : infoOf w = r := by rw [infoOf, hc, ho, h]

/-- A short instruction round-trips when its fields decode. -/
theorem roundTrips_short (henc : encode i = w :: tail) (htail : tailOk x tail)
    (h : ∀ st, wellFormed st i = true → isExtWord w = false ∧ infoOf w = some ⟨S, x, p, false⟩ ∧ st ∈ S ∧
      decodeFields st w tail.head? = .ok i) :
    roundTrips i := by
  intro st lvl tune more hwf hadm hmore
  obtain ⟨hx, ho, hst, hdec⟩ := h st hwf
  have hext : ((tail ++ more).head?.filter fun t => x && isExtWord t) = tail.head? := by
    obtain rfl | ⟨rfl, t, rfl, ht⟩ := htail
    · cases more with
      | nil => rfl
      | cons t more => simp [Option.filter, hmore t List.mem_cons_self]
    · simp [Option.filter, ht]
  simp only [admitted, henc, List.headD_cons] at hadm
  rw [henc, List.cons_append, decodeWords_short hx ho rfl, hext, decodeChecked_of ho hst hadm.1 hadm.2, hdec]

/-- An engine instruction round-trips when its fields decode under its sync word (R56). -/
theorem roundTrips_long (henc : encode i = [w, syncWord y])
    (h : ∀ st, wellFormed st i = true → isExtWord w = false ∧ infoOf w = some ⟨S, x, p, true⟩ ∧ st ∈ S ∧
      decodeFields st w (some (syncWord y)) = .ok i) : roundTrips i := by
  intro st lvl tune more hwf hadm _
  obtain ⟨hx, ho, hst, hdec⟩ := h st hwf
  simp only [admitted, henc, List.headD_cons] at hadm
  rw [henc, List.cons_append, List.cons_append, decodeWords_long hx ho rfl, decodeChecked_of ho hst hadm.1 hadm.2, hdec]

end Sys2Proof.Proofs
end

section
/-! PROOF. Decoding gives back what encoding wrote: the classes, the codes of fields and the formats (R51 to R55). -/

namespace Sys2Proof.Proofs
open Sys2Proof.Machine Sys2Proof.Claims

variable {st : StreamName} {i : Instr} {e op : Nat} {S : List StreamName} {x p : Bool} {y : Sync} {tail : List Nat} {P : StreamName → Prop}

theorem lt_of_grOk {n : Nat} (h : grOk st n = true) : n < 64 := by
  simp only [grOk, decide_eq_true_eq] at h
  split at h <;> omega

@[simp] theorem mem_allStreams (st : StreamName) : st ∈ allStreams := by cases st <;> decide

/-- Steps 10 and 11 of R66 let an instruction through when every check holds. -/
theorem mk_eq_ok_iff {ok : Bool} {rs : List (Bool × Cause)} {j : Instr} : mk ok rs j = .ok i ↔ ok = true ∧ (∀ r ∈ rs, r.1 = true) ∧ j = i := by
  have h : regsThen j rs = .ok i ↔ (∀ r ∈ rs, r.1 = true) ∧ j = i := by
    induction rs with
    | nil => simp [regsThen]
    | cons r rs ih => obtain ⟨ok, c⟩ := r; cases ok <;> simp [regsThen, ih]
  cases ok <;> simp [mk, h]

/-! ### The classes (R51) -/

/-- The decoder `dec` reads the fields of the short instruction with the opcode `op` of class `e`. -/
def decodesShort (e op : Nat) (dec : StreamName → Nat → Nat → Option Nat → Except Cause Instr) : Prop :=
  (e < 8 ∧ op < 128 ∧ ¬ (e = 7 ∧ 64 ≤ op)) ∧ ∀ st w w1, classOf w = e → opOf w = op → decodeFields st w w1 = dec st op w w1

theorem sequencingDecoder (h : op < 128 := by decide) : decodesShort 0 op decodeQ :=
  ⟨by omega, fun st w w1 hc ho => by simp only [decodeFields, hc, ho]⟩
theorem scalarDecoder (h : op < 128 := by decide) : decodesShort 1 op decodeS :=
  ⟨by omega, fun st w w1 hc ho => by simp only [decodeFields, hc, ho]⟩
theorem floatDecoder (h : op < 128 := by decide) : decodesShort 2 op decodeF :=
  ⟨by omega, fun st w w1 hc ho => by simp only [decodeFields, hc, ho]⟩
theorem dataDecoder (h : op < 16 := by decide) : decodesShort 5 op decodeDShort :=
  ⟨by omega, fun st w w1 hc ho => by simp only [decodeFields, hc, ho, h, if_true]⟩
theorem tileDecoder (h : op < 128 ∧ ¬ (24 ≤ op ∧ op < 32) := by decide) : decodesShort 6 op fun st op w _ => decodeTShort st op w :=
  ⟨by omega, fun st w w1 hc ho => by simp only [decodeFields, hc, ho, h.2, if_false]⟩
theorem systemDecoder (h : op < 64 := by decide) : decodesShort 7 op fun st op w _ => decodeP st op w :=
  ⟨by omega, fun st w w1 hc ho => by simp only [decodeFields, hc, ho]⟩

/-- The decoder `dec` reads the fields of the engine instruction with the opcode `op` of class `e` behind its sync word. -/
def decodesEngine (e op : Nat) (dec : Nat → Nat → Sync → Except Cause Instr) : Prop :=
  (e < 7 ∧ op < 128) ∧ ∀ st w y, classOf w = e → opOf w = op → syncOk y = true → decodeFields st w (some (syncWord y)) = dec op w y

theorem vectorDecoder (h : op < 128 := by decide) : decodesEngine 3 op decodeV :=
  ⟨by omega, fun st w y hc ho hy => by simp only [decodeFields, hc, ho, Option.getD_some, syncOf_syncWord y hy]⟩
theorem arrayDecoder (h : op < 128 := by decide) : decodesEngine 4 op decodeX :=
  ⟨by omega, fun st w y hc ho hy => by simp only [decodeFields, hc, ho, Option.getD_some, syncOf_syncWord y hy]⟩
theorem dataEngineDecoder (h : op < 128 ∧ ¬ op < 16 := by decide) : decodesEngine 5 op decodeDEngine :=
  ⟨by omega, fun st w y hc ho hy => by simp only [decodeFields, hc, ho, h.2, if_false, Option.getD_some, syncOf_syncWord y hy]⟩
theorem groupEngineDecoder (h : 24 ≤ op ∧ op < 32 := by decide) : decodesEngine 6 op decodeTEngine :=
  ⟨by omega, fun st w y hc ho hy => by simp only [decodeFields, hc, ho, h, and_self, if_true, Option.getD_some, syncOf_syncWord y hy]⟩

/-! ### Codes of fields (R55) -/

@[simp] theorem rmOf_rmCode (r : Rm) : rmOf (rmCode r) = some r := by
  obtain _ | m := r
  · rfl
  · cases m <;> rfl

theorem rmCode_lt (r : Rm) : rmCode r < 8 := by
  obtain _ | m := r
  · decide
  · cases m <;> decide

theorem rmCode_lt_16 (r : Rm) : rmCode r < 16 := (rmCode_lt r).trans (by decide)

/-- Step 12 of R66 lets an assigned format code through. -/
theorem fmtThen_eq_ok_iff {f : Nat} {r : Except Cause Instr} : fmtThen f r = .ok i ↔ f < 16 ∧ r = .ok i := by
  cases r <;> by_cases h : f < 16 <;> simp [fmtThen, h]

theorem truncBits_10_lt (v : Int) : truncBits v 10 < 1024 := truncBits_lt v 10
theorem truncBits_8_lt (v : Int) : truncBits v 8 < 1024 := (truncBits_lt v 8).trans (by decide)

@[simp] theorem rounding_rmCode (r : Rm) (k : Rm → Except Cause Instr) : rounding (rmCode r) k = k r := by rw [rounding, rmOf_rmCode]

theorem whereOk_lt {s : Nat} (h : whereOk s = true) : s < 1024 := by
  simp only [whereOk, Bool.or_eq_true, Bool.and_eq_true, decide_eq_true_eq] at h
  omega

theorem descFieldOk_lt {c : Nat} (h : descFieldOk c = true) : c < 64 := by
  simp only [descFieldOk, Bool.or_eq_true, Bool.and_eq_true, decide_eq_true_eq] at h
  omega

theorem csrOk_lt {n : Nat} (h : csrOk n = true) : n < 1024 := by
  simp only [csrOk, Bool.or_eq_true, Bool.and_eq_true, decide_eq_true_eq] at h
  omega

theorem quadOk_lt {n : Nat} (h : quadOk st n = true) : n < 64 := by
  simp only [quadOk, Bool.and_eq_true] at h
  exact lt_of_grOk h.1.1

theorem immField_lt_1024 (im : Imm) : immField 10 im < 1024 := immField_lt 10 im

/-- An operand of a narrower file fits the field of a wider one. -/
theorem lt_32_of_lt_16 {n : Nat} (h : n < 16) : n < 32 := by omega
theorem lt_64_of_lt_32 {n : Nat} (h : n < 32) : n < 64 := by omega
theorem lt_64_of_lt_16 {n : Nat} (h : n < 16) : n < 64 := by omega
theorem lt_64_of_lt_8 {n : Nat} (h : n < 8) : n < 64 := by omega
theorem lt_1024_of_lt_64 {n : Nat} (h : n < 64) : n < 1024 := by omega

/-! ### The formats of short instructions (R53)

That the operands fit their fields is routine: those hypotheses come with the tactic that closes them. -/

/-- What `wellFormed` checks of the instruction is `P`, as a proposition. -/
structure Checks (i : Instr) (P : StreamName → Prop) : Prop where
  iff : ∀ st, wellFormed st i = true ↔ P st := by
    intro st; dsimp only [wellFormed]; (try simp only [Bool.and_eq_true, Bool.or_eq_true, decide_eq_true_eq]); exact Iff.rfl

section
variable {dec : StreamName → Nat → Nat → Option Nat → Except Cause Instr} (hdec : decodesShort e op dec)
include hdec

/-- What is left of a short round trip once the class, the opcode and the stream are read. -/
theorem roundTrips_of_class {w : Nat} (henc : encode i = w :: tail) (hinfo : opInfo e op = some ⟨S, x, p, false⟩) (htail : tailOk x tail)
    (hwf : Checks i P)
    (h : ∀ st, P st → classOf w = e ∧ opOf w = op ∧ isExtWord w = decide (e = 7 ∧ 64 ≤ op) ∧ st ∈ S ∧ dec st op w tail.head? = .ok i) :
    roundTrips i := by
  refine roundTrips_short henc htail (S := S) (p := p) fun st hi => ?_
  obtain ⟨hc, ho, hx, hst, hi⟩ := h st ((hwf.iff st).1 hi)
  exact ⟨hx.trans (decide_eq_false hdec.1.2.2), infoOf_of hc ho hinfo, hst, (hdec.2 st _ _ hc ho).trans hi⟩

theorem roundTrips_A {d a b f : Nat} (henc : encode i = [encA e op d a b f]) (hinfo : opInfo e op = some ⟨S, x, p, false⟩)
    (h : ∀ st, P st → ∀ w, bitField w 16 6 = d → bitField w 10 6 = a → bitField w 4 6 = b → w % 16 = f → w % 1024 = b * 16 + f →
      dec st op w none = .ok i)
    (hwf : Checks i P := by exact {})
    (hf : ∀ st, P st → f < 16 := by simp [rmCode_lt_16])
    (hb : ∀ st, P st → st ∈ S ∧ d < 64 ∧ a < 64 ∧ b < 64 := by
      intro st h; (repeat casesm _ ∧ _); simp_all [@lt_of_grOk st, @quadOk_lt st, descFieldOk_lt, lt_64_of_lt_32,
        lt_64_of_lt_16, lt_64_of_lt_8]) : roundTrips i := by
  refine roundTrips_of_class hdec henc hinfo (tailOk_nil x) hwf fun st hi => ?_
  obtain ⟨hst, hd, ha, hb⟩ := hb st hi
  obtain ⟨hc, ho, hwd, hwa, hwb, hwf, hwm, hx⟩ := encA_fields hdec.1.1 hdec.1.2.1 hd ha hb (hf st hi)
  exact ⟨hc, ho, hx, hst, h st hi _ hwd hwa hwb hwf hwm⟩

theorem roundTrips_I {d a m : Nat} (henc : encode i = encI e op d a m :: tail) (hinfo : opInfo e op = some ⟨S, x, p, false⟩) (htail : tailOk x tail)
    (h : ∀ st, P st → ∀ w, bitField w 16 6 = d → bitField w 10 6 = a → w % 1024 = m → dec st op w tail.head? = .ok i)
    (hwf : Checks i P := by exact {})
    (hb : ∀ st, P st → st ∈ S ∧ d < 64 ∧ a < 64 ∧ m < 1024 := by
      intro st h; (repeat casesm _ ∧ _); simp_all [@lt_of_grOk st, whereOk_lt, csrOk_lt, immField_lt_1024, truncBits_10_lt,
        truncBits_8_lt, lt_64_of_lt_32, lt_64_of_lt_8, lt_1024_of_lt_64]) : roundTrips i := by
  refine roundTrips_of_class hdec henc hinfo htail hwf fun st hi => ?_
  obtain ⟨hst, hd, ha, hm⟩ := hb st hi
  obtain ⟨hc, ho, hwd, hwa, hwm, hx⟩ := encI_fields hdec.1.1 hdec.1.2.1 hd ha hm
  exact ⟨hc, ho, hx, hst, h st hi _ hwd hwa hwm⟩

theorem roundTrips_K {d m : Nat} (henc : encode i = encK e op d m :: tail) (hinfo : opInfo e op = some ⟨S, x, p, false⟩) (htail : tailOk x tail)
    (hm : m < 65536) (h : ∀ st, P st → ∀ w, bitField w 16 6 = d → w % 65536 = m → dec st op w tail.head? = .ok i)
    (hwf : Checks i P := by exact {})
    (hb : ∀ st, P st → st ∈ S ∧ d < 64 := by
      intro st h; (repeat casesm _ ∧ _); simp_all [@lt_of_grOk st]) : roundTrips i := by
  refine roundTrips_of_class hdec henc hinfo htail hwf fun st hi => ?_
  obtain ⟨hst, hd⟩ := hb st hi
  obtain ⟨hc, ho, hwd, hwm, hx⟩ := encK_fields hdec.1.1 hdec.1.2.1 hd hm
  exact ⟨hc, ho, hx, hst, h st hi _ hwd hwm⟩

theorem roundTrips_J {z : Nat} (henc : encode i = encJ e op z :: tail) (hinfo : opInfo e op = some ⟨S, x, p, false⟩) (htail : tailOk x tail)
    (h : ∀ st, P st → ∀ w, w % 2 ^ 22 = z → dec st op w tail.head? = .ok i)
    (hwf : Checks i P := by exact {})
    (hz : ∀ st, P st → z < 2 ^ 22 := by simp)
    (hb : ∀ st, P st → st ∈ S := by intro st h; (repeat casesm _ ∧ _); simp_all) : roundTrips i := by
  refine roundTrips_of_class hdec henc hinfo htail hwf fun st hi => ?_
  obtain ⟨hc, ho, hwz, hx⟩ := encJ_fields hdec.1.1 hdec.1.2.1 (hz st hi)
  exact ⟨hc, ho, hx, hb st hi, h st hi _ hwz⟩

/-- An instruction whose fields are all reserved. -/
theorem roundTrips_bare (henc : encode i = [encJ e op 0]) (hinfo : opInfo e op = some ⟨S, x, p, false⟩)
    (harm : ∀ st w w1, dec st op w w1 = mk (w % 2 ^ 22 == 0) [] i)
    (hwf : Checks i P := by exact {})
    (hb : ∀ st, P st → st ∈ S := by intro st h; (repeat casesm _ ∧ _); simp_all) : roundTrips i :=
  roundTrips_J hdec henc hinfo (tailOk_nil x) (fun st _ w hz => by rw [harm, hz]; rfl) hwf (fun _ _ => by decide) hb

end

/-! ### The format of engine instructions (R54) -/

theorem roundTrips_E {dec : Nat → Nat → Sync → Except Cause Instr} (hdec : decodesEngine e op dec) {d a b sub rf : Nat}
    (henc : encode i = [encE e op d a b sub rf, syncWord y]) (hinfo : opInfo e op = some ⟨S, x, p, true⟩)
    (h : ∀ st, P st → ∀ w, bitField w 17 5 = d → bitField w 12 5 = a → bitField w 7 5 = b → bitField w 3 4 = sub → w % 8 = rf →
      dec op w y = .ok i)
    (hwf : Checks i P := by exact {})
    (hs : ∀ st, P st → sub < 16 := by simp) (hr : rf < 8 := by simp [rmCode_lt])
    (hb : ∀ st, P st → st ∈ S ∧ syncOk y = true ∧ d < 32 ∧ a < 32 ∧ b < 32 := by
      intro st h; (repeat casesm _ ∧ _); simp_all [lt_32_of_lt_16]) : roundTrips i := by
  refine roundTrips_long henc (S := S) (x := x) (p := p) fun st hi => ?_
  have hi := (hwf.iff st).1 hi
  obtain ⟨hst, hy, hd, ha, hb⟩ := hb st hi
  obtain ⟨hc, ho, hwd, hwa, hwb, hws, hwr, hx⟩ := encE_fields (Nat.lt_succ_of_lt hdec.1.1) hdec.1.2 hd ha hb (hs st hi) hr
  exact ⟨hx.trans (decide_eq_false fun h7 => hdec.1.1.ne h7.1), infoOf_of hc ho hinfo, hst,
    (hdec.2 st _ _ hc ho hy).trans (h st hi _ hwd hwa hwb hws hwr)⟩

end Sys2Proof.Proofs
end

section
/-! PROOF. Decoding gives back what encoding wrote: the instructions, class by class (R60, R64). -/

namespace Sys2Proof.Proofs
open Sys2Proof.Machine Sys2Proof.Claims

/-- An instruction stands in the rows of the opcode table from `lo` up to `hi` (R64). -/
def inRows (lo hi : Nat) (i : Instr) : Bool := decide (lo ≤ i.ctorIdx) && decide (i.ctorIdx < hi)

/-! ### Sequencing, scalar and float (R64) -/

theorem roundTrips_fence (k : FenceKind) (c : Scope) : roundTrips (.fence k c) := by
  refine roundTrips_J sequencingDecoder rfl rfl (tailOk_nil _) (hz := fun _ _ => by cases k <;> cases c <;> decide) fun st _ w hz => ?_
  have h3 : bitField w 3 2 = w % 2 ^ 22 / 8 % 4 := by unfold bitField; omega
  have h5 : bitField w 5 17 = w % 2 ^ 22 / 32 := by unfold bitField; omega
  have h0 : w % 8 = w % 2 ^ 22 % 8 := by omega
  dsimp only [decodeQ]
  rw [h3, h5, h0, hz]
  cases k <;> cases c <;> rfl

/-- The fields of SEMWAIT and SEMTRY in their immediate (R312). -/
theorem semFields {w m : Nat} (h : w % 1024 = m) : bitField w 8 2 = m / 256 ∧ w % 256 = m % 256 := by unfold bitField; omega

theorem roundTrips_sequencing {i : Instr} (hrow : inRows 0 24 i = true) : roundTrips i := by
  cases i with
  | nop => exact roundTrips_bare (op := 0) sequencingDecoder rfl rfl fun _ _ _ => rfl
  | rndv | ret => exact roundTrips_bare sequencingDecoder rfl rfl fun _ _ _ => rfl
  | fence k c => exact roundTrips_fence k c
  | b m | call m =>
    refine roundTrips_J sequencingDecoder rfl rfl (tailOk_immTail 22 m) (hz := fun _ _ => immField_lt 22 m) fun st h w hz => ?_
    have hm : immFits 22 m = true := by simp_all
    dsimp only [decodeQ]
    rw [hz, immOf_immField (by decide) hm]
    rfl
  | bccEq d a m | bccNe d a m | bccLt d a m | bccGe d a m | bccLtn d a m | bccGen d a m =>
    refine roundTrips_I sequencingDecoder rfl rfl (tailOk_immTail 10 m) fun st h w hd ha hm => ?_
    dsimp only [decodeQ]
    simp [mk_eq_ok_iff, gf, hd, ha, hm, h, immOf_immField]
  | loop a n | whereQ a n | semrd d k | semrdDraw d k | semrdPb d k | pbwait k a n | semadd k a n | semset k a n =>
    refine roundTrips_I sequencingDecoder rfl rfl (tailOk_nil _) fun st h w hd ha hm => ?_
    dsimp only [decodeQ]
    simp [mk_eq_ok_iff, gf, mf, nf, hd, ha, hm, h, signExt_truncBits]
  | semwait k a n | semtry a k n =>
    refine roundTrips_I sequencingDecoder rfl rfl (tailOk_nil _) fun st h w hd ha hm => ?_
    have hn : truncBits n 8 < 256 := truncBits_lt n 8
    dsimp only [decodeQ]
    simp [mk_eq_ok_iff, gf, mf, hd, ha, semFields hm, Nat.div_eq_of_lt hn, Nat.mod_eq_of_lt hn, h, signExt_truncBits]
  | semwaitTake k | semtryTake d k =>
    refine roundTrips_I sequencingDecoder rfl rfl (tailOk_nil _) fun st h w hd ha hm => ?_
    have h16 : w % 65536 = bitField w 10 6 * 1024 + 256 := by unfold bitField; omega
    dsimp only [decodeQ]
    simp [mk_eq_ok_iff, gf, mf, hd, ha, hm, semFields hm, h16, h]
  | _ => exact absurd hrow Bool.false_ne_true

theorem roundTrips_scalar {i : Instr} (hrow : inRows 24 61 i = true) : roundTrips i := by
  cases i with
  | add d a b | sub d a b | mul d a b | and d a b | or d a b | xor d a b | shl d a b | shr d a b | sar d a b | min d a b | max d a b | minn d a b
  | maxn d a b | slt d a b | sltn d a b | seq d a b | sel d a b | mulh d a b | mulhn d a b | div d a b | divn d a b | rem d a b | bfx d a b
  | bfi d a b | clz d a | ctz d a | popc d a =>
    refine roundTrips_A scalarDecoder rfl rfl fun st h w hd ha hb hf hm => ?_
    dsimp only [decodeS]
    repeat casesm _ ∧ _
    simp_all [mk_eq_ok_iff, gf]
  | addi d a m | andi d a m | ori d a m | xori d a m =>
    refine roundTrips_I scalarDecoder rfl rfl (tailOk_immTail 10 m) fun st h w hd ha hm => ?_
    dsimp only [decodeS]
    simp [mk_eq_ok_iff, gf, hd, ha, hm, h, immOf_immField]
  | shli d a s | shri d a s | sari d a s =>
    refine roundTrips_I scalarDecoder rfl rfl (tailOk_nil _) fun st h w hd ha hm => ?_
    dsimp only [decodeS]
    simp [mk_eq_ok_iff, gf, hd, ha, hm, h]
  | li d m | lih d m | addpc d m =>
    refine roundTrips_K scalarDecoder rfl rfl (tailOk_immTail 16 m) (immField_lt 16 m) fun st h w hd hm => ?_
    dsimp only [decodeS]
    repeat casesm _ ∧ _
    simp_all [mk_eq_ok_iff, gf, immOf_immField, immOfU_immField]
  | _ => exact absurd hrow Bool.false_ne_true

theorem roundTrips_float {i : Instr} (hrow : inRows 61 90 i = true) : roundTrips i := by
  cases i with
  | fadd d a b r | fsub d a b r | fmul d a b r | ffma d a b r | fdiv d a b r | fsqrt d a r | fcvtTo d a f r | fcvtFrom d a f r | fmin d a b
  | fmax d a b | fclass d a | acas4 d a b | acas8 d a b =>
    refine roundTrips_A floatDecoder rfl rfl fun st h w hd ha hb hf hm => ?_
    dsimp only [decodeF]
    repeat casesm _ ∧ _
    simp_all [mk_eq_ok_iff, gf, rmCode_lt, fmtThen_eq_ok_iff]
  | fcmp o d a b | amo4 o d a b | amo8 o d a b =>
    refine roundTrips_A floatDecoder rfl rfl (hf := fun _ _ => by cases o <;> decide) fun st h w hd ha hb hf hm => ?_
    dsimp only [decodeF]
    repeat casesm _ ∧ _
    cases o <;> simp_all [mk_eq_ok_iff, gf, fcondCode, amoCode, amoOf]
  | ld1s d a m | ld1z d a m | ld2s d a m | ld2z d a m | ld4s d a m | ld4z d a m | ld8 d a m | ld16 d a m | st1 d a m | st2 d a m | st4 d a m
  | st8 d a m | st16 d a m =>
    refine roundTrips_I floatDecoder rfl rfl (tailOk_immTail 10 m) fun st h w hd ha hm => ?_
    dsimp only [decodeF]
    repeat casesm _ ∧ _
    simp_all [mk_eq_ok_iff, gf, immOf_immField]
  | _ => exact absurd hrow Bool.false_ne_true

/-! ### Vector and array (R64, R184, R201, R231, R255) -/

theorem roundTrips_arithmetic {i : Instr} (hrow : inRows 90 126 i = true) : roundTrips i := by
  cases i with
  | vadd d a b r y | vsub d a b r y | vmul d a b r y | vfma d a b r y | vfms d a b r y | vdiv d a b r y | vmin d a b r y | vmax d a b r y
  | vsel d a b r y | vclamp d a b r y | vscale d a b r y | vabs d a r y | vneg d a r y | vcvt d a r y | vexp2 d a r y | vlog2 d a r y | vrcp d a r y
  | vrsq d a r y | vsqrt d a r y | vtanh d a r y | vsig d a r y | verf d a r y | vsin d a r y | vcos d a r y
  | vand d a b y | vor d a b y | vxor d a b y | vshl d a b y | vshr d a b y | vsar d a b y | vnot d a y | vmov d a y =>
    refine roundTrips_E vectorDecoder rfl rfl fun st _ w hd ha hb hs hr => ?_
    dsimp only [decodeV]
    simp only [hd, ha, hb, hs, hr, rounding_rmCode]
    rfl
  | vperm o d a b r y | vcmp o d a b y =>
    refine roundTrips_E vectorDecoder rfl rfl (hs := fun _ _ => by cases o <;> decide) fun st _ w hd ha hb hs hr => ?_
    dsimp only [decodeV]
    simp only [hd, ha, hb, hs, hr, rounding_rmCode]
    cases o <;> rfl
  | viota o d a b r y | vbcast o d a r y =>
    refine roundTrips_E vectorDecoder rfl rfl (hs := fun _ _ => by cases o <;> decide) fun st h w hd ha hb hs hr => ?_
    dsimp only [decodeV]
    cases o <;> simp [mk_eq_ok_iff, hf, hd, ha, hb, hs, hr, h, b2n, bitAt, bcastCode]
  | _ => exact absurd hrow Bool.false_ne_true

theorem roundTrips_selection {i : Instr} (hrow : inRows 126 140 i = true) : roundTrips i := by
  cases i with
  | vrankp d a y =>
    refine roundTrips_E vectorDecoder rfl rfl fun st _ w hd ha hb hs hr => ?_
    dsimp only [decodeV]
    simp only [hd, ha, hb, hs, hr]
    rfl
  | vexpd o d a b r y | vdot o d a b r y | vmaxi o d a r y | vranko o d r y =>
    refine roundTrips_E vectorDecoder rfl rfl (hs := fun _ _ => by cases o <;> decide) fun st _ w hd ha hb hs hr => ?_
    dsimp only [decodeV]
    simp only [hd, ha, hb, hs, hr, rounding_rmCode]
    cases o <;> rfl
  | vred o l d a r y | vscan o l d a r y | vdist o l d a b r y | vcomp o l d a b r y | vsort o l d a r y | vthrc o l d a b y | vxform o l d a y =>
    refine roundTrips_E vectorDecoder rfl rfl (hs := fun _ _ => by cases o <;> cases l <;> decide) fun st _ w hd ha hb hs hr => ?_
    dsimp only [decodeV]
    simp only [hd, ha, hb, hs, hr, rounding_rmCode]
    cases o <;> cases l <;> rfl
  | vhist o l d a b y | vranki o l a y =>
    refine roundTrips_E vectorDecoder rfl rfl (hs := fun _ _ => by cases o <;> cases l <;> decide) fun st h w hd ha hb hs hr => ?_
    dsimp only [decodeV]
    cases o <;> cases l <;> simp [mk_eq_ok_iff, hf, hd, ha, hb, hs, hr, h, b2n, bitAt]
  | _ => exact absurd hrow Bool.false_ne_true

theorem roundTrips_array {i : Instr} (hrow : inRows 140 153 i = true) : roundTrips i := by
  cases i with
  | xlease y | xcellop a y | xside a b y | xsideb a y | ares d a b y | arel a y | apub d a b y =>
    refine roundTrips_E arrayDecoder rfl rfl fun st h w hd ha hb hs hr => ?_
    dsimp only [decodeX]
    simp [mk_eq_ok_iff, hf, hd, ha, hb, hs, hr, h]
  | xfree o y | xpass o a b y | xdrain o d r y | aqry o d a y =>
    refine roundTrips_E arrayDecoder rfl rfl (hs := fun _ _ => by cases o <;> decide) fun st h w hd ha hb hs hr => ?_
    dsimp only [decodeX]
    cases o <;> simp [mk_eq_ok_iff, hf, hd, ha, hb, hs, hr, h, b2n, bitAt, aqryCode]
  | xzero o l y | xbias o l a y =>
    refine roundTrips_E arrayDecoder rfl rfl (hs := fun _ _ => by cases o <;> cases l <;> decide) fun st _ w hd ha hb hs hr => ?_
    dsimp only [decodeX]
    simp only [hd, ha, hb, hs, hr]
    cases o <;> cases l <;> rfl
  | _ => exact absurd hrow Bool.false_ne_true

/-! ### Data, tile and system (R64) -/

theorem roundTrips_data {i : Instr} (hrow : inRows 153 181 i = true) : roundTrips i := by
  cases i with
  | dset f d a | dgetf f d a | dcpy d a | rinit d a =>
    refine roundTrips_A dataDecoder rfl rfl fun st h w hd ha hb hf hm => ?_
    dsimp only [decodeDShort]
    simp [mk_eq_ok_iff, gf, df, nf, hd, ha, hb, hf, hm, h]
  | dadv r d a =>
    refine roundTrips_A dataDecoder rfl rfl (hf := fun _ _ => by cases r <;> decide) fun st h w hd ha hb hf hm => ?_
    dsimp only [decodeDShort]
    cases r <;> simp [mk_eq_ok_iff, gf, df, hd, ha, hm, h, b2n]
  | dld d a m | dst d a m =>
    refine roundTrips_I dataDecoder rfl rfl (tailOk_immTail 10 m) fun st h w hd ha hm => ?_
    dsimp only [decodeDShort]
    simp [mk_eq_ok_iff, gf, df, hd, ha, hm, h, immOf_immField]
  | rcommit d a m | rrelease d a m | rstat d a m =>
    refine roundTrips_I dataDecoder rfl rfl (tailOk_nil _) fun st h w hd ha hm => ?_
    dsimp only [decodeDShort]
    simp [mk_eq_ok_iff, gf, nf, hd, ha, hm, h]
  | dfill d a y | dpref a y | dflush a y | dinv a y =>
    refine roundTrips_E dataEngineDecoder rfl rfl fun st h w hd ha hb hs hr => ?_
    dsimp only [decodeDEngine]
    simp [mk_eq_ok_iff, hf, hd, ha, hb, hs, hr, h]
  | dcopy m d a r y | dpreq m a b y =>
    refine roundTrips_E dataEngineDecoder rfl rfl (hs := fun _ _ => by cases m <;> decide) fun st h w hd ha hb hs hr => ?_
    dsimp only [decodeDEngine]
    cases m <;> simp_all [mk_eq_ok_iff, maskCode, maskOf, bitAt]
  | dgather m o d a b r y | dscatter m o d a b r y | dscata m o d a b r y =>
    refine roundTrips_E dataEngineDecoder rfl rfl (hs := fun _ _ => by cases m <;> cases o <;> decide) fun st _ w hd ha hb hs hr => ?_
    dsimp only [decodeDEngine]
    simp only [hd, ha, hb, hs, hr, rounding_rmCode]
    cases m <;> cases o <;> rfl
  | dput f d a b y | dget f d a y | dfadd f d a b y | dfcas f d a b y | dfencef f a b y | dflowOpen f d a y | dflowClose f d a y
  | dflowReset f d a y | dflowStat f d a y =>
    refine roundTrips_E dataEngineDecoder rfl rfl (hs := fun st h => by simp [h]) fun st h w hd ha hb hs hr => ?_
    dsimp only [decodeDEngine]
    simp [mk_eq_ok_iff, hf, hd, ha, hb, hs, hr, h]
  | _ => exact absurd hrow Bool.false_ne_true

/-- The fields of a group instruction in its sub-operation (R332). -/
theorem groupFields {w m : Nat} (h : bitField w 3 4 = m) : bitField w 3 2 = m % 4 ∧ bitField w 5 2 = m / 4 := by
  unfold bitField at *
  omega

theorem scanCode_lt (o : ScanOp) : scanCode o < 4 := by cases o <;> decide

theorem roundTrips_tile {i : Instr} (hrow : inRows 181 206 i = true) : roundTrips i := by
  cases i with
  | tdef d a | tacqR a | tacqW a | tacqRTry d a | tacqWTry d a | trel a | tseal a | tsealDet a | tsplit d a b | tjoin d a b | tfree a
  | launch d a b | launchTry d a b | tlbinvPage a | tlbinvRange a b | tlbinvCtx =>
    refine roundTrips_A tileDecoder rfl rfl fun st h w hd ha hb hf hm => ?_
    dsimp only [decodeTShort]
    repeat casesm _ ∧ _
    simp_all [mk_eq_ok_iff, gf, df, qf]
  | gjoin a s =>
    refine roundTrips_A tileDecoder rfl rfl (hf := fun _ h => by omega) fun st h w hd ha hb hf hm => ?_
    dsimp only [decodeTShort]
    repeat casesm _ ∧ _
    simp_all [mk_eq_ok_iff, gf]
  | gleave s =>
    refine roundTrips_J (z := s) tileDecoder rfl rfl (tailOk_nil _) (hz := fun _ h => by omega) fun st h w hz => ?_
    have h4 : w % 4 = s := by omega
    dsimp only [decodeTShort]
    rw [hz, h4]
    simp [mk_eq_ok_iff, h]
  | tqry o d a | qstat o d a | pmig o d a =>
    refine roundTrips_A tileDecoder rfl rfl (hf := fun _ _ => by cases o <;> decide) fun st h w hd ha hb hf hm => ?_
    dsimp only [decodeTShort]
    repeat casesm _ ∧ _
    cases o <;> simp_all [mk_eq_ok_iff, gf, tqryCode, qselCode, pmigCode]
  | gsync s y | gbcast s d a b y | ggath s d a y =>
    refine roundTrips_E groupEngineDecoder rfl rfl (hs := fun _ h => by omega) fun st h w hd ha hb hs hr => ?_
    dsimp only [decodeTEngine]
    simp [mk_eq_ok_iff, hf, hd, ha, hb, groupFields hs, Nat.mod_eq_of_lt, hr, h]
  | gred o s d a r y =>
    have ho := scanCode_lt o
    refine roundTrips_E groupEngineDecoder rfl rfl (hs := fun _ h => by omega) fun st h w hd ha hb hs hr => ?_
    have hslot : (s + 4 * scanCode o) % 4 = s := by omega
    have hop : (s + 4 * scanCode o) / 4 = scanCode o := by omega
    dsimp only [decodeTEngine]
    simp only [hd, ha, hb, groupFields hs, hslot, hop, hr, rounding_rmCode]
    cases o <;> rfl
  | _ => exact absurd hrow Bool.false_ne_true

theorem roundTrips_system {i : Instr} (hrow : inRows 206 215 i = true) : roundTrips i := by
  cases i with
  | rte | yield => exact roundTrips_bare systemDecoder rfl rfl fun _ _ _ => rfl
  | brk z =>
    refine roundTrips_J systemDecoder rfl rfl (tailOk_nil _) (hz := fun _ h => by omega) fun st h w hz => ?_
    dsimp only [decodeP]
    rw [hz]
    rfl
  | iciv a b =>
    refine roundTrips_A systemDecoder rfl rfl fun st h w hd ha hb hf hm => ?_
    dsimp only [decodeP]
    repeat casesm _ ∧ _
    simp_all [mk_eq_ok_iff, gf]
  | trap a m | csrr a m | csrw d a m | csrs d a m | csrc d a m =>
    refine roundTrips_I systemDecoder rfl rfl (tailOk_nil _) fun st h w hd ha hm => ?_
    dsimp only [decodeP]
    repeat casesm _ ∧ _
    simp_all [mk_eq_ok_iff, gf]
  | _ => exact absurd hrow Bool.false_ne_true

/-! ### Every instruction -/

/-- An event has no encoding: it is well formed in no stream. -/
theorem row_lt_of_wellFormed (st : StreamName) (i : Instr) : (decide (i.ctorIdx < 215) || !wellFormed st i) = true := by
  cases i <;> rfl

/-- Decoding the words of any well-formed instruction gives it back: the opcode table gives each instruction its class, its format and its fields, and
the bits of a format are read where they were written. -/
theorem decode_encode (i : Instr) : roundTrips i := by
  by_cases hrow : i.ctorIdx < 215
  · have hrows : inRows 0 24 i ∨ inRows 24 61 i ∨ inRows 61 90 i ∨ inRows 90 126 i ∨ inRows 126 140 i ∨ inRows 140 153 i ∨
        inRows 153 181 i ∨ inRows 181 206 i ∨ inRows 206 215 i := by
      simp only [inRows, Bool.and_eq_true, decide_eq_true_eq]
      omega
    obtain h | h | h | h | h | h | h | h | h := hrows
    · exact roundTrips_sequencing h
    · exact roundTrips_scalar h
    · exact roundTrips_float h
    · exact roundTrips_arithmetic h
    · exact roundTrips_selection h
    · exact roundTrips_array h
    · exact roundTrips_data h
    · exact roundTrips_tile h
    · exact roundTrips_system h
  · intro st _ _ _ hwf
    have := row_lt_of_wellFormed st i
    simp [hrow, hwf] at this

/-- Settles O1, as a case of the round trip of all instructions. -/
theorem roundTripScalar : Obligations.RoundTripScalar := fun i _ => decode_encode i

/-- Settles O2, as a case of the round trip of all instructions. -/
theorem roundTripVectorAndArray : Obligations.RoundTripVectorAndArray := fun i _ => decode_encode i

end Sys2Proof.Proofs
end

section
/-! PROOF. The results of the scalar integer instructions (R94 to R101). -/

namespace Sys2Proof.Proofs
open Sys2Proof.Machine Sys2Proof.Claims

/-! ### Words as the integers they stand for (R95) -/

theorem shiftLeft_eq_ofNat (x : Word) (n : Nat) : x <<< n = BitVec.ofNat 64 (x.toNat * 2 ^ n) :=
  BitVec.eq_of_toNat_eq (by rw [BitVec.toNat_shiftLeft, BitVec.toNat_ofNat, Nat.shiftLeft_eq])

theorem ushiftRight_eq_ofNat (x : Word) (n : Nat) : x >>> n = BitVec.ofNat 64 (x.toNat / 2 ^ n) := by
  rw [← Nat.shiftRight_eq_div_pow, ← BitVec.toNat_ushiftRight, BitVec.ofNat_toNat, BitVec.setWidth_eq]

theorem sshiftRight_eq_ofInt (x : Word) (n : Nat) : x.sshiftRight n = BitVec.ofInt 64 (x.toInt / 2 ^ n) := by
  rw [BitVec.sshiftRight, Int.shiftRight_eq_div_pow]; norm_cast

theorem highHalf_ofNat (p : Nat) : highHalf (p : Int) = BitVec.ofNat 64 (p / 2 ^ 64) := by
  rw [highHalf, ← BitVec.ofInt_natCast]; norm_cast

theorem signedMin_eq (x y : Word) : (if y.slt x then y else x) = BitVec.ofInt 64 (min x.toInt y.toInt) := by
  simp only [BitVec.slt_iff_toInt_lt]
  split
  · next h => rw [min_eq_right (le_of_lt h), BitVec.ofInt_toInt]
  · next h => rw [min_eq_left (not_lt.1 h), BitVec.ofInt_toInt]

theorem signedMax_eq (x y : Word) : (if x.slt y then y else x) = BitVec.ofInt 64 (max x.toInt y.toInt) := by
  simp only [BitVec.slt_iff_toInt_lt]
  split
  · next h => rw [max_eq_right (le_of_lt h), BitVec.ofInt_toInt]
  · next h => rw [max_eq_left (not_lt.1 h), BitVec.ofInt_toInt]

theorem unsignedMin_eq (x y : Word) : (if y.ult x then y else x) = BitVec.ofNat 64 (min x.toNat y.toNat) := by
  simp only [BitVec.ult_iff_lt, BitVec.lt_def]
  split
  · next h => rw [min_eq_right (le_of_lt h), BitVec.ofNat_toNat, BitVec.setWidth_eq]
  · next h => rw [min_eq_left (not_lt.1 h), BitVec.ofNat_toNat, BitVec.setWidth_eq]

theorem unsignedMax_eq (x y : Word) : (if x.ult y then y else x) = BitVec.ofNat 64 (max x.toNat y.toNat) := by
  simp only [BitVec.ult_iff_lt, BitVec.lt_def]
  split
  · next h => rw [max_eq_right (le_of_lt h), BitVec.ofNat_toNat, BitVec.setWidth_eq]
  · next h => rw [max_eq_left (not_lt.1 h), BitVec.ofNat_toNat, BitVec.setWidth_eq]

theorem wordOf_slt (x y : Word) : wordOf (x.slt y) = if x.toInt < y.toInt then 1 else 0 := by simp only [wordOf, BitVec.slt_iff_toInt_lt]
theorem wordOf_ult (x y : Word) : wordOf (x.ult y) = if x.toNat < y.toNat then 1 else 0 := by
  simp only [wordOf, BitVec.ult_iff_lt, BitVec.lt_def]
theorem wordOf_beq (x y : Word) : wordOf (x == y) = if x = y then 1 else 0 := by simp only [wordOf, beq_iff_eq]

/-- Settles O5: the word that each instruction writes is the one of R95. -/
theorem integerResults : Obligations.IntegerResults := by
  intro s d a b x y
  have written {v w : Word} (h : v = w) : finish (writeReg s d v) = .next (advance (writeReg s d w)) := by rw [h, finish]
  exact ⟨written rfl, written rfl, written (BitVec.mul_def ..), written rfl, written (highHalf_ofNat _), written rfl, written rfl, written rfl,
    written (shiftLeft_eq_ofNat ..), written (ushiftRight_eq_ofNat ..), written (sshiftRight_eq_ofInt ..), written (signedMin_eq x y),
    written (signedMax_eq x y), written (unsignedMin_eq x y), written (unsignedMax_eq x y), written (wordOf_slt x y), written (wordOf_ult x y),
    written (wordOf_beq x y), written rfl⟩

/-! ### Division (R96) -/

theorem sdiv_eq_ofInt (x y : Word) : x.sdiv y = BitVec.ofInt 64 (Int.tdiv x.toInt y.toInt) := by
  rw [← BitVec.toInt_inj, BitVec.toInt_sdiv, BitVec.toInt_ofInt]

theorem srem_eq_ofInt (x y : Word) : x.srem y = BitVec.ofInt 64 (Int.tmod x.toInt y.toInt) := by
  rw [← BitVec.toInt_srem, BitVec.ofInt_toInt]

theorem udiv_eq_ofNat (x y : Word) : x.udiv y = BitVec.ofNat 64 (x.toNat / y.toNat) := by
  rw [← BitVec.toNat_udiv, BitVec.ofNat_toNat, BitVec.setWidth_eq]; rfl

/-- Settles O6: by a divisor other than 0 a division is an instruction on two registers as any other (`divide_of_ne_zero`), and by 0 it faults. -/
theorem divideResults : Obligations.DivideResults := by
  intro s d a b x y
  refine ⟨fun hy => ?quotient, fun hy => ?byZero⟩
  case quotient =>
    have quotient {f : Word → Word → Word} {v : Word} (h : f x y = v) : divide s d a b f = .next (advance (writeReg s d v)) := by
      rw [divide_of_ne_zero hy, ← h]; rfl
    exact ⟨quotient (sdiv_eq_ofInt x y), quotient (udiv_eq_ofNat x y), quotient (srem_eq_ofInt x y)⟩
  case byZero =>
    have faults (f : Word → Word → Word) : divide s d a b f = .next (trapCur s { cause := .divideByZero }) := if_pos hy
    simp only [List.forall_mem_cons, List.not_mem_nil, false_imp_iff, implies_true, and_true]
    exact ⟨faults _, faults _, faults _⟩

end Sys2Proof.Proofs
end

section
/-! PROOF. The bit fields and counts of words, and the instructions with an immediate (R95, R97 to R100). -/

namespace Sys2Proof.Proofs
open Sys2Proof.Machine Sys2Proof.Claims

/-! ### Ranges and bits -/

theorem upFrom_eq_range' (a n : Nat) : upFrom a n = List.range' a n := by
  induction n generalizing a with
  | zero => rfl
  | succ n ih => rw [upFrom, ih]; rfl

theorem upFrom_zero_eq_range (n : Nat) : upFrom 0 n = List.range n := (upFrom_eq_range' 0 n).trans List.range_eq_range'.symm

theorem getLsbD_ofNat_of_lt {i : Nat} (h : i < 64) (n : Nat) : (BitVec.ofNat 64 n).getLsbD i = n.testBit i := by
  rw [BitVec.getLsbD_ofNat, decide_eq_true h, Bool.true_and]

/-- A field set at the top of a word: its low bits, and above them those of the field. -/
theorem setField_top {x lo w : Nat} (h : x < 2 ^ (lo + w)) (v : Nat) : setField x lo w v = 2 ^ lo * (v % 2 ^ w) + x % 2 ^ lo := by
  have hb : bitField x lo w = x / 2 ^ lo := Nat.mod_eq_of_lt (Nat.div_lt_of_lt_mul (by rwa [← pow_add]))
  have hx : x - x / 2 ^ lo * 2 ^ lo = x % 2 ^ lo := by have := Nat.div_add_mod' x (2 ^ lo); omega
  rw [setField, hb, hx, Nat.mul_comm, Nat.add_comm]

theorem testBit_setField_top {x lo w : Nat} (h : x < 2 ^ (lo + w)) (v : Nat) {k : Nat} (hk : k < lo + w) :
    (setField x lo w v).testBit k = if lo ≤ k then v.testBit (k - lo) else x.testBit k := by
  rw [setField_top h, Nat.testBit_two_pow_mul_add _ (Nat.mod_lt _ (Nat.two_pow_pos lo))]
  by_cases hlo : k < lo
  · rw [if_pos hlo, if_neg (by omega), Nat.testBit_mod_two_pow, decide_eq_true hlo, Bool.true_and]
  · rw [if_neg hlo, if_pos (by omega), Nat.testBit_mod_two_pow, decide_eq_true (by omega), Bool.true_and]

/-! ### BFX and BFI (R97) -/

theorem getLsbD_fieldOut (a sel : Word) {i : Nat} (hi : i < 64) :
    (fieldOut a sel).getLsbD i = (decide (i < bitField sel.toNat 8 7) && a.getLsbD (shiftBits sel + i)) := by
  rw [fieldOut, getLsbD_ofNat_of_lt hi, Nat.testBit_mod_two_pow, Nat.testBit_div_two_pow, Nat.add_comm i]
  rfl

theorem getLsbD_fieldIn (d a sel : Word) {i : Nat} (hi : i < 64) : (fieldIn d a sel).getLsbD i =
    if shiftBits sel ≤ i ∧ i < shiftBits sel + bitField sel.toNat 8 7 then a.getLsbD (i - shiftBits sel) else d.getLsbD i := by
  have hmask : (BitVec.ofNat 64 ((2 ^ bitField sel.toNat 8 7 - 1) * 2 ^ shiftBits sel)).getLsbD i =
      decide (shiftBits sel ≤ i ∧ i < shiftBits sel + bitField sel.toNat 8 7) := by
    rw [getLsbD_ofNat_of_lt hi, Nat.testBit_mul_two_pow, Nat.testBit_two_pow_sub_one, ← Bool.decide_and]
    exact decide_eq_decide.2 (by omega)
  rw [fieldIn, BitVec.getLsbD_or, BitVec.getLsbD_and, BitVec.getLsbD_and, BitVec.getLsbD_not, BitVec.getLsbD_shiftLeft, hmask]
  split
  · next h => simp [h, hi, not_lt.2 h.1]
  · next h => simp [h, hi]

/-! ### CLZ, CTZ and POPC (R95) -/

theorem leadingZeros_spec (x : Word) : leadingZeros x ≤ 64 ∧ (∀ i < leadingZeros x, x.getLsbD (63 - i) = false) ∧
    (leadingZeros x < 64 → x.getLsbD (63 - leadingZeros x) = true) := by
  unfold leadingZeros
  split
  · next h => subst h; simp
  · next h =>
    have h0 : x.toNat ≠ 0 := fun h0 => h (BitVec.eq_of_toNat_eq h0)
    have hlog : x.toNat.log2 < 64 := (Nat.log2_lt h0).2 x.isLt
    refine ⟨by omega, fun i hi => ?above, fun _ => ?highest⟩
    case above => exact Nat.testBit_lt_two_pow ((Nat.log2_lt h0).1 (by omega))
    case highest => rw [show 63 - (63 - x.toNat.log2) = x.toNat.log2 by omega]; exact Nat.testBit_log2 h0

theorem trailingZeros_spec (x : Word) : trailingZeros x ≤ 64 ∧ (∀ i < trailingZeros x, x.getLsbD i = false) ∧
    (trailingZeros x < 64 → x.getLsbD (trailingZeros x) = true) := by
  rw [trailingZeros, upFrom_zero_eq_range]
  cases h : (List.range 64).find? fun i => x.getLsbD i with
  | none =>
    rw [List.find?_range_eq_none] at h
    exact ⟨le_refl _, fun i hi => by simpa using h i hi, fun h64 => absurd h64 (lt_irrefl _)⟩
  | some n =>
    obtain ⟨hn, hlt, hbelow⟩ := List.find?_range_eq_some.1 h
    exact ⟨le_of_lt (List.mem_range.1 hlt), fun i hi => by simpa using hbelow i hi, fun _ => hn⟩

/-- Settles O7: the fields and the counts, bit by bit. -/
theorem bitFieldResults : Obligations.BitFieldResults := by
  intro s d a b x sel pos wid
  refine ⟨⟨_, _, rfl, rfl, fun i hi => getLsbD_fieldOut x _ hi, fun i hi => getLsbD_fieldIn _ x _ hi⟩, ⟨_, rfl, leadingZeros_spec x⟩,
    ⟨_, rfl, trailingZeros_spec x⟩, ?popc⟩
  case popc => rw [← upFrom_zero_eq_range]; rfl

/-! ### Immediates (R98 to R100) -/

/-- LIH replaces the high bits of gd, 16 of them or 44. -/
theorem getLsbD_lih (x : Word) (i : Imm) {k : Nat} (hk : k < 64) :
    let w := if i.ext then 44 else 16
    (BitVec.ofNat 64 (setField x.toNat (64 - w) w i.val.toNat)).getLsbD k =
      if 64 - w ≤ k then i.val.toNat.testBit (k - (64 - w)) else x.getLsbD k := by
  intro w
  have hw : 64 - w + w = 64 := by dsimp only [w]; split <;> rfl
  rw [getLsbD_ofNat_of_lt hk, testBit_setField_top (by rw [hw]; exact x.isLt) _ (by rw [hw]; exact hk)]
  rfl

/-- Settles O8: each instruction writes its word by definition, and the word of LIH is known by its bits. -/
theorem immediateResults : Obligations.ImmediateResults := by
  intro s d a sh i x m
  exact ⟨rfl, rfl, rfl, rfl, rfl, rfl, rfl, rfl, rfl, _, rfl, fun k hk => getLsbD_lih (readReg s d) i hk⟩

end Sys2Proof.Proofs
end

section
/-! PROOF. Sequencing: the back-edge, the loops that a branch leaves, and the instructions that change the flow (R85 to R92, R139, R140). -/

namespace Sys2Proof.Proofs
open Sys2Proof.Machine Sys2Proof.Claims

variable {s : State} {a len : Nat} {next target : Word}

/-! ### The back-edge test (R91) -/

/-- A loop ends in an instruction of `len` bytes at `a`. -/
def endsIn (a len : Nat) (e : LoopEntry) : Prop := a < e.stop.toNat ∧ e.stop.toNat ≤ a + len

/-- Exhausted loops that end there leave the stack. -/
theorem backEdge_spent {spent : List LoopEntry} (h : ∀ x ∈ spent, endsIn a len x ∧ x.left = 1) (rest : List LoopEntry) :
    backEdge a len next (spent ++ rest) = backEdge a len next rest := by
  induction spent with
  | nil => rfl
  | cons x spent ih =>
    obtain ⟨⟨hends, hleft⟩, hspent⟩ := List.forall_mem_cons.1 h
    exact (if_pos hends).trans ((if_neg (not_not.2 hleft)).trans (ih hspent))

theorem backEdge_again {e : LoopEntry} (h : endsIn a len e) (hleft : e.left ≠ 1) (outer : List LoopEntry) :
    backEdge a len next (e :: outer) = (e.start, { e with left := e.left - 1 } :: outer) :=
  (if_pos h).trans (if_pos hleft)

theorem backEdge_none {outer : List LoopEntry} (h : ∀ e ∈ outer.head?, ¬ endsIn a len e) : backEdge a len next outer = (next, outer) := by
  cases outer with
  | nil => rfl
  | cons e outer => exact if_neg (h e rfl)

/-- An instruction completes by its back-edge test. -/
theorem advanceBy_of_backEdge {loops : List LoopEntry}
    (h : backEdge (curStream s).pc.toNat len ((curStream s).pc + BitVec.ofNat 64 len) (innermost (curStream s).loops) = (target, innermost loops)) :
    advanceBy s len = completeAt (setCur s { curStream s with loops := loops }) target := by
  rw [advanceBy, h, innermost, innermost, List.reverse_reverse]

/-- The innermost loop of a stack, seen from its outermost end. -/
theorem head?_innermost {p : LoopEntry → Prop} {outer : List LoopEntry} (h : ∀ pre x, outer = pre ++ [x] → p x) : ∀ x ∈ (innermost outer).head?, p x := by
  intro x hx
  rw [innermost, List.head?_reverse] at hx
  obtain ⟨pre, hpre⟩ := List.getLast?_eq_some_iff.1 hx
  exact h pre x hpre

/-! ### The loops that a branch leaves (R92) -/

/-- The body of a loop holds an address. -/
def bodyHolds (target : Word) (e : LoopEntry) : Prop := e.start.toNat ≤ target.toNat ∧ target.toNat < e.stop.toNat

theorem loopExit_left {left : List LoopEntry} (h : ∀ x ∈ left, ¬ bodyHolds target x) (rest : List LoopEntry) :
    loopExit target (left ++ rest) = loopExit target rest := by
  induction left with
  | nil => rfl
  | cons x left ih =>
    obtain ⟨hx, hleft⟩ := List.forall_mem_cons.1 h
    exact (if_neg hx).trans (ih hleft)

theorem loopExit_stays {outer : List LoopEntry} (h : ∀ e ∈ outer.head?, bodyHolds target e) : loopExit target outer = outer := by
  cases outer with
  | nil => rfl
  | cons e outer => exact if_pos (h e rfl)

/-! ### The instructions -/

/-- The innermost loop encloses a body that ends at an address (R90). -/
theorem enclosed_of {l : List LoopEntry} {stop : Word} (h : ∀ pre e, l = pre ++ [e] → stop.toNat ≤ e.stop.toNat) :
    ¬ l.getLast?.any (fun e => e.stop.toNat < stop.toNat) = true := by
  rw [Option.any_eq_true]
  rintro ⟨e, he, hlt⟩
  obtain ⟨pre, hpre⟩ := List.getLast?_eq_some_iff.1 he
  exact absurd (of_decide_eq_true hlt) (not_lt.2 (h pre e hpre))

theorem branchIf_eq (s : State) (cond : Bool) (off : Imm) :
    branchIf s cond off = .next (if cond then branchTo s ((curStream s).pc + BitVec.ofInt 64 (4 * off.val)) else advance s) := by
  cases cond <;> rfl

/-- WHERE of a selector of the job (R140). -/
theorem whereValue_coord {j : Job} (h : curJob s = some j) {l : Nat} (hl : l < 6) : whereValue s l = coordAt j s.core.jobRank l := by
  have h0 : l / 256 = 0 := by omega
  have hlow : l % 256 = l := by omega
  simp [whereValue, h0, hlow, h]

theorem whereValue_extent {j : Job} (h : curJob s = some j) {l : Nat} (hl : l < 6) : whereValue s (0x100 + l) = extentAt j l := by
  have h1 : (0x100 + l) / 256 = 1 := by omega
  have hlow : (0x100 + l) % 256 = l := by omega
  simp [whereValue, h1, hlow, h]

theorem exec_loop {words : Nat} (h0 : words ≠ 0) (ga : Nat) : exec (.loop ga words) s =
    let t := curStream s
    let start := t.pc + 4
    let stop := start + BitVec.ofNat 64 (4 * words)
    if t.loops.length = 8 then .next (trapCur s { cause := .loopNest })
    else if t.loops.getLast?.any (fun e => e.stop.toNat < stop.toNat) then .next (trapCur s { cause := .loopNest })
    else .next (if readReg s ga = 0 then advanceBy s (4 + 4 * words)
      else completeAt (setCur s { t with loops := t.loops ++ [⟨start, stop, readReg s ga⟩] }) start) := by
  refine (if_neg h0).trans ?_
  simp only [apply_ite Host.Outcome.next]

theorem exec_ret_of_rets {pre : List Word} {pc : Word} (h : (curStream s).rets = pre ++ [pc]) :
    exec .ret s = .next (completeAt (setCur s { curStream s with rets := pre }) pc) := by
  show execRet s = _
  simp [execRet, h]

theorem exec_ret_of_no_rets (h : (curStream s).rets = []) : exec .ret s = .next (trapCur s { cause := .callDepth }) := by
  show execRet s = _
  simp [execRet, h]

/-- RNDV with nothing open meets the others, and else faults (R139). -/
theorem exec_rndv (s : State) : exec .rndv s = if (curStream s).loops ≠ [] ∨ s.cur = .c ∧ (curStream s).rets ≠ [] then
      .next (trapCur s { cause := .rndvMismatch })
    else .next (retireCur (setCur s { curStream s with state := .met, pending := none, displaced := keptWords s })) := by
  show execRndv s = _
  simp [execRndv]

/-- Settles O11: each instruction by its definition, the completion of an instruction by its back-edge test (`backEdge_spent`), and a taken branch by the
loops it leaves (`loopExit_left`). -/
theorem flowResults : Obligations.FlowResults := by
  refine ⟨?instructions, ?completion, ?branch⟩
  case completion =>
    intro s outer spent e len t ends
    refine ⟨fun hl hspent he hleft => advanceBy_of_backEdge ?again, fun hl hspent hnone => advanceBy_of_backEdge ?through⟩
    case again =>
      rw [show (curStream s).loops = _ from hl, innermost, List.reverse_append, List.reverse_cons, List.append_assoc,
        backEdge_spent fun x hx => hspent x (List.mem_reverse.1 hx), List.singleton_append, backEdge_again he hleft, innermost, List.reverse_append]
      rfl
    case through =>
      rw [show (curStream s).loops = _ from hl, innermost, List.reverse_append, backEdge_spent fun x hx => hspent x (List.mem_reverse.1 hx)]
      exact backEdge_none (head?_innermost hnone)
  case branch =>
    intro s outer spent target t holds hl hspent hstay
    have hexit : loopExit target (innermost (outer ++ spent)) = innermost outer := by
      rw [innermost, List.reverse_append, loopExit_left fun x hx => hspent x (List.mem_reverse.1 hx)]
      exact loopExit_stays (head?_innermost hstay)
    rw [branchTo, show (curStream s).loops = _ from hl, hexit, innermost, innermost, List.reverse_reverse]
  case instructions =>
    intro s a b words gd off t x y target start stop
    refine ⟨rfl, rfl, fun h8 => if_neg h8, fun pre pc => exec_ret_of_rets, ?conditional, fun h0 h8 hin => ?loop, fun hl hr => ?rndv, ?whereCore,
      fun j hj => ⟨?whereJob, fun l hl => ⟨?coord, ?extent⟩⟩, fun h8 => if_pos h8, exec_ret_of_no_rets, rfl, fun h0 h8 => ?loopDeep,
      fun h0 h8 pre e hl hlt => ?loopBeyond, fun h => (exec_rndv s).trans (if_pos h)⟩
    case conditional =>
      simp only [List.forall_mem_cons, List.not_mem_nil, false_imp_iff, implies_true, and_true]
      have taken {c c' : Bool} (h : c = c') : branchIf s c off = .next (if c' then branchTo s target else advance s) := by rw [← h, branchIf_eq]
      refine ⟨taken ?_, taken ?_, taken ?_, taken ?_, taken ?_, taken ?_⟩
      · rfl
      · simp [bne, beq_eq_decide, x, y]
      · rfl
      · simp [BitVec.slt, ← decide_not, x, y]
      · rfl
      · simp [BitVec.ult, ← decide_not, x, y]
    case loop => rw [exec_loop h0, if_neg h8, if_neg (enclosed_of hin)]
    case rndv => rw [exec_rndv, if_neg (by rw [not_or]; exact ⟨not_not.2 hl, fun h => h.2 (hr h.1)⟩)]
    case whereCore =>
      simp only [List.forall_mem_cons, List.not_mem_nil, false_imp_iff, implies_true, and_true]
      exact ⟨rfl, rfl, rfl, rfl, rfl, rfl, rfl⟩
    case whereJob =>
      simp only [List.forall_mem_cons, List.not_mem_nil, false_imp_iff, implies_true, and_true]
      have ofJob (f : Job → Nat) (d : Nat) : ((curJob s).map f).getD d = f j := by rw [hj]; rfl
      exact ⟨congrArg (fun v => finish (writeNat s gd v)) (ofJob jobSize 1),
        congrArg (fun v => finish (writeNat s gd v)) (ofJob (fun j => j.kern.levels.length) 0)⟩
    case coord => exact congrArg (fun v => finish (writeNat s gd v)) (whereValue_coord hj hl)
    case extent => exact congrArg (fun v => finish (writeNat s gd v)) (whereValue_extent hj hl)
    case loopDeep => rw [trapsWith, exec_loop h0, if_pos h8]
    case loopBeyond =>
      rw [trapsWith, exec_loop h0, if_neg h8, if_pos]
      rw [show (curStream s).loops = _ from hl, List.getLast?_append, Option.any_eq_true]
      exact ⟨e, rfl, decide_eq_true hlt⟩

end Sys2Proof.Proofs
end

section
/-! PROOF. Scalar floating point: one rounding and its flags, and the comparisons (R102 to R110). -/

namespace Sys2Proof.Proofs
open Sys2Proof.Machine Sys2Proof.Claims

variable {s : State} {d a b fmt : Nat} {rm : Rm} {fl : Flags} {x y : XR} {p q : Nat}

/-! ### Arithmetic and conversion (R102 to R104, R108, R109) -/

/-- Without an enabled exception the flags stick and the value is written (R103). -/
theorem flagged_quiet (h4 : (fl.getLsbD 7 && s.core.vctlLo.getLsbD 4) = false) (ht : enabledTrap s.core.vctlLo fl = none) (v : Nat) :
    flagged s d v fl = .next (advance (writeNat (mergeFlags s fl) d v)) := by
  rw [flagged, raiseFlags, if_neg (ne_true_of_eq_false h4), ht]; rfl

theorem flagged_noFlags (s : State) (d v : Nat) : flagged s d v 0 = .next (advance (writeNat s d v)) := by
  rw [flagged, raiseFlags_zero]; rfl

/-- A result of FCVT.TO is sign-extended where its format is a signed integer (R108). -/
theorem cvtWord_eq (f : Fmt) (v : Nat) :
    cvtWord f v = if f = .i4s ∨ f = .i8 ∨ f = .i16 ∨ f = .i32 ∨ f = .i64 then truncBits (signExt v (fmtWidth f)) 64 else v := by
  cases f <;> rfl

/-- FCVT.TO has no result in B1 (R108). -/
theorem exec_fcvtTo_b1 (h : fmtOfCode fmt = some .b1) : trapsWith (.fcvtTo d a fmt rm) s .formatUnsupported := by
  show execFcvtTo d a fmt rm s = _
  rw [execFcvtTo, h]

/-- Settles O12: an instruction that ends in a rounding with its flags writes it where none of them has its trap enabled (`flagged_quiet`). -/
theorem floatResults : Obligations.FloatResults := by
  intro s d a b fmt rm x y z r rdn quiet gives
  have hr : r = scalarRounding s rm := (scalarRounding_eq s rm).symm
  have hrdn : rdn = roundsDown s rm := by show decide (r.mode = .rdn) = _; rw [hr]; rfl
  have hx : x = f32Of s a := (f32Of_eq s a).symm
  have hy : y = f32Of s b := (f32Of_eq s b).symm
  have hz : z = f32Of s d := (f32Of_eq s d).symm
  have key {i : Instr} {v : FV} {f : Fmt} {out : Nat → Nat}
      (h : exec i s = flagged s d (out (scalarRound s rm f v).1) (scalarRound s rm f v).2) : gives i v f out := by
    intro hquiet
    have ho : scalarRound s rm f v = ((roundTo v.1 f r).1, v.2 ||| (roundTo v.1 f r).2) := by rw [scalarRound, ← hr]
    rw [h, ho]
    exact flagged_quiet hquiet.1 hquiet.2 _
  refine ⟨?arithmetic, fun f hf => ⟨fun h1 => ?outward, fun hb => exec_fcvtTo_b1 (hb ▸ hf), key (exec_fcvtFrom hf)⟩⟩
  case arithmetic =>
    rw [hrdn, hx, hy, hz]
    simp only [List.forall_mem_cons, List.not_mem_nil, false_imp_iff, implies_true, and_true]
    and_intros <;> exact key rfl
  case outward =>
    have hcvt : gives (.fcvtTo d a fmt rm) (x, 0) f (cvtWord f) := key (by rw [exec_fcvtTo hf h1, ← hx])
    rwa [funext (cvtWord_eq f)] at hcvt

/-! ### The order of values (R105, R106) -/

theorem xCmp_swap (x y : XR) : xCmp y x = (xCmp x y).map Ordering.swap := by
  cases x with
  | nan => cases y <;> rfl
  | inf s => cases y with
    | nan => rfl
    | inf t => cases s <;> cases t <;> rfl
    | fin t m e => cases s <;> rfl
  | fin s n d => cases y with
    | nan => rfl
    | inf t => cases t <;> rfl
    | fin t m e => simp only [xCmp, Option.map_some, Std.OrientedCmp.eq_swap (cmp := compare (α := Int)) (a := xNum t m * d)]

theorem xCmp_self (x : XR) : xCmp x x = if xIsNan x then none else some .eq := by
  cases x with
  | nan => rfl
  | inf s => simp [xCmp, xIsNan]
  | fin s n d => simp [xCmp, xIsNan]

theorem xLtSigned_irrefl (x : XR) : xLtSigned x x = false := by
  cases hn : xIsNan x <;> simp [xLtSigned, xCmp_self, hn]

theorem xLtSigned_asymm (h : xLtSigned x y = true) : xLtSigned y x = false := by
  unfold xLtSigned at *
  rw [xCmp_swap x y]
  split at h
  · next ho => rw [ho]; rfl
  · next ho =>
    obtain ⟨hx, hy⟩ := (Bool.and_eq_true _ _).mp h
    rw [ho]
    simp [hx]
  · cases h

/-- NaN compares with nothing. -/
theorem xCmp_nan (h : x = .nan ∨ y = .nan) : xCmp x y = none := by
  rcases h with rfl | rfl
  · rfl
  · cases x <;> rfl

/-! ### F32 encodings (R23, R24) -/

theorem xIsNan_xScaled (neg : Bool) (k : Nat) (e : Int) : xIsNan (xScaled neg k e) = false := by
  unfold xScaled; split <;> rfl

/-- At most the magnitude of an infinity an F32 encoding is no NaN. -/
theorem decodeFmt_f32_not_nan (h : ¬ 0x7F800000 < p % 2 ^ 31) : xIsNan (decodeFmt .f32 p) = false := by
  have hm : p % 2 ^ 32 % 2 ^ 31 = p % 2 ^ 31 := by omega
  simp only [decodeFmt, floatSpec, decodeFloat, fmtWidth, Nat.reduceSub, hm]
  split
  · rw [if_pos ⟨trivial, by omega⟩]; rfl
  · split <;> exact xIsNan_xScaled ..

/-- FMIN and FMAX answer the canonical NaN to a NaN. -/
theorem f32Pick_nan (greater : Bool) (h : decodeFmt .f32 p = .nan ∨ decodeFmt .f32 q = .nan) : f32Pick greater p q = 0x7FC00000 :=
  if_pos (by rcases h with h | h <;> simp [h, xIsNan])

theorem f32Pick_of_numbers (greater : Bool) (hp : xIsNan (decodeFmt .f32 p) = false) (hq : xIsNan (decodeFmt .f32 q) = false) :
    f32Pick greater p q = if (if greater then xLtSigned (decodeFmt .f32 p) (decodeFmt .f32 q) else xLtSigned (decodeFmt .f32 q) (decodeFmt .f32 p))
      then q else p :=
  if_neg (by simp [hp, hq])

/-- A choice by a relation that is irreflexive and asymmetric leaves nothing before what it has chosen. -/
theorem chosen_first {lt : Nat → Nat → Bool} (hirrefl : ∀ v, lt v v = false) (hasymm : ∀ v w, lt v w = true → lt w v = false) (p q : Nat) :
    let c := if lt q p then q else p
    c ∈ [p, q] ∧ ∀ v ∈ [p, q], lt v c = false := by
  intro c
  cases h : lt q p with
  | true => rw [show c = q by simp [c, h]]; simp [hirrefl, hasymm _ _ h]
  | false => rw [show c = p by simp [c, h]]; simp [hirrefl, h]

/-- FCLASS by the value of the encoding (R107). -/
theorem f32Class_spec (hp : p < 2 ^ 32) : let k := f32Class p
    (p = 0xFF800000 → k = 0) ∧ (0x80800000 ≤ p → p < 0xFF800000 → k = 1) ∧ (0x80000000 < p → p < 0x80800000 → k = 2) ∧
    (p = 0x80000000 → k = 3) ∧ (p = 0 → k = 4) ∧ (0 < p → p < 0x800000 → k = 5) ∧ (0x800000 ≤ p → p < 0x7F800000 → k = 6) ∧
    (p = 0x7F800000 → k = 7) ∧ (p % 2 ^ 31 > 0x7F800000 → k = 8) := by
  have hneg : bitAt p 31 = decide (2 ^ 31 ≤ p) := decide_eq_decide.2 (by omega)
  simp only [f32Class, hneg, decide_eq_true_eq]
  split_ifs <;> omega

/-- Settles O13: FMIN and FMAX choose by the signed order, FCMP writes its relation with NV alone at risk of a trap, and FCLASS goes by the encoding. -/
theorem floatComparisons : Obligations.FloatComparisons := by
  intro s d a b p q x y nan gives
  have hx : f32Of s a = x := f32Of_eq s a
  have hy : f32Of s b = y := f32Of_eq s b
  have hpick (greater : Bool) : f32Pick greater (bitField (readReg s a).toNat 0 32) (bitField (readReg s b).toNat 0 32) = f32Pick greater p q := by
    rw [bitField_low, bitField_low]
  have hmin : exec (.fmin d a b) s = .next (advance (writeNat s d (f32Pick false p q))) := by rw [← hpick]; rfl
  have hmax : exec (.fmax d a b) s = .next (advance (writeNat s d (f32Pick true p q))) := by rw [← hpick]; rfl
  have hnan (h : nan p ∨ nan q) : x = .nan ∨ y = .nan := h.imp decodeFmt_f32_nan decodeFmt_f32_nan
  have relates {cc : FCond} {v : Prop} {fl : Flags} (hfl : (fRelation cc x y).2 = fl) (hquiet : fl = 0 ∨ fl = flagNV)
      (hv : (fRelation cc x y).1 = true ↔ v) : gives cc v fl := by
    intro h5
    refine ⟨b2n (fRelation cc x y).1, ?_, fun h => by rw [hv.2 h]; rfl, fun h => by rw [eq_false_of_ne_true (mt hv.1 h)]; rfl⟩
    show flagged s d (b2n (fRelation cc (f32Of s a) (f32Of s b)).1) (fRelation cc (f32Of s a) (f32Of s b)).2 = _
    rw [hx, hy, hfl]
    rcases hquiet with rfl | rfl
    · rw [mergeFlags_zero]; exact flagged_noFlags ..
    · exact flagged_quiet rfl (by rw [enabledTrap, h5 (by decide)]; rfl) _
  refine ⟨?canonical, fun hp hq => ?chosen, fun hp hq => ?ordered, fun h => ?unordered, f32Class p, ?classes, f32Class_spec (Nat.mod_lt _ (by decide))⟩
  case canonical =>
    simp only [List.forall_mem_cons, List.not_mem_nil, false_imp_iff, implies_true, and_true]
    refine ⟨fun h => ?_, fun h => ?_⟩
    · rw [hmin, f32Pick_nan _ (hnan h)]
    · rw [hmax, f32Pick_nan _ (hnan h)]
  case chosen =>
    have hp' := decodeFmt_f32_not_nan hp
    have hq' := decodeFmt_f32_not_nan hq
    obtain ⟨hlo, hbelow⟩ := chosen_first (lt := fun v w => xLtSigned (decodeFmt .f32 v) (decodeFmt .f32 w)) (fun _ => xLtSigned_irrefl _)
      (fun _ _ => xLtSigned_asymm) p q
    obtain ⟨hhi, habove⟩ := chosen_first (lt := fun v w => xLtSigned (decodeFmt .f32 w) (decodeFmt .f32 v)) (fun _ => xLtSigned_irrefl _)
      (fun _ _ => xLtSigned_asymm) p q
    rw [hmin, hmax, f32Pick_of_numbers _ hp' hq', f32Pick_of_numbers _ hp' hq']
    exact ⟨_, _, rfl, rfl, hlo, hhi, fun v hv => ⟨hbelow v hv, habove v hv⟩⟩
  case ordered =>
    have hun : (xIsNan x || xIsNan y) = false := by rw [decodeFmt_f32_not_nan hp, decodeFmt_f32_not_nan hq]; rfl
    exact ⟨relates rfl (.inl rfl) (by simp [fRelation]), relates (by simp [fRelation, hun]) (.inl rfl) (by simp [fRelation]),
      relates (by simp [fRelation, hun]) (.inl rfl) (by simp [fRelation]), relates rfl (.inl rfl) (by simp [fRelation, hun])⟩
  case unordered =>
    have hxy := hnan h
    have hnv := fRelation_nan hxy
    have hcmp := xCmp_nan hxy
    have hun : (xIsNan x || xIsNan y) = true := by rcases hxy with h | h <;> simp [h, xIsNan]
    exact ⟨relates rfl (.inl rfl) (by simp [fRelation, hcmp]), relates (hnv .lt (by simp)) (.inr rfl) (by simp [fRelation, hcmp]),
      relates (hnv .le (by simp)) (.inr rfl) (by simp [fRelation, hcmp]), relates rfl (.inl rfl) (by simp [fRelation, hun])⟩
  case classes =>
    show finish (writeNat s d (2 ^ f32Class (bitField (readReg s a).toNat 0 32))) = _
    rw [bitField_low]; rfl

end Sys2Proof.Proofs
end

section
/-! PROOF. The spaces of scalar accesses, and their address faults (R111, R116, R121). -/

namespace Sys2Proof.Proofs
open Sys2Proof.Machine Sys2Proof.Claims

variable {s : State} {ea : Word} {n : Nat}

/-! ### The space of an effective address (R111) -/

theorem bitField_space (ea : Word) : bitField ea.toNat 55 9 = ea.toNat / 2 ^ 55 := Nat.mod_eq_of_lt (by omega)

theorem placeOf_virt (h : ea.toNat / 2 ^ 55 = 0) : placeOf ea = .virt ea.toNat := by
  simp only [placeOf, bitField_space, h]

theorem placeOf_spad (h : ea.toNat / 2 ^ 55 = 0x100) : placeOf ea = .spad (ea.toNat % 2 ^ 55) := by
  simp only [placeOf, bitField_space, h, bitField_low]

theorem placeOf_vault (h : ea.toNat / 2 ^ 55 = 0x101) :
    placeOf ea = .vault (ea.toNat % 2 ^ 31) (ea.toNat % 2 ^ 55 / 2 ^ 31 = 0 && ea.toNat / 2 ^ 22 % 512 < 384) := by
  have h24 : bitField ea.toNat 31 24 = ea.toNat % 2 ^ 55 / 2 ^ 31 := by unfold bitField; omega
  simp only [placeOf, bitField_space, h, bitField_low, h24]
  rfl

/-- The address is that of no vault (R143). -/
theorem placeOf_vault_beyond (h : ea.toNat / 2 ^ 55 = 0x101) (hb : ea.toNat % 2 ^ 55 / 2 ^ 31 ≠ 0 ∨ 384 ≤ ea.toNat / 2 ^ 22 % 512) :
    placeOf ea = .vault (ea.toNat % 2 ^ 31) false := by
  rw [placeOf_vault h]
  congr 1
  simpa [imp_iff_not_or] using hb

theorem placeOf_nowhere (h0 : ea.toNat / 2 ^ 55 ≠ 0) (h1 : ea.toNat / 2 ^ 55 ≠ 0x100) (h2 : ea.toNat / 2 ^ 55 ≠ 0x101) : placeOf ea = .nowhere := by
  simp only [placeOf, bitField_space]

theorem placeOf_somewhere (h : ea.toNat / 2 ^ 55 = 0 ∨ ea.toNat / 2 ^ 55 = 0x100 ∨ ea.toNat / 2 ^ 55 = 0x101) : placeOf ea ≠ .nowhere := by
  rcases h with h | h | h
  · rw [placeOf_virt h]; nofun
  · rw [placeOf_spad h]; nofun
  · rw [placeOf_vault h]; nofun

/-! ### The first rows of the fault tables (R116, R121) -/

/-- The fault `t` that the address of a scalar access of `n` bytes comes to before anything is looked up in its space; `align` is the cause of a
misaligned one. -/
inductive AddressFault (ea : Word) (n : Nat) (align : Cause) : TrapInfo → Prop
  | nowhere (hp : placeOf ea = .nowhere) : AddressFault ea n align { cause := .noMapping, va := ea.toNat }
  | misaligned (hp : placeOf ea ≠ .nowhere) (ha : ea.toNat % n ≠ 0) : AddressFault ea n align { cause := align, va := ea.toNat }
  | spad {off : Nat} (hp : placeOf ea = .spad off) (ha : ea.toNat % n = 0) (h : spadSize < off + n) : AddressFault ea n align { cause := .spadRange }
  | vault {a : Nat} (hp : placeOf ea = .vault a false) (ha : ea.toNat % n = 0) : AddressFault ea n align { cause := .vaultRange }

theorem spadOk_beyond {off : Nat} (h : spadSize < off + n) : spadOk s off n = false := by simp [spadOk, h]

variable {t : TrapInfo}

theorem scalarLoad_faults (h : AddressFault ea n .ldAlign t) : scalarLoad s ea n = .error (.trap t) := by
  cases h with
  | nowhere hp => simp [scalarLoad, hp, faultVa]
  | misaligned hp ha => cases h : placeOf ea <;> simp_all [scalarLoad, faultVa]
  | spad hp ha h => simp [scalarLoad, hp, ha, spadLoad, spadOk_beyond h, fault, Except.map]
  | vault hp ha => simp [scalarLoad, hp, ha, fault]

theorem scalarStore_faults {bs : List Byte} (h : AddressFault ea bs.length .stAlign t) : scalarStore s ea bs = .error (.trap t) := by
  cases h with
  | nowhere hp => simp [scalarStore, hp, faultVa]
  | misaligned hp ha => cases h : placeOf ea <;> simp_all [scalarStore, faultVa]
  | spad hp ha h => simp [scalarStore, hp, ha, spadStore, spadOk_beyond h, fault]
  | vault hp ha => simp [scalarStore, hp, ha, fault]

theorem atomicAt_faults {f : Nat → Option Nat} (h : AddressFault ea n .atomicAlign t) : atomicAt s ea n f = .error (.trap t) := by
  cases h with
  | nowhere hp => simp [atomicAt, hp, faultVa]
  | misaligned hp ha => cases h : placeOf ea <;> simp_all [atomicAt, faultVa]
  | spad hp ha h => simp [atomicAt, hp, ha, spadLoad, spadOk_beyond h, fault]
  | vault hp ha => simp [atomicAt, hp, ha, fault]

/-! ### The instructions -/

/-- An instruction whose access faults traps with that fault. -/
theorem run_of_trap {α : Type} {r : Res α} (f : α → State) (h : r = .error (.trap t)) : run s (r.map f) = .next (trapCur s t) := by rw [h]; rfl

/-- Settles O15: each access faults as its address does, and the address faults by its space. -/
theorem scalarAddressFaults : Obligations.ScalarAddressFaults := by
  intro s d a b imm op off p hp
  have faults : ∀ t, AddressFault p.2.1 p.2.2.1 p.2.2.2 t → exec p.1 s = .next (trapCur s t) := by
    revert p
    simp only [List.forall_mem_cons, List.not_mem_nil, false_imp_iff, implies_true, and_true]
    have loads {n : Nat} (f : State × List Byte → State) (t : TrapInfo) (h : AddressFault off n .ldAlign t) :
        run s ((scalarLoad s off n).map f) = .next (trapCur s t) := run_of_trap f (scalarLoad_faults h)
    have stores {n : Nat} {bs : List Byte} (hn : bs.length = n) (t : TrapInfo) (h : AddressFault off n .stAlign t) :
        run s (scalarStore s off bs) = .next (trapCur s t) := by
      subst hn; rw [scalarStore_faults h]; rfl
    have atomics {n : Nat} (g : Nat → Option Nat) (f : State × Nat → State) (t : TrapInfo) (h : AddressFault (readReg s a) n .atomicAlign t) :
        run s ((atomicAt s (readReg s a) n g).map f) = .next (trapCur s t) := run_of_trap f (atomicAt_faults h)
    exact ⟨loads _, loads _, loads _, loads _, loads _, loads _, loads _, loads _, loads _, stores (natLe_length ..), stores (natLe_length ..),
      stores (natLe_length ..), stores (natLe_length ..), stores rfl, stores (natLe_length ..),
      atomics _ _, atomics _ _, atomics _ _, atomics _ _⟩
  intro ea n space
  exact ⟨fun h0 h1 h2 => faults _ (.nowhere (placeOf_nowhere h0 h1 h2)), fun hs ha => faults _ (.misaligned (placeOf_somewhere hs) ha),
    fun h1 ha hb => faults _ (.spad (placeOf_spad h1) ha hb), fun h2 ha hb => faults _ (.vault (placeOf_vault_beyond h2 hb) ha)⟩

end Sys2Proof.Proofs
end

section
/-! PROOF. Scalar loads: the bytes read and the word written (R111, R112, R402, R406). -/

namespace Sys2Proof.Proofs
open Sys2Proof.Machine Sys2Proof.Claims

variable {s : State} {ea : Word} {n : Nat}

/-! ### The word written (R112) -/

theorem toInt_ofNat_eq_signExt (v : Nat) {w : Nat} (hw : 0 < w) : (BitVec.ofNat w v).toInt = signExt v w := by
  have h2 : 2 ^ w % 2 = 0 := Nat.mod_eq_zero_of_dvd (dvd_pow_self 2 (by omega))
  rw [BitVec.toInt_eq_toNat_cond, BitVec.toNat_ofNat, signExt]
  split <;> simp

/-- A word sign-extended from its low bits (R112). -/
theorem ofNat_truncBits_signExt (v : Nat) {w : Nat} (h0 : 0 < w) (hw : w ≤ 64) :
    BitVec.ofNat 64 (truncBits (signExt v w) 64) = ((BitVec.ofNat 64 v).setWidth w).signExtend 64 := by
  have hlow : (BitVec.ofNat 64 v).setWidth w = BitVec.ofNat w v := BitVec.setWidth_ofNat_of_le hw v
  rw [hlow, BitVec.signExtend, toInt_ofNat_eq_signExt v h0]
  apply BitVec.eq_of_toNat_eq
  simpa [truncBits, BitVec.toNat_ofInt] using Int.emod_lt_of_pos _ (by decide)

/-! ### The bytes read (R111) -/

theorem tabRange_eq_map {α : Type} (d : α) (t : Tab α) (a n : Nat) : tabRange d t a n = (List.range n).map fun k => tabGet d t (a + k) := by
  induction n generalizing a with
  | zero => rfl
  | succ n ih =>
    rw [tabRange, ih, List.range_succ_eq_map, List.map_cons, List.map_map]
    exact congrArg _ (List.map_congr_left fun k _ => congrArg (tabGet d t) (Nat.succ_add_eq_add_succ a k))

theorem spadLoad_ok {off : Nat} (hok : spadOk s off n = true) (hs : spadSound s off n = true) : spadLoad s off n = .ok (spadBytes s off n) := by
  simp [spadLoad, hok, hs]

theorem vaultLoad_ok {a : Nat} (hok : vaultOk s a n = true) (hs : vaultSound s a n = true) : vaultLoad s a n = .ok (tabRange 0 s.vaults a n) := by
  simp [vaultLoad, hok, hs]

/-- The address of a vault that is reached (R143). -/
theorem placeOf_vault_reached (h : ea.toNat / 2 ^ 31 = 0x101 * 2 ^ 24) (hok : vaultOk s (ea.toNat % 2 ^ 31) n = true) :
    placeOf ea = .vault (ea.toNat % 2 ^ 31) true := by
  have hvault : ea.toNat % 2 ^ 31 / 4194304 < 384 := by
    simp only [vaultOk, vaultShared, Bool.and_eq_true, decide_eq_true_eq] at hok
    omega
  rw [placeOf_vault (by omega)]
  congr 1
  simp only [Bool.and_eq_true, decide_eq_true_eq]
  omega

theorem scalarLoad_spad {off : Nat} (hp : placeOf ea = .spad off) (ha : ea.toNat % n = 0) (hok : spadOk s off n = true)
    (hs : spadSound s off n = true) : scalarLoad s ea n = .ok (s, spadBytes s off n) := by
  simp [scalarLoad, hp, ha, spadLoad_ok hok hs, Except.map]

theorem scalarLoad_vault {a : Nat} (hp : placeOf ea = .vault a true) (ha : ea.toNat % n = 0) (hok : vaultOk s a n = true)
    (hs : vaultSound s a n = true) : scalarLoad s ea n = .ok (s, tabRange 0 s.vaults a n) := by
  simp [scalarLoad, hp, ha, vaultLoad_ok hok hs, Except.map]

theorem scalarLoad_virt (ha : ea.toNat % n = 0) (h : ea.toNat / 2 ^ 55 = 0) : scalarLoad s ea n = memLoad s (curAccessor s) ea.toNat n := by
  simp [scalarLoad, placeOf_virt h, ha]

/-! ### A resident page (R402, R406) -/

variable {a : Accessor} {l : Leaf} {pa va : Nat}

theorem memLoad_page (ht : translate s a .read va = .ok (.here l pa)) (hc : pteClass l.entry ≠ 3) {t : State}
    (h : pageChecks s a l pa va n true false = .ok t) : memLoad s a va n = .ok (t, physBytes t pa n) := by
  simp [memLoad, ht, hc, h]

theorem memLoad_view (ht : translate s a .read va = .ok (.here l pa)) (hc : pteClass l.entry = 3) (hn : n = 4 ∨ n = 8) (hv : paTier pa = none) :
    memLoad s a va n = .ok (s, natLe n (viewRead s (viewAt pa).1 (viewAt pa).2 n)) := by
  have hn' : ¬ (n ≠ 4 ∧ n ≠ 8) := by omega
  simp only [memLoad, ht, hc, hv, if_true, if_neg hn', Option.isNone_none]

theorem memLoad_device (ht : translate s a .read va = .ok (.here l pa)) (hc : pteClass l.entry = 3) (hn : n = 4 ∨ n = 8) (hv : paTier pa ≠ none)
    {t : State} (h : deviceChecks s a pa va n false = .ok t) : memLoad s a va n = .ok (t, physBytes t pa n) := by
  have hn' : ¬ (n ≠ 4 ∧ n ≠ 8) := by omega
  simp only [memLoad, ht, hc, Option.isNone_eq_false_iff.2 (Option.isSome_iff_ne_none.2 hv), if_true, if_neg hn', Bool.false_eq_true, if_false, h]

/-- An instruction whose access is made goes on from what that leaves. -/
theorem run_of_ok {α : Type} {r : Res α} (f : α → State) {x : α} (h : r = .ok x) : run s (r.map f) = .next (advance (f x)) := by rw [h]; rfl

/-- Settles O16: each load writes the word of the bytes read, and its bytes are those of the space that its address names. -/
theorem loadResults : Obligations.LoadResults := by
  intro s d a imm ea
  refine ⟨fun t bs => ⟨?signed, ?unsigned, fun h => run_of_ok _ h⟩, fun n _ ha => ⟨fun h hok hs => ?spad, fun h hok hs => ?vault, fun h l pa ht => ?memory⟩⟩
  case signed =>
    simp only [List.forall_mem_cons, List.not_mem_nil, false_imp_iff, implies_true, and_true]
    have loads {n : Nat} (h0 : 0 < 8 * n) (hn : 8 * n ≤ 64) (h : scalarLoad s ea n = .ok (t, bs)) :
        load s d a imm n (fun v => truncBits (signExt v (8 * n)) 64) =
          .next (advance (writeReg t d (((wordOfBytes bs).setWidth (8 * n)).signExtend 64))) := by
      rw [wordOfBytes, ← ofNat_truncBits_signExt _ h0 hn]
      exact run_of_ok _ h
    exact ⟨loads (by decide) (by decide), loads (by decide) (by decide), loads (by decide) (by decide)⟩
  case unsigned =>
    simp only [List.forall_mem_cons, List.not_mem_nil, false_imp_iff, implies_true, and_true]
    exact ⟨run_of_ok _, run_of_ok _, run_of_ok _, run_of_ok _⟩
  case spad => rw [scalarLoad_spad (placeOf_spad h) ha hok hs, spadBytes, tabRange_eq_map]
  case vault => rw [scalarLoad_vault (placeOf_vault_reached h hok) ha hok hs, tabRange_eq_map]
  case memory =>
    rw [scalarLoad_virt ha h]
    exact ⟨fun hc t => memLoad_page ht hc, fun hc hn => ⟨memLoad_view ht hc hn, fun hv t => memLoad_device ht hc hn hv⟩⟩

end Sys2Proof.Proofs
end

section
/-! PROOF. Bytes stored: the laws of byte lists and tables, and what the checks and writes of memory leave unchanged (R1, R17, R388, R406, R409). -/

namespace Sys2Proof.Proofs
open Sys2Proof.Machine Sys2Proof.Claims

variable {s t u : State}

/-! ### Bytes (R1) -/

theorem natLe_getElem {n x k : Nat} (h : k < (natLe n x).length) : (natLe n x)[k] = BitVec.ofNat 8 (x / 2 ^ (8 * k)) := by
  induction n generalizing x k with
  | zero => exact absurd h (Nat.not_lt_zero k)
  | succ n ih =>
    cases k with
    | zero => simp [natLe]
    | succ k =>
      have hx : x / 256 / 2 ^ (8 * k) = x / 2 ^ (8 * (k + 1)) := by rw [Nat.div_div_eq_div_mul, Nat.mul_add, Nat.pow_add, Nat.mul_comm]
      rw [← hx]
      exact ih _

theorem byteOf_eq (v : Word) (k : Nat) : byteOf v k = BitVec.ofNat 8 (v.toNat / 2 ^ (8 * k)) := by
  apply BitVec.eq_of_toNat_eq
  simp [byteOf, Nat.shiftRight_eq_div_pow]

theorem leNat_lt (bs : List Byte) : leNat bs < 2 ^ (8 * bs.length) := by
  induction bs with
  | nil => exact Nat.one_pos
  | cons b bs ih =>
    have hb := b.isLt
    rw [leNat, List.length_cons, Nat.mul_add, Nat.pow_add]
    omega

/-! ### A range of a table written -/

theorem tabSorted_set {α : Type} [DecidableEq α] {d : α} {t : Tab α} (h : tabSorted t = true) (n : Nat) (x : α) : tabSorted (tabSet d t n x) = true := by
  unfold tabSet
  split
  · exact tabSorted_erase h n
  · exact tabSorted_insert h n x

theorem tabSorted_setRange {α : Type} [DecidableEq α] {d : α} {t : Tab α} (h : tabSorted t = true) (a : Nat) (vs : List α) :
    tabSorted (tabSetRange d t a vs) = true := by
  induction vs generalizing t a with
  | nil => exact h
  | cons v vs ih => exact ih (tabSorted_set h a v) (a + 1)

/-- Bytes written to a table stand there, and no other byte has changed. -/
theorem storesAt_setRange {old : Memory} (h : tabSorted old = true) (a : Nat) {bs : List Byte} {n : Nat} {f : Nat → Byte} (hn : bs.length = n)
    (hf : ∀ k (hk : k < bs.length), bs[k] = f k) : storesAt old (tabSetRange 0 old a bs) a n f := by
  subst hn
  exact ⟨fun k hk => by rw [tabGet_setRange_in h a bs k hk, hf k hk], fun x hx => tabGet_setRange_out h a bs x hx⟩

/-! ### What writes of memory leave unchanged -/

/-- The cores and the vaults are as they were. -/
structure SameUnits (s t : State) : Prop where
  core : t.core = s.core
  vaults : t.vaults = s.vaults
  others : t.others = s.others

/-- Memory is as it was too. -/
structure SameBytes (s t : State) : Prop extends SameUnits s t where
  mem : t.mem = s.mem

theorem SameUnits.refl (s : State) : SameUnits s s := ⟨rfl, rfl, rfl⟩
theorem SameBytes.refl (s : State) : SameBytes s s := ⟨.refl s, rfl⟩

theorem SameUnits.trans (h : SameUnits s t) (h' : SameUnits t u) : SameUnits s u :=
  ⟨h'.core.trans h.core, h'.vaults.trans h.vaults, h'.others.trans h.others⟩

theorem SameBytes.trans (h : SameBytes s t) (h' : SameBytes t u) : SameBytes s u :=
  ⟨h.toSameUnits.trans h'.toSameUnits, h'.mem.trans h.mem⟩

theorem SameBytes.foldl {α : Type} {f : State → α → State} (h : ∀ s x, SameBytes s (f s x)) (l : List α) (s : State) : SameBytes s (l.foldl f s) := by
  induction l generalizing s with
  | nil => exact .refl s
  | cons x l ih => exact (h s x).trans (ih (f s x))

/-- Fields of the memory system other than its bytes are counted and charged (R388, R417, R420). -/
theorem sameBytes_quarantineBlock (s : State) (b : Nat) : SameBytes s (quarantineBlock s b) := by
  have h := SameBytes.foldl (fun (s : State) (f : Nat) =>
    (⟨⟨rfl, rfl, rfl⟩, rfl⟩ : SameBytes s (dropFrameTranslations
      { setPot s f { potAt s f with state := 4 } with earlier := tabSet 0 s.earlier f ((potAt s f).owner + 256 * (potAt s f).state) } f)))
  exact ⟨⟨(h _ s).core, (h _ s).vaults, (h _ s).others⟩, (h _ s).mem⟩

/-- A line written back moves no byte of the plaintext (log 7). -/
theorem sameBytes_writeBackLine (s : State) (line : Nat) : SameBytes s (writeBackLine s line) := by
  unfold writeBackLine
  split
  · exact .refl s
  · have hq : SameBytes s ((metaErrorAt s (line * 128) 128).elim s fun b => quarantineBlock s b.1) := by
      cases metaErrorAt s (line * 128) 128 with
      | none => exact .refl s
      | some b => exact sameBytes_quarantineBlock s b.1
    dsimp only
    split <;> exact hq.trans ⟨⟨rfl, rfl, rfl⟩, rfl⟩

theorem sameBytes_writeBackRange (s : State) (pa n : Nat) : SameBytes s (writeBackRange s pa n) :=
  SameBytes.foldl (f := fun s (p : Nat × Option LineTag) => writeBackLine s p.1) (fun s p => sameBytes_writeBackLine s p.1) _ s

theorem sameBytes_chargePurse (s : State) (kind inst vd n : Nat) : SameBytes s (chargePurse s kind inst vd n) := ⟨⟨rfl, rfl, rfl⟩, rfl⟩
theorem sameBytes_purses (s : State) (p : Tab Purse) : SameBytes s { s with purses := p } := ⟨⟨rfl, rfl, rfl⟩, rfl⟩
theorem sameBytes_setVd (s : State) (v : Nat) (d : VDev) : SameBytes s (setVd s v d) := ⟨⟨rfl, rfl, rfl⟩, rfl⟩

/-- The arbiters are charged (R388, R391). -/
theorem sameBytes_requestLines {vd die : Nat} (lines : List Nat) : ∀ {r : State}, requestLines r vd die lines = .ok t → SameBytes r t := by
  induction lines with
  | nil => intro r h; cases h; exact .refl _
  | cons l lines ih =>
    intro r h
    unfold requestLines at h
    dsimp only at h
    split at h
    · cases h
    split at h
    · exact (sameBytes_chargePurse ..).trans (ih h)
    split at h
    · cases h
    · exact ((sameBytes_chargePurse ..).trans (sameBytes_purses ..)).trans (ih h)

theorem sameBytes_deviceChecks {a : Accessor} {pa va n : Nat} {stores : Bool} (h : deviceChecks s a pa va n stores = .ok t) : SameBytes s t := by
  unfold deviceChecks at h
  split at h
  · cases h
  split at h
  · cases h
  unfold deviceRequest at h
  dsimp only at h
  split at h
  · cases h
  split at h
  · cases h
  cases h
  split
  · exact sameBytes_chargePurse ..
  · exact (sameBytes_chargePurse ..).trans (sameBytes_chargePurse ..)

/-- A write of memory changes its bytes, and of the machine nothing but what keeps account of memory. -/
theorem sameUnits_physWrite (s : State) (pa : Nat) (bs : List Byte) (tag : LineTag) : SameUnits s (physWrite s pa bs tag) := ⟨rfl, rfl, rfl⟩
theorem physWrite_mem (s : State) (pa : Nat) (bs : List Byte) (tag : LineTag) : (physWrite s pa bs tag).mem = tabSetRange 0 s.mem pa bs := rfl

theorem sameBytes_viewWrite (s : State) (v off n value : Nat) : SameBytes s (viewWrite s v off n value) := by
  have hev (value : Nat) : SameBytes s (writeEvhead s v value) := by
    unfold writeEvhead
    dsimp only
    split
    · exact sameBytes_setVd ..
    · exact .refl s
  unfold viewWrite
  split
  · exact (hev _).trans (sameBytes_setVd ..)
  · exact .refl s

/-! ### The class rule (R277, R406) -/

/-- An entry of a page table written: its eight bytes. -/
theorem writeEntry_mem (s : State) (ctx place e : Nat) :
    SameUnits s (writeEntry s ctx place e) ∧ (writeEntry s ctx place e).mem = tabSetRange 0 s.mem place (natLe 8 e) := by
  have hd : SameBytes s (dropLeafTranslations s place) := ⟨⟨rfl, rfl, rfl⟩, rfl⟩
  exact ⟨hd.toSameUnits.trans (sameUnits_physWrite ..), (physWrite_mem ..).trans (by rw [hd.mem])⟩

/-- A leaf rewritten. -/
theorem makeTiled_mem (s : State) (ctx : Nat) (l : Leaf) :
    SameUnits s (makeTiled s ctx l) ∧ (makeTiled s ctx l).mem = tabSetRange 0 s.mem l.place (natLe 8 (setField l.entry 2 2 2)) := by
  have hb : SameBytes s (if pteAbs l.entry then s else writeBackRange s (pteFrame l.entry * 65536) (if l.large then 2 ^ 29 else 65536)) := by
    split
    · exact .refl s
    · exact sameBytes_writeBackRange ..
  unfold makeTiled
  generalize (if pteAbs l.entry then s else writeBackRange s (pteFrame l.entry * 65536) (if l.large then 2 ^ 29 else 65536)) = b at hb ⊢
  have ht : SameBytes s { b with touched := tabSet none b.touched (leafTouch l) none } := hb.trans ⟨⟨rfl, rfl, rfl⟩, rfl⟩
  obtain ⟨hu, hm⟩ := writeEntry_mem { b with touched := tabSet none b.touched (leafTouch l) none } ctx l.place (setField l.entry 2 2 2)
  exact ⟨ht.toSameUnits.trans hu, by rw [hm, ht.mem]⟩

/-- The leaf of the access is kept, or as a PRIVATE page's rewritten. -/
theorem classRule_mem {a : Accessor} {l : Leaf} {va : Nat} {tiled : Bool} (h : classRule s a l va = .ok (t, tiled)) : SameUnits s t ∧
    (t.mem = s.mem ∨ pteClass l.entry = 0 ∧ t.mem = tabSetRange 0 s.mem l.place (natLe 8 (setField l.entry 2 2 2))) := by
  unfold classRule at h
  split at h
  · cases h; exact ⟨⟨rfl, rfl, rfl⟩, .inl rfl⟩
  next hc =>
  split at h
  · cases h; exact ⟨⟨rfl, rfl, rfl⟩, .inl rfl⟩
  split at h
  · cases h; exact ⟨.refl s, .inl rfl⟩
  unfold reclassify at h
  split at h
  · cases h
  · cases h
    obtain ⟨hu, hm⟩ := makeTiled_mem s a.ctx l
    exact ⟨hu, .inr ⟨not_not.1 hc, hm⟩⟩

theorem keepReclass_ok {α : Type} {l : Leaf} {va : Nat} {was now : Bool} {r : Res α} {x : α} (h : keepReclass l va was now r = .ok x) : r = .ok x := by
  unfold keepReclass at h
  split at h
  · cases h
  · exact h

/-- The checks of an access to a page change memory by the class rule alone. -/
theorem pageChecks_mem {a : Accessor} {l : Leaf} {pa va n : Nat} {reads stores : Bool} (h : pageChecks s a l pa va n reads stores = .ok t) :
    SameUnits s t ∧ (t.mem = s.mem ∨ pteClass l.entry = 0 ∧ t.mem = tabSetRange 0 s.mem l.place (natLe 8 (setField l.entry 2 2 2))) := by
  unfold pageChecks at h
  split at h
  · cases h
  next u tiled hclass =>
  obtain ⟨hunits, hmem⟩ := classRule_mem hclass
  have hrest := keepReclass_ok h
  split at hrest
  · cases hrest
  split at hrest
  · cases hrest
  split at hrest
  · cases hrest
  have hreq := sameBytes_requestLines _ hrest
  refine ⟨hunits.trans hreq.toSameUnits, ?_⟩
  rw [hreq.mem]
  exact hmem

/-- Memory stays sorted, and outside the leaf as it was. -/
theorem pageChecks_frame {a : Accessor} {l : Leaf} {pa va n : Nat} {reads stores : Bool} (hs : tabSorted s.mem = true)
    (h : pageChecks s a l pa va n reads stores = .ok t) :
    SameUnits s t ∧ tabSorted t.mem = true ∧ ∀ x, ¬ leafByte s l va x → tabGet 0 t.mem x = tabGet 0 s.mem x := by
  obtain ⟨hunits, hmem | ⟨hprivate, hmem⟩⟩ := pageChecks_mem h
  · rw [hmem]; exact ⟨hunits, hs, fun _ _ => rfl⟩
  · rw [hmem]
    refine ⟨hunits, tabSorted_setRange hs _ _, fun x hx => tabGet_setRange_out hs _ _ x ?_⟩
    by_contra hin
    rw [natLe_length] at hin
    exact hx ⟨hprivate, l, .inl rfl, by omega, by omega⟩

end Sys2Proof.Proofs
end

section
/-! PROOF. Scalar stores and atomics: the bytes written, and nothing else (R111 to R121, R402, R406). -/

namespace Sys2Proof.Proofs
open Sys2Proof.Machine Sys2Proof.Claims

variable {s : State} {ea : Word} {n : Nat} {bs : List Byte}

/-! ### A scratchpad or a vault written (R113, R126) -/

theorem mem_setAdd {n k : Nat} {l : List Nat} : k ∈ setAdd n l ↔ k = n ∨ k ∈ l := by
  induction l with
  | nil => simp [setAdd]
  | cons x l ih =>
    unfold setAdd
    split_ifs with h1 h2
    · simp [h1]
    · simp
    · simp only [List.mem_cons, ih]; tauto

theorem mem_foldl_setAdd {k : Nat} {xs l : List Nat} (h : k ∈ xs ∨ k ∈ l) : k ∈ xs.foldl (fun l b => setAdd b l) l := by
  induction xs generalizing l with
  | nil => simpa using h
  | cons x xs ih =>
    refine ih ?_
    rw [mem_setAdd]
    rcases h with h | h
    · rcases List.mem_cons.1 h with rfl | h
      · exact .inr (.inl rfl)
      · exact .inl h
    · exact .inr (.inr h)

/-- Bytes written to a scratchpad mark the block of the first of them, among others, dirty. -/
theorem putSpad_eq (c : Core) (off : Nat) (h : 0 < bs.length) :
    ∃ dirty, putSpad c off bs = { c with spad := tabSetRange 0 c.spad off bs, dirty := dirty } ∧ off / 4096 ∈ dirty := by
  have hne : bs.isEmpty = false := List.isEmpty_eq_false_iff.2 (List.ne_nil_of_length_pos h)
  refine ⟨_, by rw [putSpad, hne]; rfl, mem_foldl_setAdd (.inl (mem_upFrom.2 ⟨le_refl _, ?_⟩))⟩
  omega

theorem scalarStore_spad {off : Nat} (hp : placeOf ea = .spad off) (ha : ea.toNat % bs.length = 0) (hok : spadOk s off bs.length = true) :
    scalarStore s ea bs = .ok { s with core := putSpad s.core off bs } := by
  simp [scalarStore, hp, ha, spadStore, hok]

theorem scalarStore_vault {a : Nat} (hp : placeOf ea = .vault a true) (ha : ea.toNat % bs.length = 0) (hok : vaultOk s a bs.length = true) :
    scalarStore s ea bs = .ok { s with vaults := tabSetRange 0 s.vaults a bs } := by
  simp [scalarStore, hp, ha, vaultStore, hok]

theorem scalarStore_virt (ha : ea.toNat % bs.length = 0) (h : ea.toNat / 2 ^ 55 = 0) :
    scalarStore s ea bs = memStore s (curAccessor s) ea.toNat bs := by
  simp [scalarStore, placeOf_virt h, ha]

/-! ### Memory written (R402, R406) -/

variable {a : Accessor} {l : Leaf} {pa va : Nat} {t : State}

theorem memStore_page (ht : translate s a .write va = .ok (.here l pa)) (hc : pteClass l.entry ≠ 3)
    (h : pageChecks s a l pa va bs.length false true = .ok t) : memStore s a va bs = .ok (physWrite t pa bs (tagOf s a pa)) := by
  simp [memStore, ht, hc, h]

theorem memStore_view (ht : translate s a .write va = .ok (.here l pa)) (hc : pteClass l.entry = 3) (hn : bs.length = 4 ∨ bs.length = 8)
    (hv : paTier pa = none) : memStore s a va bs = .ok (viewWrite s (viewAt pa).1 (viewAt pa).2 bs.length (leNat bs)) := by
  have hn' : ¬ (bs.length ≠ 4 ∧ bs.length ≠ 8) := by omega
  simp only [memStore, ht, hc, hv, if_true, if_neg hn', Option.isNone_none]

theorem memStore_device (ht : translate s a .write va = .ok (.here l pa)) (hc : pteClass l.entry = 3) (hn : bs.length = 4 ∨ bs.length = 8)
    (hv : paTier pa ≠ none) (h : deviceChecks s a pa va bs.length true = .ok t) : memStore s a va bs = .ok (writeThrough t pa bs (tagOf t a pa)) := by
  have hn' : ¬ (bs.length ≠ 4 ∧ bs.length ≠ 8) := by omega
  simp only [memStore, ht, hc, Option.isNone_eq_false_iff.2 (Option.isSome_iff_ne_none.2 hv), if_true, if_neg hn', Bool.false_eq_true, if_false, h]

theorem memAtomic_page (ht : translate s a .atomic va = .ok (.here l pa)) (hc : pteClass l.entry ≠ 3)
    (h : pageChecks s a l pa va n true true = .ok t) : memAtomic s a va n = .ok (t, pa, leNat (physBytes t pa n)) := by
  simp [memAtomic, ht, hc, h]

/-- A write past the L2 leaves the bytes that it writes (R406). -/
theorem writeThrough_mem (s : State) (pa : Nat) (bs : List Byte) (tag : LineTag) :
    SameUnits s (writeThrough s pa bs tag) ∧ (writeThrough s pa bs tag).mem = tabSetRange 0 s.mem pa bs := by
  have hb := sameBytes_writeBackRange (physWrite s pa bs tag) pa bs.length
  exact ⟨(sameUnits_physWrite ..).trans hb.toSameUnits, hb.mem.trans (physWrite_mem ..)⟩

/-! ### Stores (R113) -/

/-- The bytes of a store: those of gd, then those of gd + 1. -/
def storeByte (s : State) (d k : Nat) : Byte := if k < 8 then byteOf (readReg s d) k else byteOf (readReg s (d + 1)) (k - 8)

theorem natLe_storeByte (s : State) (d : Nat) {n k : Nat} (hn : n ≤ 8) (h : k < (natLe n (readReg s d).toNat).length) :
    (natLe n (readReg s d).toNat)[k] = storeByte s d k := by
  have hk : k < n := by rwa [natLe_length] at h
  rw [natLe_getElem, storeByte, if_pos (by omega), byteOf_eq]

theorem natLe_append_storeByte (s : State) (d : Nat) {k : Nat} (h : k < (natLe 8 (readReg s d).toNat ++ natLe 8 (readReg s (d + 1)).toNat).length) :
    (natLe 8 (readReg s d).toNat ++ natLe 8 (readReg s (d + 1)).toNat)[k] = storeByte s d k := by
  rw [List.getElem_append]
  split
  · exact natLe_storeByte s d (le_refl 8) _
  · next hk =>
    rw [natLe_length] at hk
    rw [natLe_getElem, natLe_length, storeByte, if_neg hk, byteOf_eq]

/-- Each store is one write of its bytes. -/
theorem exec_store (s : State) (d a : Nat) (imm : Imm) :
    ∀ p ∈ [(Instr.st1 d a imm, 1), (.st2 d a imm, 2), (.st4 d a imm, 4), (.st8 d a imm, 8), (.st16 d a imm, 16)],
      ∃ bs : List Byte, bs.length = p.2 ∧ 0 < p.2 ∧ (∀ k (h : k < bs.length), bs[k] = storeByte s d k) ∧
        exec p.1 s = run s (scalarStore s (readReg s a + BitVec.ofInt 64 imm.val) bs) := by
  simp only [List.forall_mem_cons, List.not_mem_nil, false_imp_iff, implies_true, and_true]
  exact ⟨⟨_, natLe_length .., by decide, fun k h => natLe_storeByte s d (by decide) h, rfl⟩,
    ⟨_, natLe_length .., by decide, fun k h => natLe_storeByte s d (by decide) h, rfl⟩,
    ⟨_, natLe_length .., by decide, fun k h => natLe_storeByte s d (by decide) h, rfl⟩,
    ⟨_, natLe_length .., by decide, fun k h => natLe_storeByte s d (by decide) h, rfl⟩,
    ⟨_, rfl, by decide, fun k h => natLe_append_storeByte s d h, rfl⟩⟩

/-- A write that is made completes its instruction. -/
theorem run_ok {r : Res State} (h : r = .ok t) : run s r = .next (advance t) := by rw [h]; rfl

/-- Settles O17: each store is one write of its bytes (`exec_store`), which the space of its address takes. -/
theorem storeEffects : Obligations.StoreEffects := by
  intro s d a imm ea src p hp n ha hspad hvault hmem
  obtain ⟨bs, hn, hpos, hbytes, hexec⟩ := exec_store s d a imm p hp
  rw [← hn] at hpos
  rw [show n = bs.length from hn.symm] at ha ⊢
  rw [hexec]
  refine ⟨fun h hok => ?scratchpad, fun h hok => ?vault, fun h l pa ht => ⟨fun hc hn hv => ?view, fun hc hn hv t hd => ?device, fun hc t hd => ?page⟩⟩
  case scratchpad =>
    obtain ⟨dirty, hput, hdirty⟩ := putSpad_eq s.core (ea % 2 ^ 55) hpos
    have hstore := scalarStore_spad (placeOf_spad h) ha hok
    exact ⟨_, dirty, run_ok (by rw [hstore, ← hput]), storesAt_setRange hspad _ rfl hbytes, hdirty⟩
  case vault => exact ⟨_, run_ok (scalarStore_vault (placeOf_vault_reached h hok) ha hok), storesAt_setRange hvault _ rfl hbytes⟩
  case view =>
    have hv' := sameBytes_viewWrite s (viewAt pa).1 (viewAt pa).2 bs.length (leNat bs)
    exact ⟨_, run_ok ((scalarStore_virt ha h).trans (memStore_view ht hc hn hv)), hv'.mem, hv'.core, hv'.vaults, hv'.others⟩
  case device =>
    have hs := sameBytes_deviceChecks hd
    obtain ⟨hw, hwmem⟩ := writeThrough_mem t pa bs (tagOf t (curAccessor s) pa)
    have hunits := hs.toSameUnits.trans hw
    refine ⟨_, run_ok ((scalarStore_virt ha h).trans (memStore_device ht hc hn hv hd)), ?_, hunits.core, hunits.vaults, hunits.others⟩
    rw [hwmem, hs.mem]
    exact storesAt_setRange hmem _ rfl hbytes
  case page =>
    obtain ⟨hs, hsorted, hframe⟩ := pageChecks_frame hmem hd
    have hunits := hs.trans (sameUnits_physWrite t pa bs (tagOf s (curAccessor s) pa))
    exact ⟨_, run_ok ((scalarStore_virt ha h).trans (memStore_page ht hc hd)), ⟨hunits.core, hunits.vaults, hunits.others⟩,
      storesAt_setRange hsorted _ rfl hbytes, hframe⟩

/-! ### Atomics (R118 to R121) -/

theorem atomicAt_spad {off : Nat} {f : Nat → Option Nat} (hp : placeOf ea = .spad off) (ha : ea.toNat % n = 0) (hok : spadOk s off n = true)
    (hs : spadSound s off n = true) : atomicAt s ea n f =
      .ok ((f (leNat (spadBytes s off n))).elim s fun v => { s with core := putSpad s.core off (natLe n v) }, leNat (spadBytes s off n)) := by
  simp only [atomicAt, hp, ha, spadLoad_ok hok hs]
  cases f (leNat (spadBytes s off n)) <;> simp [spadStore, natLe_length, hok, Except.map]

theorem atomicAt_vault {a : Nat} {f : Nat → Option Nat} (hp : placeOf ea = .vault a true) (ha : ea.toNat % n = 0) (hok : vaultOk s a n = true)
    (hs : vaultSound s a n = true) : atomicAt s ea n f = .ok ((f (leNat (tabRange 0 s.vaults a n))).elim s fun v =>
      { s with vaults := tabSetRange 0 s.vaults a (natLe n v) }, leNat (tabRange 0 s.vaults a n)) := by
  simp only [atomicAt, hp, ha, vaultLoad_ok hok hs]
  cases f (leNat (tabRange 0 s.vaults a n)) <;> simp [vaultStore, natLe_length, hok, Except.map]

theorem atomicAt_virt {f : Nat → Option Nat} (ha : ea.toNat % n = 0) (h : ea.toNat / 2 ^ 55 = 0) {old : Nat}
    (hm : memAtomic s (curAccessor s) ea.toNat n = .ok (t, pa, old)) :
    atomicAt s ea n f = .ok ((f old).elim t fun v => physWrite t pa (natLe n v) (tagOf t (curAccessor s) pa), old) := by
  simp only [atomicAt, placeOf_virt h, ha, hm]
  cases hf : f old <;> simp [Except.map, hf]

/-- The new value of an AMO on two values of its width (R118). -/
theorem amoValue_eq (op : AmoOp) {n old : Nat} (hn : 0 < n) (hold : old < 2 ^ (8 * n)) (v : Word) :
    amoValue op n old (v.toNat % 2 ^ (8 * n)) = amoNew op n old v := by
  obtain ⟨w, hw⟩ : ∃ w, v.toNat % 2 ^ (8 * n) = w := ⟨_, rfl⟩
  have hlt : w < 2 ^ (8 * n) := by rw [← hw]; exact Nat.mod_lt _ (Nat.two_pow_pos _)
  have hv : v.setWidth (8 * n) = BitVec.ofNat (8 * n) w := by
    apply BitVec.eq_of_toNat_eq
    rw [BitVec.toNat_setWidth, BitVec.toNat_ofNat, hw, Nat.mod_eq_of_lt hlt]
  have h8 : 0 < 8 * n := by omega
  have hx : (BitVec.ofNat (8 * n) old).toNat = old := Nat.mod_eq_of_lt hold
  have hy : (BitVec.ofNat (8 * n) w).toNat = w := Nat.mod_eq_of_lt hlt
  unfold amoNew
  rw [hw, hv]
  cases op with
  | add => simp [amoValue, Nat.add_mod]
  | min => simp only [amoValue, BitVec.slt_iff_toInt_lt, toInt_ofNat_eq_signExt _ h8]; split <;> simp [hx, hy]
  | max => simp only [amoValue, BitVec.slt_iff_toInt_lt, toInt_ofNat_eq_signExt _ h8]; split <;> simp [hx, hy]
  | minn =>
    simp only [amoValue, BitVec.ult_iff_lt, BitVec.lt_def, hx, hy]
    split
    · next h => exact (Nat.min_eq_right h.le).trans hy.symm
    · next h => exact (Nat.min_eq_left (not_lt.1 h)).trans hx.symm
  | maxn =>
    simp only [amoValue, BitVec.ult_iff_lt, BitVec.lt_def, hx, hy]
    split
    · next h => exact (Nat.max_eq_right h.le).trans hy.symm
    · next h => exact (Nat.max_eq_left (not_lt.1 h)).trans hx.symm
  | and => simp [amoValue, hx, hy]
  | or => simp [amoValue, hx, hy]
  | xor => simp [amoValue, hx, hy]
  | xchg => simp [amoValue, hy]

/-- The bytes of a number below `n` are those of its low `n` bytes. -/
theorem ofNat_low_byte (x : Nat) {n k : Nat} (hk : k < n) : BitVec.ofNat 8 (x % 2 ^ (8 * n) / 2 ^ (8 * k)) = BitVec.ofNat 8 (x / 2 ^ (8 * k)) := by
  apply BitVec.eq_of_getLsbD_eq
  intro i hi
  have hin : i + 8 * k < 8 * n := by omega
  simp [BitVec.getLsbD_ofNat, Nat.testBit_div_two_pow, Nat.testBit_mod_two_pow, hin]

/-- The bytes that an atomic stores: the new value of an AMO, or what ACAS brings. -/
def atomicByte (op : AmoOp) (n : Nat) (isAmo : Bool) (v : Word) (old k : Nat) : Byte :=
  if isAmo then BitVec.ofNat 8 (amoNew op n old v / 2 ^ (8 * k)) else byteOf v k

/-- Each atomic is one read-modify-write: what it stores, if anything, by the old value. -/
theorem exec_atomic (s : State) (op : AmoOp) (d a b : Nat) :
    ∀ p ∈ [(Instr.amo4 op d a b, 4, true), (.amo8 op d a b, 8, true), (.acas4 d a b, 4, false), (.acas8 d a b, 8, false)],
      ∃ f : Nat → Option Nat, 0 < p.2.1 ∧
        exec p.1 s = run s ((atomicAt s (readReg s a) p.2.1 f).map fun r => writeNat r.1 d r.2) ∧
        ∀ old < 2 ^ (8 * p.2.1), let writes := p.2.2 = true ∨ old = (readReg s d).toNat % 2 ^ (8 * p.2.1)
          (writes → ∃ v, f old = some v ∧ ∀ k (h : k < (natLe p.2.1 v).length), (natLe p.2.1 v)[k] = atomicByte op p.2.1 p.2.2 (readReg s b) old k) ∧
          (¬ writes → f old = none) := by
  have amos {n : Nat} (hn : 0 < n) (old : Nat) (hold : old < 2 ^ (8 * n)) :
      ∃ v, some (amoValue op n old ((readReg s b).toNat % 2 ^ (8 * n))) = some v ∧
        ∀ k (h : k < (natLe n v).length), (natLe n v)[k] = atomicByte op n true (readReg s b) old k :=
    ⟨_, rfl, fun k h => by rw [natLe_getElem, amoValue_eq op hn hold]; rfl⟩
  have cas {n : Nat} (old k : Nat) (h : k < (natLe n ((readReg s b).toNat % 2 ^ (8 * n))).length) :
      (natLe n ((readReg s b).toNat % 2 ^ (8 * n)))[k] = atomicByte op n false (readReg s b) old k := by
    have hk : k < n := by rwa [natLe_length] at h
    rw [natLe_getElem, atomicByte, if_neg (by decide), byteOf_eq]
    exact ofNat_low_byte _ hk
  simp only [List.forall_mem_cons, List.not_mem_nil, false_imp_iff, implies_true, and_true]
  refine ⟨⟨_, by decide, rfl, fun old hold => ⟨fun _ => amos (by decide) old hold, fun h => absurd (.inl trivial) h⟩⟩,
    ⟨_, by decide, rfl, fun old hold => ⟨fun _ => amos (by decide) old hold, fun h => absurd (.inl trivial) h⟩⟩,
    ⟨_, by decide, rfl, fun old _ => ⟨fun h => ⟨_, if_pos (h.resolve_left (by decide)), cas old⟩, fun h => if_neg fun he => h (.inr he)⟩⟩,
    ⟨_, by decide, rfl, fun old _ => ⟨fun h => ⟨_, if_pos (h.resolve_left (by decide)), cas old⟩, fun h => if_neg fun he => h (.inr he)⟩⟩⟩

theorem leNat_range_lt (n : Nat) (f : Nat → Byte) : leNat ((List.range n).map f) < 2 ^ (8 * n) := by simpa using leNat_lt ((List.range n).map f)

/-- Settles O18: each atomic is one read-modify-write (`exec_atomic`) of the bytes that the space of its address holds. -/
theorem atomicResults : Obligations.AtomicResults := by
  intro s op d a b ea p hp n amo src writes ha hspad hvault hmem
  obtain ⟨f, hn, hexec, hf⟩ := exec_atomic s op d a b p hp
  rw [hexec]
  refine ⟨fun h hok hs => ?scratchpad, fun h hok hs => ?vault, fun h l pa t ht hc hd => ?memory⟩
  case scratchpad =>
    intro old
    have hold : leNat (spadBytes s (ea % 2 ^ 55) n) = old := by rw [spadBytes, tabRange_eq_map]
    have hat : atomicAt s (readReg s a) n f = .ok ((f old).elim s fun v => { s with core := putSpad s.core (ea % 2 ^ 55) (natLe n v) }, old) := by
      rw [← hold]; exact atomicAt_spad (placeOf_spad h) ha hok hs
    obtain ⟨hwrites, hfails⟩ := hf old (leNat_range_lt ..)
    have hrun := run_of_ok (s := s) (fun r : State × Nat => writeNat r.1 d r.2) hat
    refine ⟨_, hrun, fun hw => ?_, fun hw => by rw [hfails hw, Option.elim_none]⟩
    obtain ⟨v, hv, hbytes⟩ := hwrites hw
    obtain ⟨dirty, hput, -⟩ := putSpad_eq s.core (ea % 2 ^ 55) (bs := natLe n v) (by rw [natLe_length]; exact hn)
    exact ⟨_, dirty, by rw [hv, ← hput, Option.elim_some], storesAt_setRange hspad _ (natLe_length ..) hbytes⟩
  case vault =>
    intro old
    have hold : leNat (tabRange 0 s.vaults (ea % 2 ^ 31) n) = old := by rw [tabRange_eq_map]
    have hat : atomicAt s (readReg s a) n f = .ok ((f old).elim s fun v => { s with vaults := tabSetRange 0 s.vaults (ea % 2 ^ 31) (natLe n v) }, old) := by
      rw [← hold]; exact atomicAt_vault (placeOf_vault_reached h hok) ha hok hs
    obtain ⟨hwrites, hfails⟩ := hf old (leNat_range_lt ..)
    have hrun := run_of_ok (s := s) (fun r : State × Nat => writeNat r.1 d r.2) hat
    refine ⟨_, hrun, fun hw => ?_, fun hw => by rw [hfails hw, Option.elim_none]⟩
    obtain ⟨v, hv, hbytes⟩ := hwrites hw
    exact ⟨_, by rw [hv, Option.elim_some], storesAt_setRange hvault _ (natLe_length ..) hbytes⟩
  case memory =>
    intro old
    have hold : leNat (physBytes t pa n) = old := by rw [physBytes, tabRange_eq_map]
    have hat := atomicAt_virt (f := f) ha h (memAtomic_page ht hc hd)
    rw [hold] at hat
    obtain ⟨hwrites, hfails⟩ := hf old (leNat_range_lt ..)
    obtain ⟨hunits, hsorted, hframe⟩ := pageChecks_frame hmem hd
    have hput (v : Nat) : SameUnits s (physWrite t pa (natLe n v) (tagOf t (curAccessor s) pa)) := hunits.trans (sameUnits_physWrite ..)
    have hsame : SameUnits s ((f old).elim t fun v => physWrite t pa (natLe n v) (tagOf t (curAccessor s) pa)) := by
      cases f old with
      | none => exact hunits
      | some v => exact hput v
    have hrun := run_of_ok (s := s) (fun r : State × Nat => writeNat r.1 d r.2) hat
    refine ⟨hunits.core, hunits.vaults, hunits.others, hframe, _, hrun, hsame.core, hsame.vaults, hsame.others, fun hw => ?_,
      fun hw => by rw [hfails hw, Option.elim_none]⟩
    obtain ⟨v, hv, hbytes⟩ := hwrites hw
    rw [hv]
    exact storesAt_setRange hsorted _ (natLe_length ..) hbytes

end Sys2Proof.Proofs
end

section
/-! PROOF. Tests and fences that do not hold, and updates behind an engine (R81, R161, R278, R297 to R299, R313 to R316). -/

namespace Sys2Proof.Proofs
open Sys2Proof.Machine Sys2Proof.Claims

variable {s : State}

/-! ### Tests and fences that wait (R297 to R299, R314, R316) -/

theorem wrapGE_false {a b : BitVec 32} (h : 2 ^ 31 ≤ (a - b).toNat) : wrapGE a b = false := decide_eq_false (not_lt.2 h)

theorem exec_semwait_waits {k a : Nat} {i : Int} (h : wrapGE (semAt s.core k) (semTarget s a i) = false) :
    waitsFor (.semwait k a i) s (.sem k (semTarget s a i)) := if_neg (ne_true_of_eq_false h)

theorem exec_semwaitTake_waits {k : Nat} (h : takeHolds s k = false) : waitsFor (.semwaitTake k) s (.takes [k]) := if_neg (ne_true_of_eq_false h)

theorem exec_pbwait_waits {k a n : Nat} (h : (readReg s a).toNat + n < pbAt s.core k) :
    waitsFor (.pbwait k a n) s (.pb k ((readReg s a).toNat + n)) := if_neg (not_le.2 h)

/-- An engine instruction that a fence waits for: issued before a bound, of the stream or of any, and with more to do than to land. -/
theorem enginesDone_false {c : Core} {of_ : Option StreamName} {bound : Nat} {e : QEntry} (he : e ∈ allQueued c) (hsync : Machine.syncOf e.instr ≠ none)
    (hseq : e.seq < bound) (hland : onlyLanding e = false) (hof : ∀ st, of_ = some st → e.stream = st) : enginesDone c of_ bound = false := by
  rw [enginesDone, List.all_eq_false]
  refine ⟨e, he, ?_⟩
  have hs : (Machine.syncOf e.instr).isNone = false :=
    Option.isNone_eq_false_iff.2 (Option.isSome_iff_ne_none.2 hsync)
  cases of_ with
  | none => simp [hs, hland, hseq]
  | some st => simp [hs, hland, hseq, hof st rfl]

theorem exec_fence_waits {kind : FenceKind} {scope : Scope} (hc : s.cur = .c → kind = .eng)
    (h : enginesDone s.core (if scope = .stream then some s.cur else none) s.core.issued = false) :
    waitsFor (.fence kind scope) s (.engines (decide (scope ≠ .stream)) s.core.issued) := by
  show execFence kind scope s = _
  rw [execFence, if_neg fun hk => hk.2 (hc hk.1), if_neg (ne_true_of_eq_false h)]

/-- A stream in WAIT keeps its PC, its registers and its draws (R81). -/
theorem curStream_waitOn (s : State) (w : Wait) : curStream (waitOn s w) =
    { curStream s with state := .wait, pending := some ⟨w, s.now, bitField (curCtx s).waitctl.toNat 0 6, wordsOf s.words, none⟩ } := curStream_setCur ..

/-! ### Updates of the engine streams (R161, R278, R313) -/

/-- The entry of an update that brings a value. -/
def updateEntry (s : State) (i : Instr) (value : Word) : QEntry := { entryOf s i with hvals := [value], seq := s.core.issued }

theorem updateOrDefer_defers {i : Instr} {value : Word} {now : State} (hc : s.cur ≠ .c) (h : (queueOf s.core (mainEngine s.cur)).length < 16) :
    let eng := mainEngine s.cur
    updateOrDefer s i value now = .next (advance { s with core :=
      { setQueueOf s.core eng (queueOf s.core eng ++ [updateEntry s i value]) with issued := s.core.issued + 1 } }) := by
  have hroom : queueFull s.core (mainEngine s.cur) = false := decide_eq_false (not_le.2 h)
  rw [updateOrDefer, if_neg hc, if_neg (ne_true_of_eq_false hroom)]
  rfl

theorem updateOrDefer_held {i : Instr} {value : Word} {now : State} (hc : s.cur ≠ .c) (h : 16 ≤ (queueOf s.core (mainEngine s.cur)).length) :
    updateOrDefer s i value now = .next { s with held := true } := by
  rw [updateOrDefer, if_neg hc]
  exact if_pos (decide_eq_true h)

theorem semAmount_eq (s : State) (a : Nat) (i : Int) : semAmount s a i = ((readReg s a + BitVec.ofInt 64 i).setWidth 32).setWidth 64 := by
  rw [semAmount]
  generalize readReg s a + BitVec.ofInt 64 i = x
  exact (and_lowMask 32 rfl).trans (BitVec.eq_of_toNat_eq (by simp))

/-- In an engine stream each update is queued with the value that it brings. -/
theorem exec_update {k a n : Nat} {i : Int} (hc : s.cur ≠ .c) :
    ∀ p ∈ [(Instr.semadd k a i, ((readReg s a + BitVec.ofInt 64 i).setWidth 32).setWidth 64),
        (.semset k a i, ((readReg s a + BitVec.ofInt 64 i).setWidth 32).setWidth 64), (.rcommit k a n, BitVec.ofNat 64 (slotCount s a n)),
        (.rrelease k a n, BitVec.ofNat 64 (slotCount s a n)), (.trel a, readReg s a), (.tseal a, readReg s a), (.tsealDet a, readReg s a)],
      ∃ now, exec p.1 s = updateOrDefer s p.1 p.2 now := by
  simp only [List.forall_mem_cons, List.not_mem_nil, false_imp_iff, implies_true, and_true, ← semAmount_eq]
  exact ⟨⟨_, rfl⟩, ⟨_, rfl⟩, ⟨s, if_neg hc⟩, ⟨s, if_neg hc⟩, ⟨s, if_neg hc⟩, ⟨s, if_neg hc⟩, ⟨s, if_neg hc⟩⟩

/-- Settles O20: each test and fence by its condition, and each update by the room of its engine's queue. -/
theorem semaphoreWaits : Obligations.SemaphoreWaits := by
  refine ⟨?tests, ?updates⟩
  case tests =>
    intro s k a n i kind scope e m v draw
    refine ⟨fun h => exec_semwait_waits (wrapGE_false h), fun h => exec_semwaitTake_waits (wrapGE_false h), exec_pbwait_waits,
      fun he hsync hseq hland hof hc => exec_fence_waits hc (enginesDone_false he hsync hseq hland fun st hst => ?_), fun w => ?_⟩
    · split at hst
      · next hscope => rw [hof hscope]; exact Option.some.inj hst
      · cases hst
    · intro t
      rw [show curStream t = _ from curStream_waitOn s w]
      exact ⟨rfl, rfl, rfl, rfl, rfl⟩
  case updates =>
    intro s k a n i hc eng sum count p hp
    have heng : eng = mainEngine s.cur := by rfl
    obtain ⟨now, hexec⟩ := exec_update hc p hp
    rw [hexec, heng]
    exact ⟨fun hroom => ⟨updateEntry s p.1 p.2, updateOrDefer_defers hc hroom, rfl, rfl, rfl, rfl, rfl, rfl⟩, updateOrDefer_held hc⟩

end Sys2Proof.Proofs
end

section
/-! PROOF. The map descriptor of AREL is judged as a map before it is judged by R150 (row 1 of R261), which the issue statement overlooks. -/

namespace Sys2Proof.Proofs
open Sys2Proof.Machine Sys2Proof.Claims

/-- An AREL whose descriptor is no REGION with AMV = 1 faults with SIDE_NO_ADAPTER, of whatever other type it is (R255, row 1 of R261). -/
theorem exec_arel_no_map {s : State} {dd : Nat} {y : Sync} (hroom : (queueOf s.core .matrix).length < 16)
    (htakes : takesHold s.core (curStream s) (takesOf y) = true) (hmap : ¬ ((descAt s dd).type = 1 ∧ (descAt s dd).amv = true)) :
    exec (.arel dd y) s = .next (trapCur s { cause := .sideNoAdapter, esw := 2 ^ 16 }) := by
  have hfull : queueFull s.core .matrix = false := by simp [queueFull]; omega
  have hbad : mapDesc (descAt s dd) = faultOp .sideNoAdapter 1 := if_neg hmap
  show Host.Outcome.next (settle s ((issue s (.arel dd y) _ _ _).map advance)) = _
  unfold issue issueWith
  simp only [hfull, htakes, sampleUses, List.map_cons, List.map_nil, List.headD_cons, Bool.not_true, Bool.false_eq_true, if_false]
  rw [show descOf (tabGet 0 s.core.descs (dd % 32)) = descAt s dd from rfl, hbad]
  rfl

/-- A TENSOR descriptor with AMV = 1. -/
def tensorMap : DescWord := BitVec.ofNat 256 (3 * 2 ^ 61 + 2 ^ 179)

/-- The package with one job, whose X stream executes and whose handler serves every trap below cause 64; d0 holds `tensorMap`. -/
def tensorMapState : State :=
  let s := placeInstr State.reset 0
  { s with cur := .x, ctxs := [(0, { loneContext true with tdel0 := BitVec.allOnes 64 })], core := { s.core with descs := [(0, tensorMap)] } }

/-- Refutes O30: an AREL (or an ARES) whose map descriptor is a TENSOR with AMV = 1 fails the check of R150 with DESC_INVALID, which the statement has
the instruction fault with; row 1 of R261 stands first, and the fault is SIDE_NO_ADAPTER. In `tensorMapState` the two traps leave different records. -/
theorem not_issueStops : ¬ Obligations.IssueStops := by
  unfold Obligations.IssueStops
  intro h
  obtain ⟨-, -, -, -, -, -, -, -, -, -, -, -, -, -, -, -, -, -, -, hmaps, -⟩ :=
    h tensorMapState 0 0 0 0 0 0 0 default default default default default default default default default default false false
  have hclaimed : exec (.arel 0 default) tensorMapState = .next (trapCur tensorMapState { cause := .descInvalid, esw := 2 ^ 16 }) :=
    hmaps (by decide) _ (by simp) (by decide) (fun _ hk => absurd hk List.not_mem_nil) .descInvalid (by decide)
  have hmodel : exec (.arel 0 default) tensorMapState = .next (trapCur tensorMapState { cause := .sideNoAdapter, esw := 2 ^ 16 }) :=
    exec_arel_no_map (by decide) (by decide) (by decide)
  have hsame := Host.Outcome.next.inj (hclaimed.symm.trans hmodel)
  have hcauses : (curStream (trapCur tensorMapState { cause := .descInvalid, esw := 2 ^ 16 })).record.cause ≠
      (curStream (trapCur tensorMapState { cause := .sideNoAdapter, esw := 2 ^ 16 })).record.cause := by decide
  exact hcauses (by rw [hsame])

end Sys2Proof.Proofs
end

section
/-! PROOF. The core whose detector is due is looked for in the table of the other cores, and is then named by its number alone (R318, R319). -/

namespace Sys2Proof.Proofs
open Sys2Proof.Machine Sys2Proof.Claims

/-- The C stream's wait on semaphore 0, which never reaches 1. Its watchdog's period is one cycle. -/
def semWait : Pending := ⟨.sem 0 1, 0, 0, 0, none⟩

/-- A core whose C stream waits on a local condition and whose engine streams are MET: the detector's conditions of R318. -/
def stuckCore : Core :=
  let met : Stream := { Stream.reset with state := .met }
  { Core.reset with job := some 0, c := { Stream.reset with state := .wait, pending := some semWait }, d := met, v := met, x := met }

/-- Core 0 in focus, not yet noted as stuck, and in the table of the other cores a second entry for core 0, noted 1,024 cycles ago. -/
def doubledCore : State :=
  { State.reset with now := 1024, core := stuckCore, others := [(0, { stuckCore with stuckSince := some 0 })], ctxs := [(0, loneContext false)] }

/-- The detector that acts next is the one found in the table of the other cores. -/
theorem pinDue_doubledCore : (pinDue doubledCore).pin = some (.event (.syncDeadlock 0)) := by decide

/-- The core that the step then turns to is the one in focus, whose detector is not due. -/
theorem detectorDue_doubledCore : detectorDue doubledCore (coreAt doubledCore 0) = false := by decide

/-- Refutes O51: the clause on the next step's turn asks for no state in which the table of the other cores leaves out the core in focus. In
`doubledCore` it lists core 0 a second time; the detector of that entry is due and takes the turn for core 0, whose own detector is not due. -/
theorem not_streamEvents : ¬ Obligations.StreamEvents := by
  unfold Obligations.StreamEvents
  intro h
  obtain ⟨-, -, -, hturn, -⟩ := h doubledCore doubledCore 0 0 .c semWait default default
  obtain ⟨n, hn, -, hdue⟩ | ⟨n, q, hwatch, -⟩ := hturn (by decide) ⟨rfl, rfl⟩ (by decide) (by decide) (.inl rfl) rfl
  · have hzero : n = 0 := by simpa [doubledCore, State.reset] using hn
    rw [hzero, detectorDue_doubledCore] at hdue
    cases hdue
  · rw [pinDue_doubledCore] at hwatch
    cases hwatch

end Sys2Proof.Proofs
end

section
/-! PROOF. The link instructions: what their issue checks and charges (R129, R165, R310, R440 to R444). -/

namespace Sys2Proof.Proofs
open Sys2Proof.Machine Sys2Proof.Claims

/-! ### The charge and the checks (R310, R441) -/

/-- The state with `n` bytes charged to the counter of a flow that has one (R310). -/
def charged (s : State) (f : Flow) (n : Nat) : State :=
  if f.fcfg.getLsbD 18 then { s with core := setPb s.core (flowPbk f) (pbAt s.core (flowPbk f) + n) } else s

/-- A charge that the counter can hold is made (R310). -/
theorem chargePb_of_room {s : State} {f : Flow} {n : Nat} (h : f.fcfg.getLsbD 18 = true → pbAt s.core (flowPbk f) + n < 2 ^ 40) :
    chargePb s f n = .ok (charged s f n) := by
  cases hpbe : f.fcfg.getLsbD 18
  · simp only [chargePb, charged, flowPbe, hpbe, Bool.not_false, Bool.false_eq_true, if_false, if_true]
  · have hroom : ¬ pbAt s.core (flowPbk f) + n > 2 ^ 40 - 1 := by have := h hpbe; omega
    simp only [chargePb, charged, flowPbe, hpbe, hroom, Bool.not_true, Bool.false_eq_true, if_false, if_true]

/-- A charge touches a counter, and not the executing stream. -/
theorem curStream_charged (s : State) (f : Flow) (n : Nat) : curStream (charged s f n) = curStream s := by
  unfold charged
  split
  · unfold curStream; cases s.cur <;> rfl
  · rfl

/-- A charge leaves what R165 counts as issued. -/
theorem issued_charged (s : State) (f : Flow) (n : Nat) : (charged s f n).core.issued = s.core.issued := by
  unfold charged; split <;> rfl

/-- A charge leaves the executing stream's name. -/
theorem cur_charged (s : State) (f : Flow) (n : Nat) : (charged s f n).cur = s.cur := by
  unfold charged; split <;> rfl

/-- A job with FLAGS.FABRIC passes the first check of a link instruction (R129). -/
theorem fabricOk_of {s : State} {j : Job} (hjob : curJob s = some j) (hfabric : j.kern.fabric = true) : fabricOk s = .ok () := by
  simp [fabricOk, hjob, hfabric, require]

/-- A REMOTE descriptor of the peer of an OPEN flow passes the check of R441. -/
theorem flowOk_of {f : Flow} {x : Desc} (hopen : flowState f = 1) (hpeer : x.amap = flowPeer f) : flowOk f x = .ok () := by
  simp [flowOk, hopen, hpeer, require]

/-- An unscaled operand that is not packed passes the check of R441. -/
theorem wholeOp_of {x : Desc} {k : Nat} (hscale : x.sfmt = 0) (hpacked : fmtPacked (descFmt x) = false) : wholeOp x k = .ok () := by
  simp [wholeOp, hscale, hpacked]

/-- A descriptor that the checks of R150 accept has one of the accepted types. -/
theorem type_of_checkDesc {x : Desc} {ts : List Nat} {ok : Fmt → Bool} (h : checkDesc x ts ok = none) : x.type ∈ ts := by
  by_contra hx
  simp [checkDesc, hx] at h

/-- Checks that all pass, pass in order. -/
theorem inOrder_ok {rs : List (Res Unit)} (h : ∀ r ∈ rs, r = .ok ()) : inOrder rs = .ok () := by
  induction rs with
  | nil => rfl
  | cons r rs ih =>
    rw [h r List.mem_cons_self]
    exact ih fun r hr => h r (List.mem_cons_of_mem _ hr)

/-- Two steps behind a computation that may stop are one. -/
theorem map_map_res {α β γ : Type} (r : Res α) (f : α → β) (g : β → γ) : (r.map f).map g = r.map fun x => g (f x) := by
  cases r <;> rfl

/-! ### The issue -/

/-- A link instruction whose descriptors and whose flow pass enters the data engine's queue with its charge made (R165, R310, R444). -/
theorem enters_link {s : State} {i : Instr} {k : Nat} {y : Sync} {uses : List (Nat × Nat × Bool)} {hregs : List Nat} {count : List Desc → Nat}
    {bytes : List Desc → Nat → Nat} {descs : List Desc → Res Unit} {checks : Flow → List Desc → Res Unit} {after : State → State} (cnt w : Nat)
    (hexec : exec i s = .next (settle s ((issueLink s i k y uses hregs count bytes descs checks).map after)))
    (hfabric : fabricOk s = .ok ())
    (hcount : count (uses.map fun u => descAt s u.2.1) = cnt)
    (hdescs : descs (uses.map fun u => descAt s u.2.1) = .ok ())
    (hchecks : checks (flowAt s.core k) (uses.map fun u => descAt s u.2.1) = .ok ())
    (hbytes : bytes (uses.map fun u => descAt s u.2.1) (match y.rows with | none => cnt | some r => min (readReg s r).toNat cnt) = w)
    (hroom : (flowAt s.core k).fcfg.getLsbD 18 = true → pbAt s.core (flowPbk (flowAt s.core k)) + w < 2 ^ 40) :
    enters s (charged s (flowAt s.core k) w) i y .data uses hregs cnt .none after := by
  unfold issueLink at hexec
  refine enters_of (sp := { engine := .data, sync := y, uses := uses, hregs := hregs }) cnt hexec hcount ?_ rfl rfl (cur_charged ..)
    (curStream_charged ..) (issued_charged ..)
  rintro n rfl
  have hpass : inOrder [fabricOk s, descs (uses.map fun u => descAt s u.2.1), checks (flowAt s.core k) (uses.map fun u => descAt s u.2.1)] = .ok () := by
    rw [hfabric, hdescs, hchecks]; rfl
  have hcharge := chargePb_of_room hroom
  rw [← hbytes] at hcharge ⊢
  unfold descAt at hpass hcharge ⊢
  simp only [hpass]
  exact hcharge

/-- The issue of an instruction that its stream holds settles as an issue after which the stream waits (R81, R443). -/
theorem issueHeld_map (s : State) (r : Res State) (after : State → State) :
    issueHeld s (r.map after) = .next (settle s (r.map fun t => waitOn (after t) (.result s.core.issued))) := by
  cases r <;> rfl

/-- A DFLOW whose check passes enters the data engine's queue and holds its stream (R443). -/
theorem enters_flow {s : State} {i : Instr} {ha : Nat} {y : Sync} {checks : State → Word → Res Unit} {after : State → State}
    (hexec : exec i s = issueFlow s i ha y checks after) (hfabric : fabricOk s = .ok ()) (hcheck : checks s (readReg s ha) = .ok ()) :
    enters s s i y .data [] [ha] 0 .none (fun t => waitOn (after t) (.result s.core.issued)) := by
  refine enters_of (sp := { engine := .data, sync := y, uses := [], hregs := [ha] }) 0 (hexec.trans (issueHeld_map ..)) rfl ?_ rfl rfl rfl rfl rfl
  intro n _
  show (inOrder [fabricOk s, checks s (readReg s ha)]).map (fun _ => s) = _
  rw [hfabric, hcheck]
  rfl

/-! ### The instructions (R440 to R444) -/

/-- A REMOTE descriptor is one of the peer of an OPEN flow (R441). -/
def reachesPeer (f : Flow) (x : Desc) : Prop := checkDesc x [5] anyFmt = none ∧ flowState f = 1 ∧ x.amap = flowPeer f

/-- An operand is unscaled and not packed (R441). -/
def wholeDesc (x : Desc) : Prop := x.sfmt = 0 ∧ fmtPacked (descFmt x) = false

/-- The valid count of an instruction of `n` elements or rows (R137). -/
def cutTo (s : State) (y : Sync) (n : Nat) : Nat := match y.rows with | none => n | some r => min (readReg s r).toNat n

section
variable {s : State} {k dd da db ha hb : Nat} {y : Sync} {f : Flow} (hfabric : fabricOk s = .ok ()) (hf : flowAt s.core k = f)
include hfabric hf

/-- DPUT on a flow of KIND PLAIN (R440, R441). -/
theorem enters_dput_plain (hkind : flowKind f = 0) (hdb : db = 0) (hd : reachesPeer f (descAt s dd)) (hdw : wholeDesc (descAt s dd))
    (hp : checkDesc (descAt s da) [1, 2, 3] anyFmt = none) (hpw : wholeDesc (descAt s da)) (hn : descN (descAt s dd) = descN (descAt s da))
    (hfmt : (descAt s dd).fmt = (descAt s da).fmt) {w : Nat}
    (hw : cutTo s y (descN (descAt s da)) * elemBytes (descFmt (descAt s da)) = w)
    (hroom : f.fcfg.getLsbD 18 = true → pbAt s.core (flowPbk f) + w < 2 ^ 40) :
    enters s (charged s f w) (.dput k dd da db y) y .data [(1, dd, true), (2, da, false)] [] (descN (descAt s da)) .none advance := by
  subst hf
  have hexec : exec (.dput k dd da db y) s = execDput k dd da db y s := rfl
  simp only [execDput, hkind, ne_eq, not_true_eq_false, if_false, List.append_nil, run] at hexec
  obtain ⟨hdc, hopen, hpeer⟩ := hd
  refine enters_link _ _ hexec hfabric rfl (inOrder_ok ?_) (inOrder_ok ?_) hw hroom
  · simp [needDesc_of_check, remoteType, plainTypes, hdc, hp]
  · simp [flowOk_of hopen hpeer, wholeOp_of hdw.1 hdw.2, wholeOp_of hpw.1 hpw.2, require, needFmt, hdb, hn, hfmt, inOrder]

/-- DPUT on a flow of KIND ROWS or BATCH (R440, R441). -/
theorem enters_dput_rows (hkind : flowKind f ≠ 0) (hd : reachesPeer f (descAt s dd)) (hdw : wholeDesc (descAt s dd))
    (hp : checkDesc (descAt s da) [1, 2, 3] anyFmt = none) (hpw : wholeDesc (descAt s da))
    (hq : checkDesc (descAt s db) [1, 2, 3] anyFmt = none) (hqw : wholeDesc (descAt s db))
    (hslot : descFmt (descAt s db) = .i32 ∨ descFmt (descAt s db) = .n32) (hrows : descRows (descAt s da) = descN (descAt s db))
    (hrow : flowKind f = 1 → rowBytes (descAt s da) ≤ 15360) (hbase : (descAt s dd).base % 64 = 0) {w : Nat}
    (hw : cutTo s y (descRows (descAt s da)) * rowBytes (descAt s da) = w)
    (hroom : f.fcfg.getLsbD 18 = true → pbAt s.core (flowPbk f) + w < 2 ^ 40) :
    enters s (charged s f w) (.dput k dd da db y) y .data [(1, dd, true), (2, da, false), (3, db, false)] [] (descRows (descAt s da)) .none
      advance := by
  subst hf
  have hexec : exec (.dput k dd da db y) s = execDput k dd da db y s := rfl
  simp only [execDput, hkind, ne_eq, not_false_eq_true, if_true, List.cons_append, List.nil_append, run] at hexec
  obtain ⟨hdc, hopen, hpeer⟩ := hd
  have hfit : flowKind (flowAt s.core k) = 1 → ¬ 15360 < rowBytes (descAt s da) := fun h => Nat.not_lt.2 (hrow h)
  have hslots : inOrder [wholeOp (descAt s db) 3, needFmt (slotFmt (descFmt (descAt s db))) 3] = .ok () :=
    inOrder_ok (by rcases hslot with h | h <;> simp [wholeOp_of hqw.1 hqw.2, needFmt, slotFmt, h])
  refine enters_link _ _ hexec hfabric rfl (inOrder_ok ?_) (inOrder_ok ?_) hw hroom
  · simp [needDesc_of_check, remoteType, plainTypes, hdc, hp, hq]
  · simp [flowOk_of hopen hpeer, wholeOp_of hdw.1 hdw.2, wholeOp_of hpw.1 hpw.2, hslots, require, hrows, hbase]
    exact fun hbatch hlong => absurd hlong (hfit hbatch)

/-- DGET (R440, R441). -/
theorem enters_dget (hkind : flowKind f = 0) (hd : checkDesc (descAt s dd) [1, 2, 3] anyFmt = none) (hdw : wholeDesc (descAt s dd))
    (hp : reachesPeer f (descAt s da)) (hpw : wholeDesc (descAt s da)) (hn : descN (descAt s dd) = descN (descAt s da))
    (hfmt : (descAt s dd).fmt = (descAt s da).fmt) {w : Nat}
    (hw : cutTo s y (descN (descAt s dd)) * elemBytes (descFmt (descAt s dd)) = w)
    (hroom : f.fcfg.getLsbD 18 = true → pbAt s.core (flowPbk f) + w < 2 ^ 40) :
    enters s (charged s f w) (.dget k dd da y) y .data [(1, dd, true), (2, da, false)] [] (descN (descAt s dd)) .none advance := by
  subst hf
  have hexec : exec (.dget k dd da y) s = execDget k dd da y s := rfl
  obtain ⟨hpc, hopen, hpeer⟩ := hp
  refine enters_link _ _ hexec hfabric rfl (inOrder_ok ?_) (inOrder_ok ?_) hw hroom
  · simp [needDesc_of_check, remoteType, plainTypes, hd, hpc]
  · simp [flowOk_of hopen hpeer, wholeOp_of hdw.1 hdw.2, wholeOp_of hpw.1 hpw.2, require, needFmt, hkind, hn, hfmt]

/-- DFADD and DFCAS (R440, R441). -/
theorem enters_atomic {i : Instr} (hi : exec i s = issueAtomic s i k dd da db y) (hd : checkDesc (descAt s dd) [1, 2, 3] anyFmt = none)
    (hdw : wholeDesc (descAt s dd)) (hp : reachesPeer f (descAt s da)) (hpw : wholeDesc (descAt s da))
    (hq : checkDesc (descAt s db) [1, 2, 3] anyFmt = none) (hqw : wholeDesc (descAt s db)) (hint : atomicFmt (descFmt (descAt s dd)) = true)
    (hpfmt : (descAt s da).fmt = (descAt s dd).fmt) (hqfmt : (descAt s db).fmt = (descAt s dd).fmt) (hpn : descN (descAt s da) = descN (descAt s dd))
    (hqn : descN (descAt s db) = descN (descAt s dd)) (hmost : descN (descAt s dd) ≤ 256) (hclear : overlaps (descAt s db) (descAt s dd) = false)
    {w : Nat} (hw : cutTo s y (descN (descAt s dd)) * elemBytes (descFmt (descAt s dd)) = w)
    (hroom : f.fcfg.getLsbD 18 = true → pbAt s.core (flowPbk f) + w < 2 ^ 40) :
    enters s (charged s f w) i y .data [(1, dd, true), (2, da, false), (3, db, false)] [] (descN (descAt s dd)) .none advance := by
  subst hf
  obtain ⟨hpc, hopen, hpeer⟩ := hp
  refine enters_link _ _ hi hfabric rfl (inOrder_ok ?_) (inOrder_ok ?_) hw hroom
  · simp [needDesc_of_check, remoteType, plainTypes, hd, hpc, hq]
  · simp [flowOk_of hopen hpeer, wholeOp_of hdw.1 hdw.2, wholeOp_of hpw.1 hpw.2, wholeOp_of hqw.1 hqw.2, require, needFmt, hint, hpfmt, hqfmt, hpn, hqn,
      hmost, noOverlap, hclear]

/-- DFENCEF, which closes the open frame (R439, R442). -/
theorem enters_dfencef (hp : reachesPeer f (descAt s da)) (hpw : wholeDesc (descAt s da)) (hint : descFmt (descAt s da) = .i64)
    (hone : descN (descAt s da) = 1) (hbase : (descAt s da).base % 8 = 0)
    (hroom : f.fcfg.getLsbD 18 = true → pbAt s.core (flowPbk f) + 8 < 2 ^ 40) :
    enters s (charged s f 8) (.dfencef k da hb y) y .data [(2, da, true)] [hb, (hb + 1) % 16] 1 .none (fun t => advance (closeFrame t k)) := by
  subst hf
  obtain ⟨hpc, hopen, hpeer⟩ := hp
  have hremote : descBase (descAt s da) = (descAt s da).base := by
    have htype := type_of_checkDesc hpc
    simp only [List.mem_singleton] at htype
    simp [descBase, htype]
  have hexec : exec (.dfencef k da hb y) s = execDfencef k da hb y s := rfl
  simp only [execDfencef, run, map_map_res] at hexec
  refine enters_link _ _ hexec hfabric rfl ?_ (inOrder_ok ?_) rfl hroom
  · exact needDesc_of_check hpc
  · simp [flowOk_of hopen hpeer, wholeOp_of hpw.1 hpw.2, require, needFmt, hint, hone, hremote, hbase]

end

/-- Settles O28: each instruction passes its checks, is charged and enters (`enters_link`), and a DFLOW enters and holds its stream (`enters_flow`). -/
theorem linkIssues : Obligations.LinkIssues := by
  unfold Obligations.LinkIssues
  intro s k dd da db hd ha hb y j hjob hfab
  have hfabric := fabricOk_of hjob hfab
  refine ⟨fun hd hdw hp hpw => ⟨fun hkind hdb hn hfmt => ?_, fun hkind hq hqw hslot hrows hrow hbase => ?_⟩,
    fun hd hdw hp hpw => ⟨fun hkind hn hfmt => ?_, fun hq hqw hint hpfmt hqfmt hpn hqn hmost hclear i hi => ?_⟩,
    fun hp hpw hint hone hbase => ?_, fun hcfg => ?_, ?_, ?_, ?_⟩
  · exact enters_dput_plain hfabric rfl hkind hdb hd hdw hp hpw hn hfmt rfl
  · exact enters_dput_rows hfabric rfl hkind hd hdw hp hpw hq hqw hslot hrows hrow hbase rfl
  · exact enters_dget hfabric rfl hkind hd hdw hp hpw hn hfmt rfl
  · have hatomic : atomicFmt (descFmt (descAt s dd)) = true := by rcases hint with h | h | h <;> rw [h] <;> rfl
    have hexec : exec i s = issueAtomic s i k dd da db y := by
      simp only [List.mem_cons, List.not_mem_nil, or_false] at hi
      rcases hi with rfl | rfl <;> rfl
    exact enters_atomic hfabric rfl hexec hd hdw hp hpw hq hqw hatomic hpfmt hqfmt hpn hqn hmost hclear rfl
  · exact enters_dfencef hfabric rfl hp hpw hint hone hbase
  · have hcheck : require (fcfgOk s (readReg s ha)) .flowError = .ok () := by rw [hcfg]; rfl
    exact enters_flow (checks := fun s w => require (fcfgOk s w) .flowError) (after := id) rfl hfabric hcheck
  · exact enters_flow (checks := fun _ _ => .ok ()) (after := fun t => closeFrame t k) rfl hfabric rfl
  · exact enters_flow (checks := fun _ _ => .ok ()) (after := id) rfl hfabric rfl
  · exact enters_flow (checks := fun _ _ => .ok ()) (after := id) rfl hfabric rfl

end Sys2Proof.Proofs
end

section
/-! PROOF. Records, completions and events of the queues (R341 to R348). -/

namespace Sys2Proof.Proofs
open Sys2Proof.Machine Sys2Proof.Claims

/-! ### Records (R341) -/

/-- A queue whose records are read: its virtual device runs, its earlier records have been settled, and it is resident and enabled (R341). -/
def readsRecords (s : State) (v q : Nat) : Prop :=
  (vdAt s v).paused = false ∧ (vdAt s v).stopped = false ∧ inReset s v = false ∧ settleReading s v q = s ∧ (queueAt s v q).resident = true ∧
    (queueAt s v q).qctl.getLsbD 6 = true

/-- The place of the next record in its ring (R337). -/
def recordSlot (s : State) (v q : Nat) : Nat :=
  let x := queueAt s v q
  x.qbase.toNat + 64 * (x.prog % 2 ^ qlog x)

section
variable {s : State} {v q k : Nat} {bs : List Byte} (hreads : readsRecords s v q)
include hreads

/-- RECORD_READ of such a queue comes to its next record. -/
theorem exec_recordRead : exec (.recordRead v q) s = .next (readRecord s v q) := by
  obtain ⟨hpaused, hstopped, hreset, hsettled, -⟩ := hreads
  show Host.Outcome.next (if _ then s else readRecord (settleReading s v q) v q) = _
  simp [hpaused, hstopped, hreset, hsettled]

/-- A ring whose records have all been read is left alone. -/
theorem recordRead_empty (h : (queueAt s v q).tail = (queueAt s v q).prog) : exec (.recordRead v q) s = .next s := by
  rw [exec_recordRead hreads]
  simp [readRecord, h]

/-- The next record of a queue is read through the queue's context. -/
theorem recordRead_some (h : (queueAt s v q).tail ≠ (queueAt s v q).prog) (hctx : queueContext s v q = some k)
    (hload : agentLoad s k (recordSlot s v q) 2 64 = .ok (.ok bs)) : exec (.recordRead v q) s = .next (takeRecord s v q (recordOf bs)) := by
  rw [exec_recordRead hreads]
  obtain ⟨-, -, -, -, hres, hen⟩ := hreads
  unfold recordSlot at hload
  simp only [readRecord, hres, hen, h, hctx, hload, Bool.not_true, Bool.or_self, decide_false, Bool.false_eq_true, if_false]

/-- The record of a queue without a context is read all the same (log 30). -/
theorem recordRead_none (h : (queueAt s v q).tail ≠ (queueAt s v q).prog) (hctx : queueContext s v q = none) :
    exec (.recordRead v q) s = .next (takeRecord s v q { recordOf [] with user := (Config.fetchUser s.tick).toNat }) := by
  rw [exec_recordRead hreads]
  obtain ⟨-, -, -, -, hres, hen⟩ := hreads
  simp only [readRecord, hres, hen, h, hctx, Bool.not_true, Bool.or_self, decide_false, Bool.false_eq_true, if_false]

/-- A slot that cannot be read stops the queue's fetches. -/
theorem recordRead_trap {t : TrapInfo} (h : (queueAt s v q).tail ≠ (queueAt s v q).prog) (hctx : queueContext s v q = some k)
    (hload : agentLoad s k (recordSlot s v q) 2 64 = .error (.trap t)) :
    exec (.recordRead v q) s = .next (fetchFailed (standHw s t.hw) v q (causeCode t.cause)) := by
  rw [exec_recordRead hreads]
  obtain ⟨-, -, -, -, hres, hen⟩ := hreads
  unfold recordSlot at hload
  simp only [readRecord, hres, hen, h, hctx, hload, Bool.not_true, Bool.or_self, decide_false, Bool.false_eq_true, if_false]

end

/-- A record without a context of its queue is refused without its completion word (R341, R342). -/
theorem settleRecord_refused {s : State} {n : Nat} {j : Job} (h : queueContext s j.vd j.queue = none) :
    settleRecord s n j = refuseLaunch s n j false := by
  simp [settleRecord, checkLaunch, h, standHw]

/-- A record that passes its checks is queued, when its job has cores (R128, R130). -/
theorem settleRecord_passed {s : State} {n : Nat} {j : Job} {kern : Kernel} {w : Bool} (h : checkLaunch s j = (.pass kern, w))
    (hsize : jobSize { j with kern := kern, state := .queued, asked := [] } ≠ 0) :
    settleRecord s n j = setJob s n { j with kern := kern, state := .queued, asked := [] } := by
  simp only [settleRecord, h, hsize, if_false]

/-! ### Completions and events (R135, R345 to R347) -/

/-- A completion word is incremented through its queue's context, and the completion is posted (R135). -/
theorem exec_completionWord {s u : State} {n k cause pa old : Nat} {j : Job} (hjob : jobAt s n = some j) (hend : j.ending = some cause)
    (hctx : wordContext s j = some k) (hhere : ∀ l, translate s ⟨k, false, none, vdHome s j.vd⟩ .atomic j.rcd.csem ≠ .ok (.absent l))
    (hmem : memAtomic s ⟨k, false, none, vdHome s j.vd⟩ j.rcd.csem 4 = .ok (u, pa, old)) :
    exec (.completionWordIncrement n) s =
      .next (completeJob (physWrite u pa (natLe 4 (old + 1)) (tagOf u ⟨k, false, none, vdHome s j.vd⟩ pa)) n j 0) := by
  show execCompletionWordIncrement n s = _
  unfold execCompletionWordIncrement
  simp only [hjob, hend, hctx, Option.isNone_some, Bool.false_eq_true, if_false]
  rcases hword : translate s ⟨k, false, none, vdHome s j.vd⟩ .atomic j.rcd.csem with stop | leaf | leaf
  · simp only [hmem]
  · exact absurd hword (hhere leaf)
  · simp only [hmem]

/-- The completion of a job whose word has been incremented carries its cause, but for one that has retired. -/
theorem completeJob_eq {s : State} {n cause : Nat} {j : Job} (hend : j.ending = some cause) :
    completeJob s n j 0 = postCompletion (setJob s n { j with ending := none }) j (statusOf j.state) (if j.state = .retired then 0 else cause) := by
  simp [completeJob, hend]

/-- An event of before a reset of the queue's registers is dropped (R348). -/
theorem exec_eventWrite_stale {s : State} {v : Nat} {e : HeldEvent} {rest : List HeldEvent} (hheld : (vdAt s v).held = e :: rest)
    (hgen : e.rgen ≠ (vdAt s v).rgen) : exec (.eventWrite v) s = .next (setVd s v { vdAt s v with held := rest }) := by
  show Host.Outcome.next (writeEvent s v).1 = _
  simp [writeEvent, hheld, hgen]

/-- The next event is written to its ring, and announced by its vector where it is not masked (R346, R347). -/
theorem exec_eventWrite {s : State} {v k pa : Nat} {e : HeldEvent} {rest : List HeldEvent} {l : Leaf} (hheld : (vdAt s v).held = e :: rest)
    (hgen : e.rgen = (vdAt s v).rgen) (hsched : (vdAt s v).scheduled = true) (hpaused : (vdAt s v).paused = false) (hreset : inReset s v = false)
    (hroom : ((vdAt s v).evtail + 2 ^ 32 - (vdAt s v).evhead) % 2 ^ 32 < 2 ^ bitField (vdAt s v).evctl.toNat 0 5) (hctx : firstContext s v = some k)
    {va : Nat} (hva : va = (vdAt s v).evbase.toNat + 16 * ((vdAt s v).evtail % 2 ^ bitField (vdAt s v).evctl.toNat 0 5))
    (hhere : translate s ⟨k, false, none, vdHome s v⟩ .write va = .ok (.here l pa)) (htier : (paTier pa).isSome = true)
    (htag : checkTag s pa 16 (ctxAt s k).world va false = .ok ()) (herrors : storeErrors s pa 16 va = .ok ()) {w : State}
    (hw : w = setVd (physWrite s pa (eventBytes (vdAt s v) e) (tagOf s ⟨k, false, none, vdHome s v⟩ pa)) v
      { vdAt s v with held := rest, evtail := ((vdAt s v).evtail + 1) % 2 ^ 32 }) :
    exec (.eventWrite v) s = .next (if (vdAt s v).evctl.getLsbD 5 then w else sendMsix w v 0) := by
  show Host.Outcome.next (writeEvent s v).1 = _
  subst hva hw
  have hgo : (!(vdAt s v).scheduled || (vdAt s v).paused || inReset s v ||
      decide (2 ^ bitField (vdAt s v).evctl.toNat 0 5 ≤ ((vdAt s v).evtail + 2 ^ 32 - (vdAt s v).evhead) % 2 ^ 32)) = false := by
    simpa [hsched, hpaused, hreset] using hroom
  have hmapped : (paTier pa).isNone = false := by simpa using htier
  unfold writeEvent
  simp only [hheld, hgen, hgo, hctx, hhere, hmapped, inTurn, htag, herrors, Except.isOk, Except.toBool, ne_eq, not_true_eq_false,
    if_false, Bool.not_true, Bool.or_self, Bool.false_eq_true]

/-! ### The queues of a virtual device (R336 to R339) -/

/-- A virtual device's queues leave the dispatcher (R339). -/
theorem exec_queueSwitchOut {s : State} {v : Nat} (h : (vdAt s v).scheduled = true) :
    exec (.queueSwitchOut v) s = .next (mapQueues (setVd s v { vdAt s v with scheduled := false }) v fun q =>
      { q with resident := false, stale := true, savedProg := q.prog, savedDone := q.done }) := by
  show execQueueSwitchOut v s = _
  unfold execQueueSwitchOut
  simp only [h, Bool.not_true, Bool.false_eq_true, if_false]

/-- A virtual device's queues come to the dispatcher under the record as written (R336, R338). -/
theorem exec_queueSwitchIn {s : State} {v r : Nat} (hr : r = setField (vdAt s v).rcdNew 512 384 (bitField (vdAt s v).rcd 512 384))
    (hsched : (vdAt s v).scheduled = false) (hpaused : (vdAt s v).paused = false) (hreset : inReset s v = false) (hen : bitAt r 31 = true)
    (hv : v < 384) (hroom : scheduledOn s (bitField r 0 6 / 16) < 32) :
    exec (.queueSwitchIn v) s = .next (writeHeld (mapQueues (setVd s v { vdAt s v with scheduled := true, rcd := r }) v fun q =>
      { q with resident := true, stale := false }) v) := by
  have hgo : ((vdAt s v).scheduled || (vdAt s v).paused || inReset s v || !bitAt r 31 || decide (384 ≤ v) ||
      decide (32 ≤ scheduledOn s (bitField r 0 6 / 16))) = false := by
    simpa [hsched, hpaused, hreset, hen, hv] using hroom
  show execQueueSwitchIn v s = _
  unfold execQueueSwitchIn
  dsimp only
  rw [← hr]
  simp only [hgo, Bool.false_eq_true, if_false]

end Sys2Proof.Proofs
end

section
/-! PROOF. Jobs chosen, placed and started (R127, R128, R132, R343, R344). -/

namespace Sys2Proof.Proofs
open Sys2Proof.Machine Sys2Proof.Claims

/-! ### The choice (R343, R344) -/

/-- The job of a dispatcher none of whose choices waits is its first choice, and it can be placed. -/
theorem choices_of_chosen {s : State} {die n : Nat} {j : Job} (hwait : waitingJobs s die = []) (h : chosenJob s die = some (n, j)) :
    placeable s j = true ∧ ∃ more, choices s die = (n, j) :: more := by
  unfold chosenJob at h
  have hfits := List.find?_some h
  refine ⟨hfits, ?_⟩
  rcases hchoices : choices s die with _ | ⟨first, more⟩
  · simp [hchoices] at h
  · have hfirst : placeable s first.2 = true := by
      have := List.filter_eq_nil_iff.1 hwait first (by simp [hchoices])
      simpa using this
    simp only [hchoices, List.find?_cons, hfirst] at h
    exact ⟨more, by rw [Option.some.inj h]⟩

/-- The chosen job is placed next on the cores proposed for it. -/
theorem exec_dispatch_chosen {s : State} {die n k : Nat} {j : Job} {cores : List Nat} (hwait : waitingJobs s die = [])
    (hchosen : chosenJob s die = some (n, j)) (hctx : contextFor s j = some k) (hplace : placeOk s j.vd k j cores = true)
    (hhome : onHome s j cores = true) (hheld : heldFrom s n j cores = false) :
    exec (.dispatch die cores) s = .next { s with pin := some (.event (.jobPlace n cores)) } := by
  obtain ⟨hfits, more, hfirst⟩ := choices_of_chosen hwait hchosen
  show Host.Outcome.next (dispatchOn s die cores) = _
  unfold dispatchOn
  rw [hfirst, List.find?_cons_of_pos (by simp [hfits])]
  simp [hfits, hctx, hplace, hhome, hheld]

/-- Those in the way of a chosen job that waits yield their cores (R344, R362, R393). -/
theorem exec_dispatch_urge {s : State} {die n : Nat} {j : Job} {more : List (Nat × Job)} {cores yield taken : List Nat}
    (hchoices : choices s die = (n, j) :: more) (hwaits : placeable s j = false) (hyield : yielding s j = some (yield, taken)) :
    exec (.dispatch die cores) s =
      .next (taken.foldl revokeUnit (yield.foldl (fun s m => preemptJob s m (effPrio s j = 7)) s)) := by
  show Host.Outcome.next (dispatchOn s die cores) = _
  unfold dispatchOn
  rw [hchoices, List.find?_cons_of_pos (by simp [hyield])]
  simp [hwaits, urge, hyield]

/-- Without a choice, a dispatcher does nothing. -/
theorem exec_dispatch_none {s : State} {die : Nat} {cores : List Nat} (h : choices s die = []) : exec (.dispatch die cores) s = .next s := by
  show Host.Outcome.next (dispatchOn s die cores) = _
  simp [dispatchOn, h]

/-! ### Placement and start (R127, R132) -/

/-- The chosen job starts on the cores it may have, from the images that its queue's context reaches (R128, R342). -/
theorem exec_jobPlace {s : State} {n k o : Nat} {j : Job} {cores : List Nat} {ds bs : List Byte} (hjob : jobAt s n = some j)
    (hctx : contextFor s j = some k) (hchosen : chosenJob s (dispatcherOf s j) = some (n, j)) (hplace : placeOk s j.vd k j cores = true)
    (hhome : onHome s j cores = true) (hheld : heldFrom s n j cores = false) (hqueue : queueContext s j.vd j.queue = some o)
    (himages : readImages s o j = .ok (.ok (ds, bs))) : exec (.jobPlace n cores) s = .next (startJob s n j k cores ds bs) := by
  show Host.Outcome.next (placeChosen s n cores) = _
  simp [placeChosen, placeJob, hjob, hctx, hchosen, hplace, hhome, hheld, hqueue, himages]

/-- Storing bytes in a scratchpad leaves the streams of a core as they were. -/
theorem streamOf_putSpad (c : Core) (off : Nat) (bs : List Byte) (st : StreamName) : streamOf (putSpad c off bs) st = streamOf c st := by
  unfold putSpad
  split
  · rfl
  · cases st <;> rfl

/-- The streams of a core that starts are those of its job (R79, R127). -/
theorem streamOf_startCore (n : Nat) (j : Job) (k rank : Nat) (ds bs : List Byte) (st : StreamName) :
    streamOf (startCore n j k rank ds bs) st = startStream j st := by
  unfold startCore
  rw [streamOf_putSpad]
  cases st <;> rfl

/-- A stream that starts runs from the first word of its code, its stacks empty (R79, R127). -/
theorem startStream_fields (j : Job) (st : StreamName) :
    (startStream j st).state = .run ∧ (startStream j st).pc = 0 ∧ (startStream j st).loops = [] ∧ (startStream j st).rets = [] := by
  cases st <;> simp [startStream, Stream.reset]

/-- A core that starts holds its job, its rank, and nothing in its queues (R127). -/
theorem startCore_fields (n : Nat) (j : Job) (k rank : Nat) (ds bs : List Byte) :
    let c := startCore n j k rank ds bs
    c.job = some n ∧ c.ctx = k ∧ c.jobRank = rank ∧ c.qdata = [] ∧ c.qvec = [] ∧ c.qmat = [] ∧ c.qgrp = [] ∧ c.sems = [] ∧ c.tstat = 0 := by
  unfold startCore putSpad
  split <;> exact ⟨rfl, rfl, rfl, rfl, rfl, rfl, rfl, rfl, rfl⟩

/-- A register of a stream that starts (R79, R127): g1 holds ARGS, g2 of the C stream the kernel object's address, and the others zero. -/
theorem regOf_startStream (j : Job) (st : StreamName) (i : Nat) :
    regOf (startStream j st) i = if i = 1 then j.rcd.args else if i = 2 ∧ st = .c then BitVec.ofNat 64 j.rcd.kobj else 0 := by
  have hargs : tabSorted (tabSet (0 : Word) [] 1 j.rcd.args) = true := tabWf_sorted (tabWf_set (d := 0) rfl 1 _)
  have hread (i : Nat) : tabGet 0 (tabSet (0 : Word) [] 1 j.rcd.args) i = if i = 1 then j.rcd.args else 0 := tabGet_set 0 rfl 1 i _
  rcases eq_or_ne i 0 with rfl | hi
  · simp [regOf]
  · cases st
    case c =>
      have hboth : regOf (startStream j .c) i = tabGet 0 (tabSet 0 (tabSet 0 [] 1 j.rcd.args) 2 (BitVec.ofNat 64 j.rcd.kobj)) i := if_neg hi
      rw [hboth, tabGet_set 0 hargs, hread]
      rcases eq_or_ne i 1 with rfl | h1 <;> simp [*]
    all_goals
      refine (if_neg hi).trans ((hread i).trans ?_)
      simp

end Sys2Proof.Proofs
end

section
/-! PROOF. Jobs stopped and resumed (R134, R362 to R366). -/

namespace Sys2Proof.Proofs
open Sys2Proof.Machine Sys2Proof.Claims

/-! ### Stopping (R134, R362, R363) -/

/-- A job that runs has a record that says so. -/
theorem running_of_jobRuns {s : State} {n : Nat} {j : Job} (hjob : jobAt s n = some j) (h : jobRuns s n = true) : j.state = .running := by
  simp only [jobRuns, hjob, Bool.and_eq_true, decide_eq_true_eq] at h
  exact h.1.1

/-- The checkpoint of a job that runs and is not all met stops its cores and saves it (R363). -/
theorem exec_checkpoint {s : State} {n cause : Nat} {j : Job} (hjob : jobAt s n = some j) (hperm : bitAt j.rcd.perm 1 = true)
    (hruns : jobRuns s n = true) (hmet : retireIfMet s n = s) (hstill : jobRuns (j.cores.foldl settleCore s) n = true) :
    exec (.checkpoint n cause) s = .next (saveJob (j.cores.foldl settleCore s) n j (checkpointReason cause)) := by
  have hrunning := running_of_jobRuns hjob hruns
  show execCheckpoint n cause s = _
  unfold execCheckpoint permCheckpoint checkpointJob
  simp only [hjob, hperm, hruns, hmet, hrunning, hstill, if_true, Bool.not_true, Bool.false_eq_true, if_false, ne_eq, not_true_eq_false]

/-- A job that is saved waits for a resumption with its frames written (R363). -/
theorem saveJob_ok {b u : State} {n why : Nat} {j : Job}
    (h : ((writeFrames b j.ctx n why (j.cores.map fun c => savedCore (coreAt b c))).bind fun f =>
      saveVaults f j.ctx n why (vaultSaveVa (ctxAt f j.ctx)) (lentVaults f j.cores)) = .ok u) :
    saveJob b n j why = setJob (setCtx (freeCores u j.cores) j.ctx { ctxAt (freeCores u j.cores) j.ctx with state := .saved }) n
      { j with state := .saved, cores := [], image := j.cores.map fun c => savedCore (coreAt b c), drainAt := none,
               lent := (lentVaults u j.cores).length, savedAt := some ((freeCores u j.cores).now, j.cores) } := by
  unfold saveJob
  simp only [h]
  rfl

/-- A job whose save region cannot be written is killed (R363; log 25). -/
theorem saveJob_error {b u : State} {n why : Nat} {j : Job}
    (h : ((writeFrames b j.ctx n why (j.cores.map fun c => savedCore (coreAt b c))).bind fun f =>
      saveVaults f j.ctx n why (vaultSaveVa (ctxAt f j.ctx)) (lentVaults f j.cores)) = .error u) :
    saveJob b n j why = killJob u n why := by
  unfold saveJob
  simp only [h]

/-- A job that has not been placed is killed without end actions (R134). -/
theorem exec_kill_unplaced {s : State} {n cause : Nat} {j : Job} (hjob : jobAt s n = some j) (hcause : cause < 96)
    (hstate : j.state = .queued ∨ j.state = .reading) : exec (.kill n cause) s = .next (finishAs s n j .killed cause) := by
  show Host.Outcome.next (if cause < 96 then killJob (retireIfMet s n) n cause else s) = _
  rw [if_pos hcause]
  rcases hstate with h | h <;> simp [retireIfMet, killJob, killJobFor, hjob, h, finishJob]

/-- A job that is not all met is killed (R134, R136). -/
theorem exec_kill {s : State} {n cause : Nat} (hcause : cause < 96) (hmet : retireIfMet s n = s) :
    exec (.kill n cause) s = .next (killJob s n cause) := by
  show Host.Outcome.next (if cause < 96 then killJob (retireIfMet s n) n cause else s) = _
  rw [if_pos hcause, hmet]

/-- A pre-empted job is let drain when it permits that and little of its estimate is left (R362). -/
def drainsOut (j : Job) : Prop := bitAt j.rcd.perm 0 = true ∧ j.rcd.est - j.resident / 1024 ≤ 128

/-- The policy chooses DRAIN first (R362). -/
theorem preemptJob_drain {s : State} {n : Nat} {j : Job} (hjob : jobAt s n = some j) (hruns : jobRuns s n = true) (hdrains : drainsOut j)
    (hfresh : j.drainAt = none) : preemptJob s n false = setJob s n { j with drainAt := some j.resident } := by
  obtain ⟨hperm, hleft⟩ := hdrains
  simp [preemptJob, permDrain, remaining, hjob, hruns, hperm, hleft, hfresh]

/-- Then CHECKPOINT (R362). -/
theorem preemptJob_checkpoint {s : State} {n : Nat} {j : Job} (hjob : jobAt s n = some j) (hruns : jobRuns s n = true) (hdrains : ¬ drainsOut j)
    (hcheck : bitAt j.rcd.perm 1 = true) : preemptJob s n false = checkpointJob s n (causeCode .preemptCheckpoint) := by
  have hnot : (!false && permDrain j && decide (remaining j ≤ 128)) = false := by simpa [drainsOut, permDrain, remaining] using hdrains
  simp only [preemptJob, hjob, hruns, hnot, permCheckpoint, hcheck, Bool.not_true, Bool.false_eq_true, if_false, if_true]

/-- And KILL last (R362). -/
theorem preemptJob_kill {s : State} {n : Nat} {j : Job} (hjob : jobAt s n = some j) (hruns : jobRuns s n = true) (hdrains : ¬ drainsOut j)
    (hcheck : bitAt j.rcd.perm 1 = false) (hkill : bitAt j.rcd.perm 2 = true) :
    preemptJob s n false = killJob (retireIfMet s n) n (causeCode .preemptKill) := by
  have hnot : (!false && permDrain j && decide (remaining j ≤ 128)) = false := by simpa [drainsOut, permDrain, remaining] using hdrains
  simp only [preemptJob, hjob, hruns, hnot, permCheckpoint, permKill, hcheck, hkill, Bool.not_true, Bool.false_eq_true, if_false, if_true]

/-- The end of a slice for which another virtual device waits pre-empts the job (R362, R386). -/
theorem exec_sliceEnd {s : State} {n : Nat} {j : Job} (hjob : jobAt s n = some j) (hruns : jobRuns s n = true) (hslice : vdField s j.vd 6 16 ≠ 0)
    (hdue : vdField s j.vd 6 16 * 1024 + j.sliceAt ≤ j.resident) (hwait : othersWait s j = true) :
    exec (.sliceEnd n) s = .next (preemptJob s n false) := by
  show execSliceEnd n s = _
  unfold execSliceEnd
  simp [hjob, hruns, hslice, hdue, hwait]

/-- A DRAIN that has lasted 2^17 cycles ends (R362). -/
theorem exec_drainTimeout {s : State} {n old : Nat} {j : Job} (hjob : jobAt s n = some j) (hruns : jobRuns s n = true) (hdrain : j.drainAt = some old)
    (hdue : old + 2 ^ 17 ≤ j.resident) :
    exec (.drainTimeout n) s = .next (if bitAt j.rcd.perm 1 then checkpointJob (setJob s n { j with drainAt := none }) n (causeCode .preemptCheckpoint)
      else if bitAt j.rcd.perm 2 then killJob (retireIfMet (setJob s n { j with drainAt := none }) n) n (causeCode .drainTimeout)
      else setJob s n { j with drainAt := none }) := by
  have hover : drainDue j = true := by simpa [drainDue, hdrain] using hdue
  show Host.Outcome.next (endDrain s n) = _
  unfold endDrain
  simp only [hjob, hruns, hover, permCheckpoint, permKill, Bool.not_true, Bool.or_self, Bool.false_eq_true, if_false]
  rfl

/-! ### Resumption (R366) -/

/-- A SAVED job is resumed where it may stand with as many lent vaults as it was saved with (R344, R363). -/
theorem exec_resume {s : State} {n : Nat} {j : Job} {cores : List Nat} (hjob : jobAt s n = some j) (hsaved : j.state = .saved)
    (hpaused : (vdAt s j.vd).paused = false) (hreset : inReset s j.vd = false) (hen : vdField s j.vd 31 1 = 1) (hheld : heldBack s j.vd cores = false)
    (hplace : placeOk s j.vd j.ctx j cores = true) (hlent : j.lent ≤ (lentVaults (lendUnits s j.vd cores) cores).length) :
    exec (.resume n cores) s = .next ((restoreJob (lendUnits s j.vd cores) n j cores).elim s fun u => cores.foldl returnMargin u) := by
  show Host.Outcome.next (resumeOn s n cores) = _
  simp [resumeOn, mayResume, hjob, hsaved, hpaused, hreset, hen, hheld, hplace, hlent]

/-- Checks of ranks from `a` on, in order, stop at the first that does not pass. -/
theorem inOrder_upFrom_error {f : Nat → Res Unit} {a r n : Nat} {e : Stop} (hr : r < n) (hbefore : ∀ q < r, f (a + q) = .ok ())
    (hstop : f (a + r) = .error e) : inOrder ((upFrom a n).map f) = .error e := by
  induction n generalizing a r with
  | zero => omega
  | succ n ih =>
    simp only [upFrom, List.map_cons]
    cases r with
    | zero => rw [show f a = .error e from hstop]; rfl
    | succ r =>
      rw [show f a = .ok () from hbefore 0 (by omega)]
      refine ih (a := a + 1) (r := r) (by omega) (fun q hq => ?_) ?_
      · rw [show a + 1 + q = a + (q + 1) by omega]; exact hbefore (q + 1) (by omega)
      · rw [show a + 1 + r = a + (r + 1) by omega]; exact hstop

/-- Checks of ranks that all pass, pass in order. -/
theorem inOrder_all {f : Nat → Res Unit} {n : Nat} (h : ∀ r < n, f r = .ok ()) : inOrder ((upFrom 0 n).map f) = .ok () := by
  refine inOrder_ok ?_
  simp only [List.mem_map, mem_upFrom]
  rintro _ ⟨r, ⟨-, hr⟩, rfl⟩
  exact h r (by omega)

/-- A frame that may not be restored yet, or not at all, stops the restoration (R366, R412). -/
theorem jobImage_stops {b : State} {j : Job} {r : Nat} {e : Stop} (hr : r < j.image.length) (hbefore : ∀ q < r, frameSound b j.ctx q = .ok ())
    (hstop : frameSound b j.ctx r = .error e) : jobImage b j = .error e := by
  unfold jobImage
  rw [inOrder_upFrom_error hr (by simpa using hbefore) (by simpa using hstop)]

/-- Frames that may all be restored are read (R366). -/
theorem jobImage_reads {b : State} {j : Job} (h : ∀ r < j.image.length, frameSound b j.ctx r = .ok ()) :
    jobImage b j = readFrames b j.ctx 0 j.image := by
  unfold jobImage
  rw [inOrder_all h]

/-- A restoration for which a migration holds the save region is left for later (R412). -/
theorem restoreJob_busy {b : State} {n : Nat} {j : Job} {cores : List Nat} (himage : jobImage b j = .error .busy) :
    restoreJob b n j cores = none := by
  unfold restoreJob
  simp only [himage, Except.bind]

/-- A frame that cannot be restored kills the job (R366). -/
theorem restoreJob_trap {b : State} {n : Nat} {j : Job} {cores : List Nat} {t : TrapInfo} (himage : jobImage b j = .error (.trap t)) :
    restoreJob b n j cores = some (killJob (standHw b t.hw) n (causeCode .reservedField)) := by
  unfold restoreJob
  simp only [himage, Except.bind]
  rfl

/-- A restored job runs on with the records of the ports merged, unless its context was to be halted (R311, R366, R369). -/
theorem restoreJob_ok {b u : State} {n : Nat} {j : Job} {cores : List Nat} {image : List Core} (himage : jobImage b j = .ok image)
    (hstart : startImage b n j cores image = .ok u) :
    restoreJob b n j cores =
      let x := cores.foldl mergeOn (setCtx u j.ctx { ctxAt b j.ctx with state := .running, haltPending := false })
      some (if (ctxAt b j.ctx).haltPending then agentStatus (haltRunning x j.ctx) else x) := by
  unfold restoreJob
  simp only [himage, Except.bind, hstart]

/-! ### A core from its frame (R364, R366) -/

/-- The frames of a job of one core. -/
theorem readFrames_one {s : State} {k : Nat} {c : Core} {img : Memory} (h : readRegion s k 17 (frameVa (ctxAt s k) 0) 0 (2 ^ 20) = .ok img) :
    readFrames s k 0 [c] = .ok [restoredCore img c] := by
  simp only [readFrames, h, Except.bind, Except.map]

/-- Values set at some keys are read there, and elsewhere what was there before. -/
theorem tabGet_foldl_set {α : Type} [DecidableEq α] {d : α} (ks : List Nat) (f : Nat → α) {t : Tab α} (ht : tabWf d t = true) (i : Nat) :
    tabGet d (ks.foldl (fun t k => tabSet d t k (f k)) t) i = if i ∈ ks then f i else tabGet d t i := by
  induction ks generalizing t with
  | nil => simp
  | cons k ks ih =>
    rw [List.foldl_cons, ih (tabWf_set ht k (f k)), tabGet_set d (tabWf_sorted ht)]
    by_cases hk : i = k <;> simp [hk]

/-- A table read from a frame holds its values. -/
theorem tabGet_frameTab {α : Type} [DecidableEq α] (d : α) {n : Nat} (f : Nat → α) {i : Nat} (hi : i < n) : tabGet d (frameTab d n f) i = f i := by
  unfold frameTab
  rw [tabGet_foldl_set _ f rfl, if_pos (mem_upFrom.2 ⟨by omega, by omega⟩)]

/-- A stream of a core restored from its frame is the stream that the frame holds (R364). -/
theorem streamOf_restoredCore (img : Memory) (c : Core) (st : StreamName) :
    streamOf (restoredCore img c) st = streamFrom img st (streamOf c st) := by
  unfold restoredCore
  cases st <;> simp only [streamOf]

/-- The state of a stream restored from its frame, by its code (R364). -/
theorem streamFrom_state (img : Memory) (st : StreamName) (t : Stream) :
    (frameNat img (0x800 + 0x400 * streamNum st + 8) 8 = 0 → (streamFrom img st t).state = .run) ∧
    (frameNat img (0x800 + 0x400 * streamNum st + 8) 8 = 1 → (streamFrom img st t).state = .met) ∧
    (frameNat img (0x800 + 0x400 * streamNum st + 8) 8 = 2 → (streamFrom img st t).state = .trapped) := by
  refine ⟨fun h => ?_, fun h => ?_, fun h => ?_⟩ <;> simp only [streamFrom, h]

/-- A byte of the form that is not 1 bars the restoration (R366). -/
theorem frameSound_form {s : State} {k : Nat} {a : Byte} (hform : readFrame s k (frameVa (ctxAt s k) 0 + 0x1801) 1 = .ok [a]) (ha : a ≠ 1) :
    frameSound s k 0 = .error (.trap { cause := .reservedField }) := by
  have hbad : require (decide ([a] = [1])) .reservedField = fault .reservedField := by
    rw [decide_eq_false (by simpa using ha)]; rfl
  simp only [frameSound, hform, Except.bind, hbad, fault, inTurn]

/-- A directory that cannot be read bars the restoration (R366). -/
theorem frameSound_directory {s : State} {k : Nat} {e : Stop} (hform : readFrame s k (frameVa (ctxAt s k) 0 + 0x1801) 1 = .ok [1])
    (hdir : readFrame s k (frameVa (ctxAt s k) 0 + 0x34000) 1024 = .error e) : frameSound s k 0 = .error e := by
  simp only [frameSound, hform, hdir, Except.bind]
  simp [inTurn, require]

/-! ### The events of jobs and queues -/

/-- A record taken is settled as a job of its queue that stands for it (R341). -/
theorem takeRecord_settles (s : State) (v q : Nat) (rcd : LaunchRec) :
    ∃ r : Job, r.state = .reading ∧ r.vd = v ∧ r.queue = q ∧ r.index = (queueAt s v q).prog ∧ r.arrival = s.now ∧ r.cores = [] ∧ r.rcd = rcd ∧
      takeRecord s v q rcd = settleRecord { setJob (setQueue s v q { queueAt s v q with prog := ((queueAt s v q).prog + 1) % 2 ^ 32 }) s.nextJob r with
        nextJob := s.nextJob + 1 } s.nextJob r :=
  ⟨_, rfl, rfl, rfl, rfl, rfl, rfl, rfl, rfl⟩

/-- Settles O53: each event does what its model's function does in the case named. -/
theorem jobEvents : Obligations.JobEvents := by
  unfold Obligations.JobEvents
  intro s u v q n k o die cause pa old cores j image bs ds e rest l yield taken more img c st
  refine ⟨?read_empty, ?read_some, ?read_none, ?refused, ?read_trap, ?passed, ?chosen, ?urge, ?idle, ?place, ?start, ?word, ?stale, ?event,
    ?checkpoint, ?resume, ?frame, ?sound, ?restored, ?kill_unplaced, ?kill, ?slice, ?drain, ?switch_out, ?switch_in⟩
  case read_empty => exact fun hreads h => recordRead_empty hreads h
  case read_some =>
    intro hreads h hctx hload
    obtain ⟨r, hstate, hvd, hqueue, hindex, harrival, hcores, hrcd, htaken⟩ := takeRecord_settles s v q (recordOf bs)
    exact ⟨r, hstate, hvd, hqueue, hindex, harrival, hcores, hrcd, by rw [recordRead_some hreads h hctx hload, htaken]⟩
  case read_none =>
    intro hreads h hctx
    obtain ⟨r, hstate, hvd, hqueue, hindex, harrival, hcores, -, htaken⟩ :=
      takeRecord_settles s v q { recordOf [] with user := (Config.fetchUser s.tick).toNat }
    exact ⟨r, hstate, hvd, hqueue, hindex, harrival, hcores, trivial, by rw [recordRead_none hreads h hctx, htaken]⟩
  case refused => exact settleRecord_refused
  case read_trap => exact fun t hreads h hctx hload => recordRead_trap hreads h hctx hload
  case passed => exact fun kern w h hsize => settleRecord_passed h hsize
  case chosen => exact exec_dispatch_chosen
  case urge => exact exec_dispatch_urge
  case idle => exact exec_dispatch_none
  case place => exact exec_jobPlace
  case start =>
    intro rank st
    have hreg := regOf_startStream j st
    obtain ⟨hjob, hctx, hrank, hdata, hvec, hmat, hgrp, hsems, htstat⟩ := startCore_fields n j k rank ds bs
    obtain ⟨hstate, hpc, hloops, hrets⟩ := startStream_fields j st
    simp only [streamOf_startCore]
    refine ⟨hjob, hctx, hrank, hdata, hvec, hmat, hgrp, hsems, htstat, hstate, hpc, hloops, hrets, hreg 1, ?_, fun i h1 h2 => ?_⟩
    · exact (regOf_startStream j .c 2).trans (by simp)
    · rw [hreg, if_neg h1, if_neg (by tauto)]
  case word =>
    intro hjob hend hctx hhere hmem
    rw [exec_completionWord hjob hend hctx hhere hmem, completeJob_eq hend]
  case stale => exact exec_eventWrite_stale
  case event =>
    intro hheld hgen hsched hpaused hreset hroom hctx va hhere htier htag herrors
    exact exec_eventWrite hheld hgen hsched hpaused hreset hroom hctx rfl hhere htier htag herrors rfl
  case checkpoint =>
    intro hjob hperm hruns _ hmet b saved why image hstill
    refine ⟨fun hsaved => ?_, fun hsaved => ?_⟩
    · rw [exec_checkpoint hjob hperm hruns hmet hstill, saveJob_error hsaved]
    · rw [exec_checkpoint hjob hperm hruns hmet hstill, saveJob_ok hsaved]
  case resume =>
    intro hjob hsaved hpaused hreset hen hheld hplace b given ranks hlent
    have hexec := exec_resume hjob hsaved hpaused hreset hen hheld hplace hlent
    refine ⟨fun r t hr hbefore => ⟨fun hbusy => ?_, fun htrap => ?_⟩, ?_⟩
    · rw [hexec, restoreJob_busy (jobImage_stops hr hbefore hbusy)]; rfl
    · exact hexec.trans (by rw [restoreJob_trap (jobImage_stops hr hbefore htrap)]; rfl)
    · intro hsound hread w hvaults x
      have hrestored := restoreJob_ok ((jobImage_reads hsound).trans hread) hvaults
      exact ⟨fun hrun => hexec.trans (by rw [hrestored]; simp only [hrun]; rfl), fun hhalt => hexec.trans (by rw [hrestored]; simp only [hhalt]; rfl)⟩
  case frame => exact readFrames_one
  case sound =>
    intro a b hform
    refine ⟨frameSound_form hform, ?_⟩
    rintro rfl hdir
    exact frameSound_directory hform hdir
  case restored =>
    intro x at_
    have hx : x = streamFrom img st (streamOf c st) := streamOf_restoredCore img c st
    obtain ⟨hrun, hmet, htrapped⟩ := streamFrom_state img st (streamOf c st)
    rw [hx]
    refine ⟨rfl, hrun, hmet, htrapped, fun i hi => ?_, fun i hi => ?_, rfl, rfl⟩
    · exact tabGet_frameTab 0 _ hi
    · exact tabGet_frameTab 0 _ hi
  case kill_unplaced => exact exec_kill_unplaced
  case kill => exact exec_kill
  case slice =>
    intro slice left drains hjob hruns hslice hdue hwait
    have hexec := exec_sliceEnd hjob hruns hslice hdue hwait
    refine ⟨fun hdrains hfresh => ?_, fun hdrains hcheck => ?_, fun hdrains hcheck hkill hmet => ?_⟩
    · rw [hexec, preemptJob_drain hjob hruns hdrains hfresh]
    · rw [hexec, preemptJob_checkpoint hjob hruns hdrains hcheck]
    · rw [hexec, preemptJob_kill hjob hruns hdrains hcheck hkill, hmet]
  case drain =>
    intro b hjob hruns hdrain hdue
    have hexec := exec_drainTimeout hjob hruns hdrain hdue
    refine ⟨fun hcheck => ?_, fun hcheck hkill hmet => ?_, fun hcheck hkill => ?_⟩
    · rw [hexec, if_pos hcheck]
    · rw [hexec, if_neg (by simp [hcheck]), if_pos hkill, hmet]
    · rw [hexec, if_neg (by simp [hcheck]), if_neg (by simp [hkill])]
  case switch_out => exact exec_queueSwitchOut
  case switch_in => 
    intro r hsched hpaused hreset hen hv hroom
    exact exec_queueSwitchIn rfl hsched hpaused hreset hen hv hroom

end Sys2Proof.Proofs
end

section
/-! PROOF. The canonical form of tables, said of the parts of a state, and what keeps it: tables, entries, streams, cores, contexts and jobs (R135,
R226, R311, R326, R364). -/

namespace Sys2Proof.Proofs
open Sys2Proof.Machine Sys2Proof.Claims

/-! ### Tables -/

/-- The keys alone decide whether a table is sorted. -/
theorem tabSorted_map {α β : Type} {t : Tab α} (f : Nat × α → β) (h : tabSorted t = true) : tabSorted (t.map fun p => (p.1, f p)) = true := by
  rw [tabSorted_iff] at h ⊢
  exact List.pairwise_map.2 h

/-- Entries left out keep the keys rising. -/
theorem tabSorted_filter {α : Type} {t : Tab α} (f : Nat × α → Bool) (h : tabSorted t = true) : tabSorted (t.filter f) = true := by
  rw [tabSorted_iff] at h ⊢
  exact h.filter _

/-- Entries changed or left out, each at its key, keep the keys rising. -/
theorem tabSorted_filterMap {α β : Type} {t : Tab α} (f : Nat × α → Option β) (h : tabSorted t = true) :
    tabSorted (t.filterMap fun p => (f p).map fun y => (p.1, y)) = true := by
  rw [tabSorted_iff] at h ⊢
  rw [List.pairwise_filterMap]
  refine h.imp fun {p q} hpq b hb c hc => ?_
  simp only [Option.map_eq_some_iff] at hb hc
  obtain ⟨y, -, rfl⟩ := hb
  obtain ⟨z, -, rfl⟩ := hc
  exact hpq

/-- What the canonical form says of a table. -/
theorem tabWf_iff {α : Type} [DecidableEq α] {d : α} {t : Tab α} : tabWf d t = true ↔ tabSorted t = true ∧ ∀ p ∈ t, p.2 ≠ d := by
  simp [tabWf]

/-- Entries left out keep the canonical form. -/
theorem tabWf_filter {α : Type} [DecidableEq α] {d : α} {t : Tab α} (f : Nat × α → Bool) (h : tabWf d t = true) : tabWf d (t.filter f) = true := by
  rw [tabWf_iff] at h ⊢
  exact ⟨tabSorted_filter f h.1, fun p hp => h.2 p (List.mem_of_mem_filter hp)⟩

/-- Entries changed at their keys keep the canonical form when none of them comes to hold the unlisted value. -/
theorem tabWf_map {α : Type} [DecidableEq α] {d : α} {t : Tab α} (f : Nat × α → α) (h : tabWf d t = true) (hf : ∀ p ∈ t, f p ≠ d) :
    tabWf d (t.map fun p => (p.1, f p)) = true := by
  rw [tabWf_iff] at h ⊢
  refine ⟨tabSorted_map f h.1, ?_⟩
  simp only [List.mem_map]
  rintro _ ⟨p, hp, rfl⟩
  exact hf p hp

/-- A range moved to other keys keeps the canonical form. -/
theorem tabWf_slice {α : Type} [DecidableEq α] {d : α} {t : Tab α} (h : tabWf d t = true) (a n b : Nat) : tabWf d (tabSlice t a n b) = true := by
  rw [tabWf_iff, tabSorted_iff] at h ⊢
  unfold tabSlice
  refine ⟨List.pairwise_map.2 ((h.1.filter _).imp_of_mem fun {p q} hp hq hpq => ?_), ?_⟩
  · simp only [List.mem_filter, Bool.and_eq_true, decide_eq_true_eq] at hp hq
    show p.1 - a + b < q.1 - a + b
    omega
  · simp only [List.mem_map, List.mem_filter]
    rintro _ ⟨p, ⟨hp, -⟩, rfl⟩
    exact h.2 p hp

/-- Writes in a row keep the canonical form. -/
theorem tabWf_foldl {α β : Type} [DecidableEq α] {d : α} {f : Tab α → β → Tab α} (hf : ∀ t x, tabWf d t = true → tabWf d (f t x) = true) (l : List β)
    {t : Tab α} (h : tabWf d t = true) : tabWf d (l.foldl f t) = true := by
  induction l generalizing t with
  | nil => exact h
  | cons x l ih => exact ih (hf t x h)

/-- A table read from a frame is in canonical form. -/
theorem tabWf_frameTab {α : Type} [DecidableEq α] (d : α) (n : Nat) (f : Nat → α) : tabWf d (frameTab d n f) = true :=
  tabWf_foldl (fun _ k h => tabWf_set h k (f k)) _ rfl

/-- What a table lists at a key, it lists. -/
theorem mem_of_tabGet {α : Type} {d x : α} {t : Tab α} {n : Nat} (h : tabGet d t n = x) (hx : x ≠ d) : (n, x) ∈ t := by
  induction t with
  | nil => exact absurd h.symm hx
  | cons p t ih =>
    obtain ⟨k, v⟩ := p
    simp only [tabGet] at h
    split_ifs at h with h1 h2
    · rw [h1, h]; exact List.mem_cons_self
    · exact absurd h.symm hx
    · exact List.mem_cons_of_mem _ (ih h)

/-- The value that a table gives at a key is one that it lists, or the unlisted one. -/
theorem tabGet_cases {α : Type} (d : α) (t : Tab α) (n : Nat) : tabGet d t n = d ∨ (n, tabGet d t n) ∈ t := by
  classical
  by_cases h : tabGet d t n = d
  · exact .inl h
  · exact .inr (mem_of_tabGet rfl h)

/-- What a table lists after a write is the value written, or was listed. -/
theorem mem_tabSet {α : Type} [DecidableEq α] {d : α} {t : Tab α} {n : Nat} {x : α} {p : Nat × α} (h : p ∈ tabSet d t n x) : p = (n, x) ∨ p ∈ t := by
  unfold tabSet at h
  split at h
  · exact .inr (mem_tabErase h)
  · exact mem_tabInsert h

/-! ### Entries and streams -/

/-- The bins that an entry of a queue carries are in canonical form. -/
def entryTidy (e : QEntry) : Prop := ∀ b, e.part = .bins b → tabWf 0 b = true

/-- An entry without bins. -/
theorem entryTidy_of_ne {e : QEntry} (h : ∀ b, e.part ≠ .bins b) : entryTidy e := fun b hb => absurd hb (h b)

/-- An entry with the partial state of another one. -/
theorem entryTidy_of_part {e f : QEntry} (h : entryTidy e) (hp : f.part = e.part) : entryTidy f := fun b hb => h b (hp ▸ hb)

/-- The registers of a stream are in canonical form, and so is what it waits to queue. -/
def streamTidy (t : Stream) : Prop := tabSorted t.regs = true ∧ ∀ p r, t.pending = some p → p.ready = some r → entryTidy r.entry

/-- A stream with registers and a pending wait as before. -/
theorem streamTidy_of_eq {t u : Stream} (h : streamTidy t) (hr : u.regs = t.regs) (hp : u.pending = t.pending) : streamTidy u := by
  unfold streamTidy
  rw [hr, hp]
  exact h

/-- A stream with registers as before, and no pending wait with something to queue. -/
theorem streamTidy_of_regs {t u : Stream} (h : streamTidy t) (hr : u.regs = t.regs) (hp : ∀ p, u.pending = some p → p.ready = none) : streamTidy u := by
  refine ⟨hr ▸ h.1, fun p r hpend hready => ?_⟩
  rw [hp p hpend] at hready
  cases hready

theorem streamTidy_reset : streamTidy Stream.reset := ⟨rfl, fun _ _ h => by cases h⟩

/-- A register written. -/
theorem streamTidy_setRegOf {t : Stream} (h : streamTidy t) (i : Nat) (v : Word) : streamTidy (setRegOf t i v) := by
  unfold setRegOf
  split
  · exact h
  · exact ⟨tabSorted_set h.1 i v, h.2⟩

/-! ### Cores -/

/-- Every entry of a queue is in canonical form. -/
def queueTidy (q : List QEntry) : Prop := ∀ e ∈ q, entryTidy e

theorem queueTidy_nil : queueTidy [] := fun _ he => absurd he List.not_mem_nil

/-- The array state is in canonical form (R226). -/
def arrayTidy (a : ArrayState) : Prop := tabWf 0 a.acc = true ∧ tabWf 0 a.side = true

/-- What the canonical form says of a core, part by part. -/
structure TidyCore (k : Core) : Prop where
  c : streamTidy k.c
  d : streamTidy k.d
  v : streamTidy k.v
  x : streamTidy k.x
  spad : tabWf 0 k.spad = true
  rings : tabSorted k.rings = true
  groups : tabSorted k.groups = true
  flows : tabWf Flow.idle k.flows = true
  arr : arrayTidy k.arr
  qdata : queueTidy k.qdata
  qvec : queueTidy k.qvec
  qmat : queueTidy k.qmat
  qgrp : queueTidy k.qgrp

/-- The canonical form of a core is that of its parts. -/
theorem coreTidy_iff {k : Core} : coreTidy k ↔ TidyCore k := by
  unfold coreTidy
  simp only [List.mem_append, List.mem_filterMap, List.mem_cons, List.not_mem_nil, or_false, forall_eq_or_imp, forall_eq]
  constructor
  · rintro ⟨⟨hc, hd, hv, hx⟩, hspad, hrings, hgroups, hflows, hacc, hside, hentries⟩
    have hpend (t : Stream) (ht : t = k.c ∨ t = k.d ∨ t = k.v ∨ t = k.x) (p : Pending) (r : Ready) (hp : t.pending = some p)
        (hr : p.ready = some r) : entryTidy r.entry :=
      hentries _ (.inr ⟨t, ht, by simp [hp, hr]⟩)
    exact ⟨⟨hc, hpend k.c (by simp)⟩, ⟨hd, hpend k.d (by simp)⟩, ⟨hv, hpend k.v (by simp)⟩, ⟨hx, hpend k.x (by simp)⟩, hspad, hrings, hgroups, hflows,
      ⟨hacc, hside⟩, fun e he => hentries e (by simp [he]), fun e he => hentries e (by simp [he]), fun e he => hentries e (by simp [he]),
      fun e he => hentries e (by simp [he])⟩
  · intro h
    refine ⟨⟨h.c.1, h.d.1, h.v.1, h.x.1⟩, h.spad, h.rings, h.groups, h.flows, h.arr.1, h.arr.2, ?_⟩
    have hpend (t : Stream) (ht : streamTidy t) (e : QEntry) (he : (t.pending.bind (·.ready)).map (·.entry) = some e) : entryTidy e := by
      simp only [Option.map_eq_some_iff, Option.bind_eq_some_iff] at he
      obtain ⟨r, ⟨p, hp, hr⟩, rfl⟩ := he
      exact ht.2 p r hp hr
    rintro e ((((he | he) | he) | he) | ⟨t, rfl | rfl | rfl | rfl, he⟩)
    exacts [h.qdata e he, h.qvec e he, h.qmat e he, h.qgrp e he, hpend _ h.c e he, hpend _ h.d e he, hpend _ h.v e he, hpend _ h.x e he]

/-- A core that holds no job is in canonical form. -/
theorem tidyCore_reset : TidyCore Core.reset :=
  ⟨streamTidy_reset, streamTidy_reset, streamTidy_reset, streamTidy_reset, rfl, rfl, rfl, rfl, ⟨rfl, rfl⟩, queueTidy_nil, queueTidy_nil, queueTidy_nil,
    queueTidy_nil⟩

/-! ### Contexts, jobs and what is held -/

/-- The tables of a context are in canonical form. -/
def ctxTidy (c : Context) : Prop := tabSorted c.tiles = true ∧ tabSorted c.tlb = true

theorem ctxTidy_reset : ctxTidy Context.reset := ⟨rfl, rfl⟩

/-- The saved cores of a job are in canonical form. -/
def jobTidy (j : Job) : Prop := ∀ c ∈ j.image, TidyCore c

/-- A job whose cores are not saved. -/
theorem jobTidy_of_nil {j : Job} (h : j.image = []) : jobTidy j := by simp [jobTidy, h]

/-- The bytes that wait to be written are in canonical form (R412). -/
def heldTidy : HeldStep → Prop
  | .frame _ _ _ img => tabWf 0 img = true
  | _ => True

/-! ### States -/

/-- What the canonical form says of a state, part by part. -/
structure TidyState (s : State) : Prop where
  mem : tabWf 0 s.mem = true
  vaults : tabWf 0 s.vaults = true
  holding : ∀ p ∈ s.holding, heldTidy p.2
  others : tabSorted s.others = true
  ctxs : tabSorted s.ctxs = true
  vds : tabSorted s.vds = true
  health : tabSorted s.health = true
  rxFlows : tabSorted s.rxFlows = true
  att : tabWf 0 s.att = true
  core : TidyCore s.core
  cores : ∀ p ∈ s.others, TidyCore p.2
  jobs : ∀ p ∈ s.jobs, ∀ j, p.2 = some j → jobTidy j
  contexts : ∀ p ∈ s.ctxs, ctxTidy p.2

/-- The canonical form of a state is that of its parts. -/
theorem tidy_iff {s : State} : tidy s ↔ TidyState s := by
  unfold tidy
  constructor
  · rintro ⟨hmem, hvaults, hholding, hothers, hctxs, hvds, hhealth, hrx, hatt, hcore, hcores, hjobs, hcontexts⟩
    refine ⟨hmem, hvaults, ?_, hothers, hctxs, hvds, hhealth, hrx, hatt, coreTidy_iff.1 hcore, fun p hp => coreTidy_iff.1 (hcores p hp), ?_, hcontexts⟩
    · rintro ⟨k, held⟩ hp
      cases held with
      | frame kill va n img => exact hholding kill va n img k hp
      | _ => trivial
    · rintro ⟨n, _⟩ hp j rfl
      exact fun c hc => coreTidy_iff.1 (hjobs j n hp c hc)
  · intro h
    exact ⟨h.mem, h.vaults, fun kill va n img k hp => h.holding _ hp, h.others, h.ctxs, h.vds, h.health, h.rxFlows, h.att, coreTidy_iff.2 h.core,
      fun p hp => coreTidy_iff.2 (h.cores p hp), fun j n hp c hc => coreTidy_iff.2 (h.jobs _ hp j rfl c hc), h.contexts⟩

end Sys2Proof.Proofs
end

section
/-! PROOF. What keeps the canonical form: the parts of a state read and written, and computations that may stop (R17, R81, R135).

There is one lemma for each function of the model on the way from a part of the state to the step, named after the function: `tidy_f` when `f` gives a
state, `tidyCore_f`, `streamTidy_f`, `ctxTidy_f` when it gives such a part, `keeps_f` when it may stop, `quiet_f` when it may stop and writes nothing, and
`outTidy_f` when it gives the outcome of an instruction or an event. -/

namespace Sys2Proof.Proofs
open Sys2Proof.Machine Sys2Proof.Claims

/-- The canonical form of a state, as the conjunction of its parts. -/
theorem tidyState_iff {s : State} :
    TidyState s ↔ tabWf 0 s.mem = true ∧ tabWf 0 s.vaults = true ∧ (∀ p ∈ s.holding, heldTidy p.2) ∧ tabSorted s.others = true ∧
      tabSorted s.ctxs = true ∧ tabSorted s.vds = true ∧ tabSorted s.health = true ∧ tabSorted s.rxFlows = true ∧ tabWf 0 s.att = true ∧
      TidyCore s.core ∧ (∀ p ∈ s.others, TidyCore p.2) ∧ (∀ p ∈ s.jobs, ∀ j, p.2 = some j → jobTidy j) ∧ ∀ p ∈ s.ctxs, ctxTidy p.2 :=
  ⟨fun ⟨h1, h2, h3, h4, h5, h6, h7, h8, h9, h10, h11, h12, h13⟩ => ⟨h1, h2, h3, h4, h5, h6, h7, h8, h9, h10, h11, h12, h13⟩,
    fun ⟨h1, h2, h3, h4, h5, h6, h7, h8, h9, h10, h11, h12, h13⟩ => ⟨h1, h2, h3, h4, h5, h6, h7, h8, h9, h10, h11, h12, h13⟩⟩

/-- The canonical form of a core, as the conjunction of its parts. -/
theorem tidyCore_iff {k : Core} :
    TidyCore k ↔ streamTidy k.c ∧ streamTidy k.d ∧ streamTidy k.v ∧ streamTidy k.x ∧ tabWf 0 k.spad = true ∧ tabSorted k.rings = true ∧
      tabSorted k.groups = true ∧ tabWf Flow.idle k.flows = true ∧ arrayTidy k.arr ∧ queueTidy k.qdata ∧ queueTidy k.qvec ∧ queueTidy k.qmat ∧
      queueTidy k.qgrp :=
  ⟨fun ⟨h1, h2, h3, h4, h5, h6, h7, h8, h9, h10, h11, h12, h13⟩ => ⟨h1, h2, h3, h4, h5, h6, h7, h8, h9, h10, h11, h12, h13⟩,
    fun ⟨h1, h2, h3, h4, h5, h6, h7, h8, h9, h10, h11, h12, h13⟩ => ⟨h1, h2, h3, h4, h5, h6, h7, h8, h9, h10, h11, h12, h13⟩⟩

/-! ### Computations that may stop -/

/-- What an instruction holds when it stops past its issue checks is in canonical form (R165). -/
def stopTidy : Stop → Prop
  | .claim _ r => entryTidy r.entry
  | _ => True

/-- A computation that may stop gives what a predicate accepts, or a stop in canonical form. -/
inductive Keeps {α : Type} (P : α → Prop) : Res α → Prop
  | protected ok {a : α} : P a → Keeps P (.ok a)
  | protected error {e : Stop} : stopTidy e → Keeps P (.error e)

/-- A computation that may stop does so in canonical form. -/
abbrev Quiet {α : Type} (r : Res α) : Prop := Keeps (fun _ => True) r

/-- The next state of an outcome is in canonical form. -/
structure OutTidy (o : Outcome) : Prop where
  next : ∀ s, o = .next s → TidyState s

section
variable {α β : Type} {P Q : α → Prop} {R : β → Prop}

@[simp] theorem keeps_ok {a : α} : Keeps P (.ok a) ↔ P a := ⟨fun | .ok h => h, .ok⟩

@[simp] theorem keeps_error {e : Stop} : Keeps P (.error e : Res α) ↔ stopTidy e := ⟨fun | .error h => h, .error⟩

@[simp] theorem outTidy_next {s : State} : OutTidy (.next s) ↔ TidyState s :=
  ⟨fun h => h.next s rfl, fun h => ⟨fun _ ht => Host.Outcome.next.inj ht ▸ h⟩⟩

@[simp] theorem outTidy_fault (r : Fault) : OutTidy (.fault r) := ⟨fun _ ht => by cases ht⟩

@[simp] theorem outTidy_refused (r : Refusal) : OutTidy (.refused r) := ⟨fun _ ht => by cases ht⟩

theorem Keeps.of_ok {r : Res α} (h : Keeps P r) {a : α} (hr : r = .ok a) : P a := keeps_ok.1 (hr ▸ h)

theorem Keeps.of_error {r : Res α} (h : Keeps P r) {e : Stop} (hr : r = .error e) : stopTidy e := keeps_error.1 (hr ▸ h)

theorem Keeps.mono {r : Res α} (h : Keeps P r) (hpq : ∀ a, P a → Q a) : Keeps Q r := by
  cases h with
  | ok ha => exact .ok (hpq _ ha)
  | error he => exact .error he

theorem Keeps.quiet {r : Res α} (h : Keeps P r) : Quiet r := h.mono fun _ _ => trivial

theorem Keeps.of_quiet {r : Res α} (h : Quiet r) (hP : ∀ a, P a) : Keeps P r := h.mono fun a _ => hP a

/-- Where a computation has stopped, nothing else is to be shown. -/
theorem Keeps.stop {r : Res β} (h : Keeps R r) {e : Stop} (hr : r = .error e) : Keeps P (.error e) := .error (h.of_error hr)

@[simp] theorem quiet_ok (a : α) : Quiet (.ok a) := .ok trivial

theorem keeps_map {r : Res α} {f : α → β} (h : Keeps (fun a => R (f a)) r) : Keeps R (r.map f) := by
  cases h with
  | ok ha => exact .ok ha
  | error he => exact .error he

theorem Keeps.map {r : Res α} {f : α → β} (h : Keeps P r) (hf : ∀ a, P a → R (f a)) : Keeps R (r.map f) := keeps_map (h.mono hf)

theorem keeps_bind {r : Res α} {f : α → Res β} (h : Keeps P r) (hf : ∀ a, P a → Keeps R (f a)) : Keeps R (r.bind f) := by
  cases h with
  | ok ha => exact hf _ ha
  | error he => exact .error he

theorem keeps_ite {c : Prop} [Decidable c] {a b : Res α} (ha : Keeps P a) (hb : Keeps P b) : Keeps P (if c then a else b) := by
  split
  exacts [ha, hb]

theorem keeps_trap (t : TrapInfo) : Keeps P (.error (.trap t)) := .error trivial

theorem keeps_fault (c : Cause) : Keeps P (fault c) := .error trivial

theorem keeps_faultVa (c : Cause) (va : ℕ) : Keeps P (faultVa c va) := .error trivial

theorem keeps_faultOp (c : Cause) (o : ℕ) : Keeps P (faultOp c o) := .error trivial

@[simp] theorem quiet_require (b : Bool) (c : Cause) : Quiet (require b c) := by
  unfold require
  split
  exacts [.ok trivial, keeps_fault c]

theorem keeps_withOperand {n : Nat} {r : Res α} (h : Keeps P r) : Keeps P (withOperand n r) := by
  unfold withOperand
  split
  exacts [keeps_trap _, h]

/-- A fold of steps that keep the canonical form keeps it. -/
theorem foldl_induction {γ δ : Type} {P : γ → Prop} {f : γ → δ → γ} (hf : ∀ s x, P s → P (f s x)) (l : List δ) {s : γ} (h : P s) :
    P (l.foldl f s) := by
  induction l generalizing s with
  | nil => exact h
  | cons x l ih => exact ih (hf s x h)

theorem tidy_foldl {δ : Type} {f : State → δ → State} (l : List δ) {s : State} (h : TidyState s) (hf : ∀ s x, TidyState s → TidyState (f s x)) :
    TidyState (l.foldl f s) := foldl_induction hf l h

end

/-! ### Streams and cores -/

theorem streamTidy_streamOf {k : Core} (h : TidyCore k) (n : StreamName) : streamTidy (streamOf k n) := by
  cases n
  exacts [h.c, h.d, h.v, h.x]

theorem tidyCore_setStream {k : Core} (h : TidyCore k) (n : StreamName) {t : Stream} (ht : streamTidy t) : TidyCore (setStream k n t) := by
  cases n
  exacts [{ h with c := ht }, { h with d := ht }, { h with v := ht }, { h with x := ht }]

theorem streamTidy_curStream {s : State} (h : TidyState s) : streamTidy (curStream s) := streamTidy_streamOf h.core s.cur

theorem tidy_setCur {s : State} (h : TidyState s) {t : Stream} (ht : streamTidy t) : TidyState (setCur s t) :=
  { h with core := tidyCore_setStream h.core s.cur ht }

theorem tidy_writeReg {s : State} (h : TidyState s) (i : Nat) (v : Word) : TidyState (writeReg s i v) :=
  tidy_setCur h (streamTidy_setRegOf (streamTidy_curStream h) i v)

theorem tidy_writeNat {s : State} (h : TidyState s) (i v : Nat) : TidyState (writeNat s i v) := tidy_writeReg h i _

theorem tidyCore_tabGet {t : Tab Core} (h : ∀ p ∈ t, TidyCore p.2) (n : Nat) : TidyCore (tabGet Core.reset t n) := by
  rcases tabGet_cases Core.reset t n with hn | hn
  · rw [hn]; exact tidyCore_reset
  · exact h _ hn

theorem tidyCore_coreAt {s : State} (h : TidyState s) (n : Nat) : TidyCore (coreAt s n) := by
  unfold coreAt
  split
  · exact h.core
  · exact tidyCore_tabGet h.cores n

theorem tidyCore_of_mem_set {t : Tab Core} (h : ∀ p ∈ t, TidyCore p.2) (n : Nat) {c : Core} (hc : TidyCore c) :
    ∀ p ∈ tabSet Core.reset t n c, TidyCore p.2 := by
  intro p hp
  rcases mem_tabSet hp with rfl | hp
  · exact hc
  · exact h p hp

theorem tidy_putCore {s : State} (h : TidyState s) (n : Nat) {c : Core} (hc : TidyCore c) : TidyState (putCore s n c) := by
  unfold putCore
  split
  · exact { h with core := hc }
  · exact { h with others := tabSorted_set h.others n c, cores := tidyCore_of_mem_set h.cores n hc }

theorem tidy_focusOn {s : State} (h : TidyState s) (n : Nat) : TidyState (focusOn s n) := by
  unfold focusOn
  split
  · exact h
  · exact { h with
      core := tidyCore_tabGet h.cores n
      others := tabSorted_set (tabSorted_erase h.others n) _ _
      cores := tidyCore_of_mem_set (fun p hp => h.cores p (mem_tabErase hp)) _ h.core }

/-! ### Contexts, jobs and virtual devices -/

theorem ctxTidy_ctxAt {s : State} (h : TidyState s) (k : Nat) : ctxTidy (ctxAt s k) := by
  rcases tabGet_cases Context.reset s.ctxs k with hk | hk
  · rw [show ctxAt s k = _ from hk]; exact ctxTidy_reset
  · exact h.contexts _ hk

theorem tidy_setCtx {s : State} (h : TidyState s) (k : Nat) {c : Context} (hc : ctxTidy c) : TidyState (setCtx s k c) where
  __ := h
  ctxs := tabSorted_set h.ctxs k c
  contexts p hp := by
    rcases mem_tabSet hp with rfl | hp
    · exact hc
    · exact h.contexts p hp

theorem ctxTidy_curCtx {s : State} (h : TidyState s) : ctxTidy (curCtx s) := ctxTidy_ctxAt h _

theorem tidy_setCurCtx {s : State} (h : TidyState s) {c : Context} (hc : ctxTidy c) : TidyState (setCurCtx s c) := tidy_setCtx h _ hc

theorem jobTidy_of_jobAt {s : State} (h : TidyState s) {n : Nat} {j : Job} (hj : jobAt s n = some j) : jobTidy j :=
  h.jobs _ (mem_of_tabGet hj (by simp)) j rfl

theorem tidy_setJob {s : State} (h : TidyState s) (n : Nat) {j : Job} (hj : jobTidy j) : TidyState (setJob s n j) where
  __ := h
  jobs p hp i hi := by
    have hp' : p ∈ tabSet none s.jobs n (some j) := hp
    rcases mem_tabSet hp' with rfl | hp
    · exact Option.some.inj hi ▸ hj
    · exact h.jobs p hp i hi

theorem tidy_setVd {s : State} (h : TidyState s) (v : Nat) (d : VDev) : TidyState (setVd s v d) := { h with vds := tabSorted_set h.vds v d }

theorem tidy_outbox {s : State} (h : TidyState s) (l : List Message) : TidyState { s with outbox := l } := { h with }

theorem tidy_setPurse {s : State} (h : TidyState s) (kind inst vd : Nat) (p : Purse) : TidyState (setPurse s kind inst vd p) := { h with }

end Sys2Proof.Proofs
end

section
/-! PROOF. Canonical form kept. The accessors of memory: scratchpads and vaults, lines, page ownership, walks and leaves, loads and stores, hardware
errors (R266, R283, R389, R391, R404 to R420). -/

namespace Sys2Proof.Proofs
open Sys2Proof Sys2Proof.Machine Sys2Proof.Claims

/-! ### Scratchpads -/

@[simp] theorem quiet_spadLoad (s : State) (off n : ℕ) : Quiet (spadLoad s off n) := by
  grind [spadLoad, keeps_fault, keeps_ok]

theorem tidyCore_putSpad {c : Core} (off : ℕ) (bs : List Byte) (hc : TidyCore c) : TidyCore (putSpad c off bs) := by
  grind [putSpad, tabWf_setRange, tidyCore_iff]

theorem keeps_spadStore {s : State} (off : ℕ) (bs : List Byte) (hs : TidyState s) : Keeps TidyState (spadStore s off bs) := by
  grind [spadStore, tidyCore_putSpad, keeps_fault, keeps_ok, tidyState_iff]

/-! ### Vaults -/

@[simp] theorem quiet_vaultLoad (s : State) (addr n : ℕ) : Quiet (vaultLoad s addr n) := by
  grind [vaultLoad, keeps_fault, keeps_ok]

theorem keeps_vaultStore {s : State} (addr : ℕ) (bs : List Byte) (hs : TidyState s) : Keeps TidyState (vaultStore s addr bs) := by
  grind [vaultStore, keeps_fault, keeps_ok, tabWf_setRange, tidyState_iff]

/-! ### Counters of lines, leaves and nodes (R416, R417) -/

theorem tidy_stepLines {s : State} (lines : List ℕ) (hs : TidyState s) : TidyState (stepLines s lines) := by
  grind [stepLines, tidyState_iff]

theorem tidy_dirtyLines {s : State} (pa n : ℕ) (tag : LineTag) (hs : TidyState s) : TidyState (dirtyLines s pa n tag) := by
  grind [dirtyLines, tidyState_iff]

theorem tidy_physWrite {s : State} (pa : ℕ) (bs : List Byte) (tag : LineTag) (hs : TidyState s) : TidyState (physWrite s pa bs tag) := by
  grind [physWrite, tidy_dirtyLines, tabWf_setRange, tidyState_iff]

/-! ### Purses (R389, R391) -/

theorem tidy_chargePurse {s : State} (kind inst vd n : ℕ) (hs : TidyState s) : TidyState (chargePurse s kind inst vd n) := by
  grind [chargePurse, tidy_setPurse]

theorem tidy_shortPurse {s : State} (kind inst vd : ℕ) (hs : TidyState s) : TidyState (shortPurse s kind inst vd) := by
  grind [shortPurse, tidy_setPurse]

theorem tidy_shortAccess {s : State} (kind inst vd die : ℕ) (hs : TidyState s) : TidyState (shortAccess s kind inst vd die) := by
  grind [shortAccess, tidy_shortPurse, tidy_setPurse]

theorem tidy_chargeLine {s : State} (vd line : ℕ) (hs : TidyState s) : TidyState (chargeLine s vd line) := by
  grind [chargeLine, tidy_chargePurse]

theorem keeps_requestLines (vd die : ℕ) (ls : List ℕ) {s : State} (hs : TidyState s) : Keeps TidyState (requestLines s vd die ls) := by
  induction ls generalizing s with
  | nil => exact .ok hs
  | cons l ls ih => grind [requestLines, tidy_chargePurse, keeps_error, stopTidy, tidyState_iff]

theorem tidy_setQueue {s : State} (v q : ℕ) (x : Queue) (hs : TidyState s) : TidyState (setQueue s v q x) := by
  grind [setQueue, tidy_setVd]

theorem tidy_writeEvhead {s : State} (v value : ℕ) (hs : TidyState s) : TidyState (writeEvhead s v value) := by
  unfold writeEvhead
  dsimp only
  split
  exacts [tidy_setVd hs v _, hs]

theorem tidy_viewWrite {s : State} (v off n value : ℕ) (hs : TidyState s) : TidyState (viewWrite s v off n value) := by
  grind [viewWrite, tidy_writeEvhead, tidy_setVd]

/-! ### The page ownership table (R407, R408) -/

theorem tidy_setPot {s : State} (frame : ℕ) (e : PotEntry) (hs : TidyState s) : TidyState (setPot s frame e) := by
  grind [setPot, tidyState_iff]

@[simp] theorem quiet_checkPot (s : State) (pa w : ℕ) (readOnly shared : Bool) (va : ℕ) : Quiet (checkPot s pa w readOnly shared va) := by
  grind [checkPot, keeps_faultVa, keeps_ok, keeps_error, stopTidy]

/-! ### Lines and blocks (R409, R416 to R420) -/

@[simp] theorem quiet_accessErrors (s : State) (pa n va : ℕ) : Quiet (accessErrors s pa n va) := by
  grind [accessErrors, keeps_faultVa, keeps_trap, keeps_ok]

@[simp] theorem quiet_readErrors (s : State) (pa n va : ℕ) : Quiet (readErrors s pa n va) := by
  grind [readErrors, quiet_accessErrors, keeps_faultVa, keeps_trap, keeps_ok]

@[simp] theorem quiet_storeErrors (s : State) (pa n va : ℕ) : Quiet (storeErrors s pa n va) := by
  grind [storeErrors, quiet_accessErrors, keeps_trap, keeps_ok]

theorem quiet_inTurn {a b : Res Unit} (ha : Quiet a) (hb : Quiet b) : Quiet (inTurn a b) := by
  cases ha with
  | ok _ => exact hb
  | error he => exact .error he

@[simp] theorem quiet_checkTag (s : State) (pa n w va : ℕ) (reads : Bool) : Quiet (checkTag s pa n w va reads) := by
  grind [checkTag, keeps_trap, keeps_ok]

/-! ### The walk (R404) -/

@[simp] theorem quiet_walkLevel (s : State) (w va t fuel lv : ℕ) : Quiet (walkLevel s w va t fuel lv) := by
  induction fuel generalizing t lv with
  | zero => exact keeps_faultVa _ _
  | succ fuel ih => grind [walkLevel, quiet_checkPot, quiet_checkTag, quiet_readErrors, keeps_faultVa, keeps_ok, keeps_error]

@[simp] theorem quiet_walk (s : State) (k va : ℕ) : Quiet (walk s k va) := by
  grind [walk, keeps_faultVa, quiet_walkLevel]

@[simp] theorem quiet_leafWorld (s : State) (k va : ℕ) (l : Leaf) : Quiet (leafWorld s k va l) := by
  grind [leafWorld, keeps_faultVa, keeps_ok]

@[simp] theorem quiet_leafFor (s : State) (k va : ℕ) : Quiet (leafFor s k va) := by
  grind [leafFor, quiet_walk, keeps_ok]

@[simp] theorem quiet_leafAllows (e : ℕ) (kind : Access) (level : Bool) (va : ℕ) : Quiet (leafAllows e kind level va) := by
  cases kind <;> grind [leafAllows, keeps_faultVa, quiet_ok]

@[simp] theorem quiet_swapLeaf (s : State) (k va : ℕ) (l : Leaf) : Quiet (swapLeaf s k va l) := by
  grind [swapLeaf, quiet_walk, keeps_ok]

@[simp] theorem quiet_leafUsed (s : State) (a : Accessor) (va : ℕ) : Quiet (leafUsed s a va) := by
  grind [leafUsed, quiet_leafFor, quiet_swapLeaf]

@[simp] theorem quiet_leafAccess (s : State) (a : Accessor) (kind : Access) (va : ℕ) (l : Leaf) : Quiet (leafAccess s a kind va l) := by
  grind [leafAccess, quiet_leafWorld, quiet_leafAllows, quiet_checkPot, keeps_faultVa, keeps_ok, keeps_error, stopTidy]

@[simp] theorem quiet_translate (s : State) (a : Accessor) (kind : Access) (va : ℕ) : Quiet (Machine.translate s a kind va) := by
  grind [Machine.translate, quiet_leafUsed, quiet_leafAccess, keeps_error]

/-! ### Translations and classes -/

theorem tidy_mapContexts {s : State} {f : Nat × Context → Context} (hs : TidyState s) (hf : ∀ p, ctxTidy p.2 → ctxTidy (f p)) :
    TidyState { s with ctxs := s.ctxs.map fun p => (p.1, f p) } where
  __ := hs
  ctxs := tabSorted_map f hs.ctxs
  contexts := by
    simp only [List.mem_map]
    rintro _ ⟨p, hp, rfl⟩
    exact hf p (hs.contexts p hp)

theorem tidy_dropFrameTranslations {s : State} (frame : ℕ) (hs : TidyState s) : TidyState (dropFrameTranslations s frame) :=
  tidy_mapContexts hs fun _ hp => ⟨hp.1, tabSorted_filter _ hp.2⟩

theorem tidy_quarantineBlock {s : State} (block : ℕ) (hs : TidyState s) : TidyState (quarantineBlock s block) := by
  unfold quarantineBlock
  refine tidy_outbox (tidy_foldl _ hs fun s f h => tidy_dropFrameTranslations f ?_) _
  have h := tidy_setPot f { potAt s f with state := 4 } h
  exact { h with }

theorem tidy_dropLeafTranslations {s : State} (place : ℕ) (hs : TidyState s) : TidyState (dropLeafTranslations s place) :=
  tidy_mapContexts hs fun _ hp => ⟨hp.1, tabSorted_filter _ hp.2⟩

theorem tidy_quarantined {s : State} (b : Option (ℕ × ℕ)) (hs : TidyState s) : TidyState (b.elim s fun b => quarantineBlock s b.1) := by
  cases b
  exacts [hs, tidy_quarantineBlock _ hs]

theorem tidy_writeBackLine {s : State} (line : ℕ) (hs : TidyState s) : TidyState (writeBackLine s line) := by
  unfold writeBackLine
  split
  · exact hs
  · next t _ =>
    have hu := tidy_quarantined (metaErrorAt s (line * 128) 128) hs
    generalize ((metaErrorAt s (line * 128) 128).elim s fun b => quarantineBlock s b.1) = u at hu ⊢
    have h := tidy_chargeLine (ctxAt u t.ctx).vd line (tidy_stepLines [line] (s := { u with l2 := tabSet none u.l2 line none }) { hu with })
    dsimp only
    split
    exacts [{ h with }, h]

theorem tidy_writeBackRange {s : State} (pa n : ℕ) (hs : TidyState s) : TidyState (writeBackRange s pa n) :=
  tidy_foldl _ hs fun _ p h => tidy_writeBackLine p.1 h

theorem tidy_flushWay {s : State} (unit : ℕ) (hs : TidyState s) : TidyState (flushWay s unit) :=
  tidy_foldl _ hs fun _ p h => tidy_writeBackLine p.1 h

/-! ### The integrity trees (R416, R417) -/

theorem tidy_writeBackNode {s : State} (key : ℕ) (hs : TidyState s) : TidyState (writeBackNode s key) := by
  grind [writeBackNode, tidyState_iff]

theorem tidy_writeEntry {s : State} (ctx place e : ℕ) (hs : TidyState s) : TidyState (writeEntry s ctx place e) := by
  grind [writeEntry, tidy_dropLeafTranslations, tidy_physWrite]

theorem tidy_flushFrame {s : State} (frame : ℕ) (hs : TidyState s) : TidyState (flushFrame s frame) := by
  grind [flushFrame, tidy_writeBackRange]

theorem tidy_changePot {s : State} (frame : ℕ) (e : PotEntry) (hs : TidyState s) : TidyState (changePot s frame e) := by
  grind [changePot, tidy_dropFrameTranslations, tidy_flushFrame, tidy_setPot, tidyState_iff]

theorem tidy_movePot {s : State} (frame : ℕ) (e : PotEntry) (hs : TidyState s) : TidyState (movePot s frame e) := by
  grind [movePot, tidy_flushFrame, tidy_changePot]

theorem tidy_makeTiled {s : State} (ctx : ℕ) (l : Leaf) (hs : TidyState s) : TidyState (makeTiled s ctx l) := by
  grind [makeTiled, tidy_writeBackRange, tidy_writeEntry, tidyState_iff]

theorem keeps_reclassify {s : State} (ctx va : ℕ) (l : Leaf) (hs : TidyState s) : Keeps TidyState (reclassify s ctx va l) := by
  grind [reclassify, keeps_faultVa, tidy_makeTiled, keeps_ok]

theorem keeps_classRule {s : State} (a : Accessor) (l : Leaf) (va : ℕ) (hs : TidyState s) : Keeps (fun x => TidyState x.1) (classRule s a l va) := by
  grind [classRule, keeps_reclassify, keeps_ok, keeps_map, tidyState_iff]

/-! ### Tenure (R266, R283) -/

@[simp] theorem quiet_tenureRule (s : State) (a : Accessor) (stores : Bool) (va n : ℕ) : Quiet (tenureRule s a stores va n) := by
  grind [tenureRule, keeps_faultVa, keeps_ok, keeps_error, stopTidy]

theorem keeps_keepReclass {α : Type} {P : α → Prop} (l : Leaf) (va : ℕ) (was now : Bool) {r : Res α} (h : Keeps P r) :
    Keeps P (keepReclass l va was now r) := by
  cases h with
  | ok ha => exact .ok ha
  | @error e he =>
    cases e with
    | trap t => exact keeps_trap _
    | _ => exact .error he

theorem keeps_pageChecks {s : State} (a : Accessor) (l : Leaf) (pa va n : ℕ) (reads stores : Bool) (hs : TidyState s) :
    Keeps TidyState (pageChecks s a l pa va n reads stores) := by
  unfold pageChecks
  split
  · next h => exact (keeps_classRule a l va hs).stop h
  · next s' tiled h =>
    have hs' : TidyState s' := (keeps_classRule a l va hs).of_ok h
    refine keeps_keepReclass _ _ _ _ ?_
    grind [quiet_tenureRule, quiet_checkTag, quiet_readErrors, quiet_storeErrors, keeps_requestLines, keeps_error]

/-! ### Virtual memory -/

theorem keeps_deviceRequest {s : State} (vd die line : ℕ) (stores : Bool) (hs : TidyState s) :
    Keeps TidyState (deviceRequest s vd die line stores) := by
  grind [deviceRequest, tidy_chargePurse, keeps_ok, keeps_error, stopTidy]

theorem keeps_deviceChecks {s : State} (a : Accessor) (pa va n : ℕ) (stores : Bool) (hs : TidyState s) :
    Keeps TidyState (deviceChecks s a pa va n stores) := by
  grind [deviceChecks, quiet_checkTag, quiet_storeErrors, quiet_readErrors, keeps_deviceRequest, keeps_error]

theorem tidy_writeThrough {s : State} (pa : ℕ) (bs : List Byte) (tag : LineTag) (hs : TidyState s) : TidyState (writeThrough s pa bs tag) := by
  grind [writeThrough, tidy_writeBackRange, tidy_physWrite]

theorem keeps_memLoad {s : State} (a : Accessor) (va n : ℕ) (hs : TidyState s) : Keeps (fun x => TidyState x.1) (memLoad s a va n) := by
  grind [memLoad, quiet_translate, keeps_faultVa, keeps_deviceChecks, keeps_pageChecks, keeps_trap, keeps_ok, keeps_error]

theorem keeps_memStore {s : State} (a : Accessor) (va : ℕ) (bs : List Byte) (hs : TidyState s) : Keeps TidyState (memStore s a va bs) := by
  grind [memStore, quiet_translate, keeps_faultVa, tidy_viewWrite, keeps_deviceChecks, tidy_writeThrough, keeps_pageChecks, tidy_physWrite, keeps_ok,
    keeps_error]

theorem keeps_memAtomic {s : State} (a : Accessor) (va n : ℕ) (hs : TidyState s) : Keeps (fun x => TidyState x.1) (memAtomic s a va n) := by
  grind [memAtomic, quiet_translate, keeps_faultVa, keeps_pageChecks, keeps_ok, keeps_error]

theorem keeps_elemLoad {s : State} (a : Accessor) (va n : ℕ) (hs : TidyState s) : Keeps (fun x => TidyState x.1) (elemLoad s a va n) := by
  grind [elemLoad, quiet_translate, keeps_faultVa, keeps_pageChecks, keeps_ok, keeps_error]

theorem keeps_elemStore {s : State} (a : Accessor) (va : ℕ) (bs : List Byte) (hs : TidyState s) : Keeps TidyState (elemStore s a va bs) := by
  grind [elemStore, quiet_translate, keeps_faultVa, keeps_pageChecks, tidy_physWrite, keeps_ok, keeps_error]

/-! ### Hardware errors (R277, R409, R419, R420) -/

theorem tidy_poisonLine {s : State} (line : ℕ) (hs : TidyState s) : TidyState (poisonLine s line) := by
  grind [poisonLine, tidy_writeBackLine, tidyState_iff]

theorem tidy_applyHw {s : State} (core : ℕ) (a : HwEffect) (hs : TidyState s) : TidyState (applyHw s core a) := by
  cases a with
  | poison l => exact tidy_poisonLine l hs
  | quarantine b => exact tidy_quarantineBlock b hs
  | reclass l va => grind [applyHw, keeps_reclassify, keeps_ok]
  | flush l => exact tidy_writeBackLine l hs
  | ringErr n => exact tidy_putCore hs core { tidyCore_coreAt hs core with rings := tabSorted_set (tidyCore_coreAt hs core).rings _ _ }

theorem tidy_standHw {s : State} (l : List HwEffect) (hs : TidyState s) : TidyState (standHw s l) :=
  tidy_foldl l hs fun s e h => tidy_applyHw s.focus e h

@[simp] theorem quiet_agentLoad (s : State) (k va fuel n : ℕ) : Quiet (agentLoad s k va fuel n) := by
  induction fuel generalizing va n with
  | zero => exact quiet_ok _
  | succ fuel ih => grind [agentLoad, quiet_translate, quiet_inTurn, quiet_checkTag, quiet_readErrors, keeps_faultVa, keeps_ok, keeps_error]

end Sys2Proof.Proofs
end

section
/-! PROOF. Canonical form kept. Operands and elements, tiles, frame pools and page requests, adapters, the lease, groups, routes and flows (R145,
R227, R229, R247 to R283, R322 to R331, R410, R411, R434). -/

namespace Sys2Proof.Proofs
open Sys2Proof Sys2Proof.Machine Sys2Proof.Claims

/-! ### Descriptors (R145) -/

@[simp] theorem quiet_needDesc (d : Desc) (types : List ℕ) (accepts : Fmt → Bool) (operand : ℕ) : Quiet (needDesc d types accepts operand) := by
  grind [needDesc, keeps_faultOp, keeps_ok]

/-! ### Bytes of a space -/

theorem keeps_opLoad {s : State} (o : Operand) (a : ℤ) (n : ℕ) (hs : TidyState s) : Keeps (fun x => TidyState x.1) (opLoad s o a n) := by
  grind [opLoad, keeps_withOperand, keeps_fault, quiet_spadLoad, quiet_vaultLoad, keeps_elemLoad, keeps_map]

theorem keeps_opStore {s : State} (o : Operand) (a : ℤ) (bs : List Byte) (hs : TidyState s) : Keeps TidyState (opStore s o a bs) := by
  grind [opStore, keeps_withOperand, keeps_fault, keeps_spadStore, keeps_vaultStore, keeps_elemStore]

/-! ### Elements -/

theorem keeps_elemBits {s : State} (o : Operand) (i : ℕ) (hs : TidyState s) : Keeps (fun x => TidyState x.1) (elemBits s o i) := by
  grind [elemBits, keeps_opLoad, keeps_map]

theorem keeps_putElem {s : State} (o : Operand) (i bits : ℕ) (hs : TidyState s) : Keeps TidyState (putElem s o i bits) := by
  grind [putElem, keeps_opStore]

theorem keeps_elemScale {s : State} (o : Operand) (i : ℕ) (hs : TidyState s) : Keeps (fun x => TidyState x.1) (elemScale s o i) := by
  grind [elemScale, keeps_opLoad, keeps_ok, keeps_map]

theorem keeps_elemVal {s : State} (o : Operand) (i : ℕ) (hs : TidyState s) : Keeps (fun x => TidyState x.1) (elemVal s o i) := by
  grind [elemVal, keeps_elemBits, keeps_elemScale, keeps_ok, keeps_error]

/-! ### Scalar addresses (R111) -/

theorem keeps_scalarLoad {s : State} (ea : Word) (n : ℕ) (hs : TidyState s) : Keeps (fun x => TidyState x.1) (scalarLoad s ea n) := by
  grind [scalarLoad, keeps_faultVa, quiet_spadLoad, quiet_vaultLoad, keeps_fault, keeps_memLoad, keeps_map]

theorem keeps_scalarStore {s : State} (ea : Word) (bs : List Byte) (hs : TidyState s) : Keeps TidyState (scalarStore s ea bs) := by
  grind [scalarStore, keeps_faultVa, keeps_spadStore, keeps_vaultStore, keeps_fault, keeps_memStore]

theorem keeps_presentVal {s : State} (o : Operand) (i : ℕ) (hs : TidyState s) : Keeps (fun x => TidyState x.1) (presentVal s o i) := by
  grind [presentVal, keeps_elemVal, keeps_trap, keeps_ok, keeps_error]

theorem tidy_mergeFlags {s : State} (fl : Flags) (hs : TidyState s) : TidyState (mergeFlags s fl) := by
  grind [mergeFlags, tidyCore_iff, tidyState_iff]

theorem keeps_raiseFlags {s : State} (vctl : Word) (fl : Flags) (hs : TidyState s) : Keeps TidyState (raiseFlags s vctl fl) := by
  grind [raiseFlags, keeps_faultOp, tidy_mergeFlags, keeps_trap, keeps_ok]

/-! ### Handles (R263 to R265) -/

theorem ctxTidy_setTile {c : Context} (i : ℕ) (t : Option Tile) (hc : ctxTidy c) : ctxTidy (setTile c i t) := by
  grind [setTile, tabSorted_set, ctxTidy]

theorem ctxTidy_allocTile {c d : Context} {t : Tile} {hd : ℕ} (hc : ctxTidy c) (h : allocTile c t = some (d, hd)) : ctxTidy d := by
  simp only [allocTile, Option.map_eq_some_iff] at h
  obtain ⟨i, -, h⟩ := h
  cases h
  exact ctxTidy_setTile i (some t) hc

theorem ctxTidy_freeTile {c : Context} (i : ℕ) (hc : ctxTidy c) : ctxTidy (freeTile c i) := by
  grind [freeTile, ctxTidy_setTile, ctxTidy]

/-! ### Tenure (R268 to R273) -/

theorem ctxTidy_mapTiles {c : Context} (f : ℕ × Option Tile → Option Tile) (hc : ctxTidy c) :
    ctxTidy { c with tiles := c.tiles.map fun p => (p.1, f p) } :=
  ⟨tabSorted_map f hc.1, hc.2⟩

theorem ctxTidy_grantTenure {c : Context} (i : ℕ) (t : Tile) (hh : Holder) (write : Bool) (hc : ctxTidy c) :
    ctxTidy (grantTenure c i t hh write) := by
  unfold grantTenure
  split
  exacts [ctxTidy_setTile i _ (ctxTidy_mapTiles _ hc), ctxTidy_setTile i _ hc]

theorem ctxTidy_releaseTenures {c : Context} (hh : Holder → Bool) (hc : ctxTidy c) : ctxTidy (releaseTenures c hh) :=
  ⟨tabSorted_map _ hc.1, hc.2⟩

theorem ctxTidy_freeHandles {c : Context} (hc : ctxTidy c) : ctxTidy (freeHandles c) := ⟨rfl, hc.2⟩

/-! ### Pages of a tile (R276, R277) -/

@[simp] theorem quiet_acquireLeaf (s : State) (a : Accessor) (va : ℕ) : Quiet (acquireLeaf s a va) := by
  grind [acquireLeaf, quiet_leafFor, quiet_swapLeaf]

theorem keeps_acquirePage {s : State} (a : Accessor) (write : Bool) (va : ℕ) (hs : TidyState s) : Keeps TidyState (acquirePage s a write va) := by
  grind [acquirePage, quiet_acquireLeaf, quiet_leafAccess, keeps_faultVa, keeps_reclassify, keeps_ok, keeps_error]

theorem keeps_acquirePages {s : State} (a : Accessor) (write : Bool) (done : List HwEffect) (vas : List ℕ) (hs : TidyState s) :
    Keeps TidyState (acquirePages s a write done vas) := by
  induction vas generalizing s done with
  | nil => exact .ok hs
  | cons va vas ih => grind [acquirePages, keeps_acquirePage, keeps_trap, keeps_ok]

/-! ### Frame pools (R410, R411) -/

theorem tidy_giveFrame {s : State} (vd tier frame : ℕ) (hs : TidyState s) : TidyState (giveFrame s vd tier frame) := by
  have h := tidy_stepLines (linesOf (frame * 65536) 65536) (tidy_movePot frame ⟨0, 0⟩ hs)
  have hclear := tabWf_clear h.mem (frame * 65536) 65536
  refine tidy_setVd ?_ _ _
  exact { h with mem := hclear }

theorem tidy_takeFrame {s t : State} {vd tier f : ℕ} (hs : TidyState s) (h : takeFrame s vd tier = some (t, f)) : TidyState t := by
  simp only [takeFrame, Option.map_eq_some_iff] at h
  obtain ⟨_, -, h⟩ := h
  cases h
  exact tidy_setVd hs _ _

theorem tidy_requestFrame {s t : State} {vd : ℕ} {tier : Option ℕ} {x : ℕ × ℕ} (hs : TidyState s) (h : requestFrame s vd tier = some (t, x)) :
    TidyState t := by
  have htake {tier : ℕ} {r : State × ℕ × ℕ} (hr : (takeFrame s vd tier).map (fun r => (r.1, r.2, tier)) = some r) : TidyState r.1 := by
    obtain ⟨⟨u, f⟩, hu, rfl⟩ := Option.map_eq_some_iff.1 hr
    exact tidy_takeFrame hs hu
  cases tier with
  | some tier => exact htake h
  | none =>
    cases h0 : (takeFrame s vd 0).map fun r => (r.1, r.2, 0) with
    | none =>
      simp only [requestFrame, h0] at h
      exact htake h
    | some r =>
      simp only [requestFrame, h0] at h
      cases h
      exact htake h0

/-! ### Page requests (R410) -/

theorem tidy_postPageRequest {s : State} (ctx va : ℕ) (l : Leaf) (tier : Option ℕ) (hs : TidyState s) :
    TidyState (postPageRequest s ctx va l tier) := by
  unfold postPageRequest
  dsimp only
  split
  · exact hs
  · split
    · exact { hs with }
    · next h => exact { tidy_requestFrame hs h with }

theorem tidy_absorb {α : Type} {s : State} (r : Res α) (hs : TidyState s) : TidyState (absorb s r) := tidy_standHw (hwOf r) hs

theorem tidy_requestIfAbsent {s : State} (ctx va : ℕ) (hs : TidyState s) : TidyState (requestIfAbsent s ctx va) := by
  grind [requestIfAbsent, tidy_postPageRequest, tidy_absorb]

/-! ### Adapters (R247 to R254) -/

theorem tidy_setAtt {s : State} (i e : ℕ) (hs : TidyState s) : TidyState (setAtt s i e) := by
  grind [setAtt, tabWf_set, tidyState_iff]

theorem tidy_reclaimOld {s : State} (i : ℕ) (hs : TidyState s) : TidyState (reclaimOld s i) := by
  grind [reclaimOld, tidy_setAtt, tidyState_iff]

theorem tidy_dropCopies {s : State} (i : ℕ) (hs : TidyState s) : TidyState (dropCopies s i) := by
  grind [dropCopies, tidyState_iff]

theorem tidy_lastUnbind {s : State} (i : ℕ) (hs : TidyState s) : TidyState (lastUnbind s i) := by
  grind [lastUnbind, tidy_dropCopies, tidy_setAtt]

theorem tidy_adapterUnref {s : State} (i version : ℕ) (hs : TidyState s) : TidyState (adapterUnref s i version) := by
  grind [adapterUnref, tidy_setAtt, tidy_reclaimOld, tidy_lastUnbind]

theorem tidy_setSlots {s : State} (slots : Tab (Option (ℕ × ℕ × ℕ))) (hs : TidyState s) :
    TidyState { s with core := { s.core with slots := slots } } :=
  { hs with core := { hs.core with } }

theorem tidy_sweepSlots {s : State} (hs : TidyState s) : TidyState (sweepSlots s) := by
  refine tidy_foldl _ hs fun s p h => ?_
  split
  · split
    exacts [h, tidy_adapterUnref _ _ (tidy_setSlots _ h)]
  · exact h

theorem tidy_dropSlots {s : State} (hs : TidyState s) : TidyState (dropSlots s) := by
  refine tidy_foldl _ hs fun s p h => ?_
  split
  exacts [tidy_adapterUnref _ _ (tidy_setSlots _ h), h]

@[simp] theorem quiet_factorRead (s : State) (world pa n : ℕ) : Quiet (factorRead s world pa n) := by
  grind [factorRead, quiet_inTurn, quiet_checkPot, keeps_fault, quiet_checkTag, quiet_readErrors]

theorem keeps_fetchFactorPage {s : State} (keep : List ℕ) (i version page : ℕ) (hs : TidyState s) :
    Keeps TidyState (fetchFactorPage s keep i version page) := by
  have hpaste (pa a : ℕ) : tabWf 0 (tabPaste s.vaults a 65536 (tabSlice s.mem pa 65536 a)) = true := tabWf_paste hs.vaults (tabWf_slice hs.mem _ _ _) _ _
  unfold fetchFactorPage
  dsimp only
  split
  · exact .ok { hs with }
  · split
    · next h => exact (quiet_factorRead ..).stop h
    · split
      · next h => exact (quiet_factorRead ..).stop h
      · split
        · exact .error trivial
        · split
          · exact .ok { hs with vaults := hpaste _ _ }
          · split
            exacts [.ok { hs with vaults := hpaste _ _ }, .ok { hs with vaults := hpaste _ _ }]

theorem keeps_fetchPages {s : State} (i version : ℕ) (keep ps : List ℕ) (hs : TidyState s) : Keeps TidyState (fetchPages s i version keep ps) := by
  induction ps generalizing s keep with
  | nil => exact .ok hs
  | cons p ps ih => grind [fetchPages, keeps_fetchFactorPage, keeps_ok]

/-! ### The lease (R227, R229) -/

theorem tidy_setArray {s : State} (c : ℕ) (a : ClusterArray) (hs : TidyState s) : TidyState (setArray s c a) := by
  grind [setArray, tidyState_iff]

theorem tidy_releaseArray {s : State} (core : ℕ) (hs : TidyState s) : TidyState (releaseArray s core) := by
  grind [releaseArray, tidy_setArray, tidy_chargePurse]

theorem arrayTidy_fresh : arrayTidy ArrayState.fresh := ⟨rfl, rfl⟩

theorem tidy_dropLease {s : State} (hs : TidyState s) : TidyState (dropLease s) := by
  have h : TidyState (if s.core.lease = .held then releaseArray s s.focus else s) := by
    split
    exacts [tidy_releaseArray s.focus hs, hs]
  exact tidy_sweepSlots { h with core := { h.core with arr := arrayTidy_fresh } }

/-! ### Groups (R322 to R331) -/

theorem tidyCore_setGroup {c : Core} (k : ℕ) (g : GroupSlot) (hc : TidyCore c) : TidyCore (setGroup c k g) := by
  grind [setGroup, tabSorted_set, tidyCore_iff]

theorem tabSorted_abort {t : Tab GroupSlot} (key reason : ℕ) (h : tabSorted t = true) :
    tabSorted (t.filterMap fun p => let g := abortSlot key reason p.2; if g = GroupSlot.free then none else some (p.1, g)) = true := by
  have he : (fun p : ℕ × GroupSlot => let g := abortSlot key reason p.2; if g = GroupSlot.free then none else some (p.1, g)) =
      fun p => (if abortSlot key reason p.2 = GroupSlot.free then none else some (abortSlot key reason p.2)).map fun y => (p.1, y) := by
    funext p
    dsimp only
    split <;> rfl
  rw [he]
  exact tabSorted_filterMap _ h

theorem tidyCore_abortCore (key reason : ℕ) {c : Core} (hc : TidyCore c) : TidyCore (abortCore key reason c) :=
  { hc with groups := tabSorted_abort key reason hc.groups }

theorem jobTidy_mapImage {j : Job} {f : Core → Core} (hj : jobTidy j) (hf : ∀ c, TidyCore c → TidyCore (f c)) :
    jobTidy { j with image := j.image.map f } := by
  simp only [jobTidy, List.mem_map]
  rintro _ ⟨c, hc, rfl⟩
  exact hf c (hj c hc)

theorem tidy_mapCores {s : State} {f : Core → Core} {g : Job → Job} (hs : TidyState s) (hf : ∀ c, TidyCore c → TidyCore (f c))
    (hg : ∀ j, jobTidy j → jobTidy (g j)) :
    TidyState { s with core := f s.core, others := s.others.map fun p => (p.1, f p.2), jobs := s.jobs.map fun p => (p.1, p.2.map g) } where
  __ := hs
  core := hf _ hs.core
  others := tabSorted_map (fun p => f p.2) hs.others
  cores := by
    simp only [List.mem_map]
    rintro _ ⟨p, hp, rfl⟩
    exact hf _ (hs.cores p hp)
  jobs := by
    simp only [List.mem_map]
    rintro _ ⟨p, hp, rfl⟩ j hj
    obtain ⟨i, hi, rfl⟩ := Option.map_eq_some_iff.1 hj
    exact hg i (hs.jobs p hp i hi)

theorem tidy_abortGroup {s : State} (key reason : ℕ) (away : List ℕ) (hs : TidyState s) : TidyState (abortGroup s key reason away) :=
  have hf (c : Core) (hc : TidyCore c) := tidyCore_abortCore key reason hc
  { tidy_mapCores hs hf fun _ hj => jobTidy_mapImage hj hf with }

theorem tidy_sweepKey {s : State} (key : ℕ) (hs : TidyState s) : TidyState (sweepKey s key) := by
  grind [sweepKey, tidyState_iff]

/-! ### Ports and routes (R388, R433) -/

theorem tidy_writeRoute {s : State} (pkg ports : ℕ) (hs : TidyState s) : TidyState (writeRoute s pkg ports) := by
  grind [writeRoute, tidyState_iff]

theorem tidy_chargeSend {s : State} (vd pkg flits : ℕ) (hs : TidyState s) : TidyState (chargeSend s vd pkg flits) := by
  grind [chargeSend, tidy_chargePurse]

theorem tidy_sendControl {s : State} (pkg : ℕ) (m : Message) (hs : TidyState s) : TidyState (sendControl s pkg m) := by
  grind [sendControl, tidy_chargeSend, tidyState_iff]

/-! ### Announcements (R326, R329, R330) -/

theorem tidy_announce {s : State} (g : GroupSlot) (c : Contribution) (hs : TidyState s) : TidyState (announce s g c) :=
  have h := tidy_foldl (otherPackages s g) hs fun s p h => tidy_chargeSend (curCtx s).vd p (flitsOf (8 * max c.bits.length c.vals.length)) h
  { h with }

theorem tidy_withdrawJoin {s : State} (g : GroupSlot) (hs : TidyState s) : TidyState (withdrawJoin s g) := by
  grind [withdrawJoin, tidyState_iff]

theorem tidy_leaveGroup {s : State} (k : ℕ) (hs : TidyState s) : TidyState (leaveGroup s k) := by
  grind [leaveGroup, tidyCore_setGroup, tidy_announce, tidy_withdrawJoin, tidy_sweepKey, tidyState_iff]

theorem tidy_killGroup {s : State} (k reason : ℕ) (hs : TidyState s) : TidyState (killGroup s k reason) := by
  grind [killGroup, tidyCore_setGroup, tidy_sweepKey, tidy_abortGroup, tidyState_iff]

/-! ### Flows (R434, R435) -/

theorem tidyCore_setFlow {c : Core} (k : ℕ) (f : Flow) (hc : TidyCore c) : TidyCore (setFlow c k f) := by
  grind [setFlow, tabWf_set, tidyCore_iff]

theorem tidyCore_failFlow {c : Core} (k cause : ℕ) (hc : TidyCore c) : TidyCore (failFlow c k cause) := by
  grind [failFlow, tidyCore_setFlow]

end Sys2Proof.Proofs
end

section
/-! PROOF. Canonical form kept. The end of a core, a job and a context, the waits of a stream, traps and the completion of an instruction (R81, R132
to R136, R306, R347, R353 to R378). -/

namespace Sys2Proof.Proofs
open Sys2Proof Sys2Proof.Machine Sys2Proof.Claims

/-! ### The end of a flow (R435, R438) -/

theorem keeps_slotOfRow {s : State} (e : QEntry) (row : ℕ) (hs : TidyState s) : Keeps (fun x => TidyState x.1) (slotOfRow s e row) := by
  grind [slotOfRow, keeps_presentVal, keeps_map]

theorem tidy_endFlows {s : State} (killed : Bool) (hs : TidyState s) : TidyState (endFlows s killed) := by
  have h := tidy_foldl s.core.flows hs fun t p ht => tidy_foldl (if flowState p.2 = 0 then [] else (if killed then flowNotices s p.1 else []) ++
    [.flow (flowPeer p.2) s.core.ctx s.core.jobRank p.1 (if killed || flowState p.2 = 2 then 2 else 1) 0]) ht fun t m ht => tidy_sendControl (flowPeer p.2) m ht
  exact { h with core := { h.core with flows := rfl } }

/-! ### Responses (R433, R437) -/

theorem tidy_respond {s : State} (key seq type status : ℕ) (bs : List Byte) (hs : TidyState s) : TidyState (respond s key seq type status bs) := by
  grind [respond, tidyState_iff]

/-! ### The save region (R353, R356) -/

@[simp] theorem quiet_framePa (s : State) (k va n : ℕ) (stores : Bool) : Quiet (framePa s k va n stores) := by
  grind [framePa, quiet_walk, quiet_leafWorld, keeps_faultVa, quiet_checkPot, quiet_storeErrors, quiet_readErrors, keeps_error, stopTidy, keeps_map]

theorem tidy_pasteSpan {s : State} (k pa n : ℕ) {img : Memory} (off : ℕ) (hs : TidyState s) (himg : tabWf 0 img = true) :
    TidyState (pasteSpan s k pa n img off) := by
  grind [pasteSpan, tidy_dirtyLines, tabWf_paste, tabWf_slice, tidyState_iff]

theorem tabWf_append {α : Type} [DecidableEq α] {d : α} {t u : Tab α} (ht : tabWf d t = true) (hu : tabWf d u = true)
    (h : ∀ p ∈ t, ∀ q ∈ u, p.1 < q.1) : tabWf d (t ++ u) = true := by
  rw [tabWf_iff, tabSorted_iff] at ht hu ⊢
  refine ⟨List.pairwise_append.2 ⟨ht.1, hu.1, h⟩, fun p hp => ?_⟩
  rcases List.mem_append.1 hp with hp | hp
  exacts [ht.2 p hp, hu.2 p hp]

theorem mem_tabSlice {α : Type} {t : Tab α} {a n b : ℕ} {p : ℕ × α} (h : p ∈ tabSlice t a n b) : b ≤ p.1 ∧ p.1 < b + n := by
  unfold tabSlice at h
  simp only [List.mem_map, List.mem_filter, Bool.and_eq_true, decide_eq_true_eq] at h
  obtain ⟨q, ⟨-, hq⟩, rfl⟩ := h
  constructor <;> dsimp only <;> omega

theorem keeps_readRegion_above {s : State} (k fuel va off n : ℕ) (hs : TidyState s) :
    Keeps (fun m => tabWf 0 m = true ∧ ∀ p ∈ m, off ≤ p.1) (readRegion s k fuel va off n) := by
  induction fuel generalizing va off n with
  | zero =>
    unfold readRegion
    split
    exacts [.ok ⟨rfl, by simp⟩, keeps_faultVa _ _]
  | succ fuel ih =>
    unfold readRegion
    split
    · exact .ok ⟨rfl, by simp⟩
    · dsimp only
      split
      · next h => exact (quiet_framePa ..).stop h
      · refine keeps_map ((ih _ _ _).mono fun m hm => ⟨tabWf_append (tabWf_slice hs.mem _ _ _) hm.1 fun p hp q hq => ?_, fun p hp => ?_⟩)
        · exact (mem_tabSlice hp).2.trans_le (hm.2 q hq)
        · rcases List.mem_append.1 hp with hp | hp
          exacts [(mem_tabSlice hp).1, (Nat.le_add_right ..).trans (hm.2 p hp)]

theorem keeps_readRegion {s : State} (k fuel va off n : ℕ) (hs : TidyState s) : Keeps (fun m => tabWf 0 m = true) (readRegion s k fuel va off n) :=
  (keeps_readRegion_above k fuel va off n hs).mono fun _ h => h.1

theorem tabWf_cons {α : Type} [DecidableEq α] {d : α} {k : ℕ} {v : α} {t : Tab α} :
    tabWf d ((k, v) :: t) = true ↔ v ≠ d ∧ tabWf d t = true ∧ ∀ p ∈ t, k < p.1 := by
  simp only [tabWf_iff, tabSorted_iff, List.pairwise_cons, List.forall_mem_cons]
  tauto

theorem mem_wordsFrom (off : ℕ) (m : Memory) : ∀ p ∈ wordsFrom off m, ∃ q ∈ m, p.1 = (q.1 - off) / 4 := by
  induction m with
  | nil => simp [wordsFrom]
  | cons x m ih =>
    obtain ⟨a, b⟩ := x
    unfold wordsFrom
    dsimp only
    split
    · next j w r hr =>
      rw [hr, List.forall_mem_cons] at ih
      split
      all_goals
        simp only [List.forall_mem_cons, List.exists_mem_cons_iff]
        grind
    · simp

theorem tabWf_wordsFrom (off : ℕ) {m : Memory} (hm : tabWf 0 m = true) : tabWf 0 (wordsFrom off m) = true := by
  induction m with
  | nil => rfl
  | cons x m ih =>
    obtain ⟨a, b⟩ := x
    obtain ⟨hb, hm, habove⟩ := tabWf_cons.1 hm
    have hv : b.toNat * 256 ^ ((a - off) % 4) ≠ 0 := by
      have : b.toNat ≠ 0 := fun h => hb (BitVec.eq_of_toNat_eq h)
      positivity
    have hle : ∀ p ∈ wordsFrom off m, (a - off) / 4 ≤ p.1 := by
      intro p hp
      obtain ⟨q, hq, hpq⟩ := mem_wordsFrom off m p hp
      have := habove q hq
      rw [hpq]
      exact Nat.div_le_div_right (by omega)
    have hwf := ih hm
    unfold wordsFrom
    dsimp only
    split
    · next j w r hr =>
      rw [hr] at hwf hle
      obtain ⟨hw, hr', hj⟩ := tabWf_cons.1 hwf
      split
      · next h => exact tabWf_cons.2 ⟨by omega, hr', fun p hp => h ▸ hj p hp⟩
      · next h =>
        have hlt : (a - off) / 4 < j := lt_of_le_of_ne (hle _ List.mem_cons_self) fun he => h he.symm
        refine tabWf_cons.2 ⟨hv, hwf, fun p hp => ?_⟩
        rcases List.mem_cons.1 hp with rfl | hp
        exacts [hlt, hlt.trans (hj p hp)]
    · exact tabWf_cons.2 ⟨hv, rfl, by simp⟩

/-! ### The array save area (R226, R364) -/

theorem tabWf_imageOf (ps : List (ℕ × List Byte)) : tabWf 0 (imageOf ps) = true :=
  tabWf_foldl (fun _ p h => tabWf_setRange h p.1 p.2) ps rfl

theorem tidy_hold {s : State} (k : ℕ) {x : HeldStep} (hs : TidyState s) (hx : heldTidy x) :
    TidyState { s with holding := s.holding ++ [(k, x)] } where
  __ := hs
  holding p hp := by
    rcases List.mem_append.1 hp with hp | hp
    · exact hs.holding p hp
    · rw [List.mem_singleton.1 hp]
      exact hx

theorem tidy_pasteRegion {img : Memory} (k : ℕ) (kill : Option (ℕ × ℕ)) (himg : tabWf 0 img = true) (fuel va off n : ℕ) {s : State}
    (hs : TidyState s) :
    TidyState (pasteRegion s k kill img fuel va off n).state := by
  induction fuel generalizing s va off n with
  | zero =>
    unfold pasteRegion
    split <;> exact hs
  | succ fuel ih =>
    unfold pasteRegion
    split
    · exact hs
    · dsimp only
      split
      · exact ih _ _ _ (tidy_pasteSpan k _ _ off hs himg)
      · exact ih _ _ _ (tidy_hold k hs (tabWf_slice himg _ _ _))
      · exact tidy_absorb _ hs

theorem tidy_saveArray {s : State} (core : ℕ) (hs : TidyState s) : TidyState (saveArray s core) := by
  grind [saveArray, tidy_pasteRegion, tabWf_imageOf]

theorem keeps_restoredArray {s : State} (core : ℕ) (hs : TidyState s) : Keeps arrayTidy (restoredArray s core) := by
  have hget (live : Bool) (k va off n : ℕ) :
      Keeps (fun t => tabWf 0 t = true) (if live then (readRegion s k 4 va off n).map (wordsFrom off) else .ok []) := by
    split
    · exact keeps_map ((keeps_readRegion k 4 va off n hs).mono fun m hm => tabWf_wordsFrom off hm)
    · exact .ok rfl
  unfold restoredArray
  dsimp only
  split
  · next h => exact (hget ..).stop h
  · next h => exact keeps_map ((hget ..).mono fun side hside => ⟨(hget ..).of_ok h, hside⟩)

/-! ### Completion (R135, R342, R346, R347) -/

theorem tidy_writeRecord {s : State} (core : ℕ) (st : StreamName) (r : TrapRecord) (cause : Option ℕ) (hs : TidyState s) :
    TidyState (writeRecord s core st r cause).state :=
  tidy_pasteRegion _ _ (tabWf_imageOf _) _ _ _ _ hs

theorem tidy_postEvent {s : State} (v : ℕ) (e : HeldEvent) (hs : TidyState s) : TidyState (postEvent s v e) := by
  grind [postEvent, tidy_setVd]

theorem tidy_postCompletion {s : State} (j : Job) (status cause : ℕ) (hs : TidyState s) : TidyState (postCompletion s j status cause) := by
  grind [postCompletion, tidy_setQueue, tidy_postEvent]

theorem tidy_finishAs {s : State} (n : ℕ) (j : Job) (st : JobState) (cause : ℕ) (hs : TidyState s) : TidyState (finishAs s n j st cause) := by
  grind [finishAs, tidy_postCompletion, tidy_setJob, jobTidy]

theorem tidy_finishJob {s : State} (n : ℕ) (j : Job) (retired : Bool) (cause : ℕ) (hs : TidyState s) : TidyState (finishJob s n j retired cause) := by
  grind [finishJob, tidy_finishAs]

/-! ### End actions (R135) -/

theorem streamTidy_idleStream {t : Stream} (ht : streamTidy t) : streamTidy (idleStream t) := ⟨ht.1, fun _ _ h => by cases h⟩

theorem tidyCore_idleCore {c : Core} (hc : TidyCore c) : TidyCore (idleCore c) :=
  { tidyCore_reset with
    c := streamTidy_idleStream hc.c, d := streamTidy_idleStream hc.d, v := streamTidy_idleStream hc.v, x := streamTidy_idleStream hc.x, rings := hc.rings }

theorem tidy_setCore {s : State} {c : Core} (hs : TidyState s) (hc : TidyCore c) : TidyState { s with core := c } := { hs with core := hc }

theorem tidy_endCore {s : State} (killed : Bool) (reason : ℕ) (hs : TidyState s) : TidyState (endCore s killed reason) := by
  have hgroups := tidy_foldl (f := fun s (p : ℕ × GroupSlot) => if killed then killGroup s p.1 reason else leaveGroup s p.1)
    (dropSlots (dropLease s)).core.groups (tidy_dropSlots (tidy_dropLease hs)) fun t p ht => by
      split
      exacts [tidy_killGroup _ _ ht, tidy_leaveGroup _ ht]
  have h := tidy_endFlows killed hgroups
  refine tidy_setCore h ?_
  have hidle := tidyCore_idleCore h.core
  cases killed
  exacts [hidle, { hidle with }]

theorem tidy_closeUnit {s : State} (unit : ℕ) (hs : TidyState s) : TidyState (closeUnit s unit) := by
  grind [closeUnit, tidy_flushWay, tidyState_iff]

theorem tidy_fenceUnit {s : State} (unit : ℕ) (hs : TidyState s) : TidyState (fenceUnit s unit) := by
  grind [fenceUnit, tidy_closeUnit, tidyState_iff]

theorem tidy_noteError {s : State} (unit : ℕ) (hs : TidyState s) : TidyState (noteError s unit) := by
  grind [noteError, tidy_fenceUnit, tidyState_iff]

theorem tidy_scrubbed {s : State} (u : ℕ) (hs : TidyState s) : TidyState (scrubbed s u) := by
  grind [scrubbed, tidy_fenceUnit]

theorem tidy_zeroVaults {s : State} (vs : List ℕ) (hs : TidyState s) : TidyState (zeroVaults s vs) :=
  tidy_foldl vs hs fun _ _ h => tidy_scrubbed _ { h with vaults := tabWf_clear h.vaults _ _ }

theorem tidy_homeUnit {s : State} (u : ℕ) (hs : TidyState s) : TidyState (homeUnit s u) := by
  grind [homeUnit, tidy_scrubbed, tidyState_iff]

theorem tidy_scrubUnit {s : State} (u : ℕ) (hs : TidyState s) : TidyState (scrubUnit s u) := by
  grind [scrubUnit, tidy_homeUnit, tidy_zeroVaults]

theorem tidy_scrubWay {s : State} (u : ℕ) (hs : TidyState s) : TidyState (scrubWay s u) := by
  grind [scrubWay, tidy_homeUnit, tidy_flushWay]

theorem tidy_lendWays {s : State} (owner part : ℕ) (hs : TidyState s) : TidyState (lendWays s owner part) := by
  grind [lendWays, tidyState_iff]

theorem tidy_returnWays {s : State} (owner part : ℕ) (hs : TidyState s) : TidyState (returnWays s owner part) := by
  unfold returnWays
  dsimp only
  split
  exacts [hs, tidy_foldl _ hs fun _ u h => tidy_scrubWay u h]

theorem tidy_returnMargin {s : State} (core : ℕ) (hs : TidyState s) : TidyState (returnMargin s core) := by
  grind [returnMargin, tidy_returnWays, tidy_scrubUnit, tidyState_iff]

theorem tidy_endCores {s : State} (cores : List ℕ) (killed : Bool) (reason : ℕ) (hs : TidyState s) : TidyState (endCores s cores killed reason) :=
  have h := tidy_foldl cores hs fun _ c h => tidy_scrubbed (clusterOf c) (tidy_endCore killed reason (tidy_focusOn h c))
  tidy_foldl cores (tidy_focusOn h _) fun _ c h => tidy_returnMargin c h

theorem tidy_pushCore {s : State} {c : Core} (hs : TidyState s) (hc : TidyCore c) :
    TidyState { s with core := c, others := tabInsert s.others s.focus s.core } where
  __ := hs
  core := hc
  others := tabSorted_insert hs.others _ _
  cores p hp := by
    rcases mem_tabInsert hp with rfl | hp
    exacts [hs.core, hs.cores p hp]

theorem tidy_popCore {s : State} (n : ℕ) (hs : TidyState s) :
    TidyState { s with core := tabGet Core.reset s.others n, others := tabErase s.others n } :=
  { hs with core := tidyCore_tabGet hs.cores n, others := tabSorted_erase hs.others n, cores := fun p hp => hs.cores p (mem_tabErase hp) }

theorem tidy_endSaved (reason : ℕ) {s : State} {c : Core} (hs : TidyState s) (hc : TidyCore c) : TidyState (endSaved reason s c) :=
  tidy_popCore s.focus (tidy_endCore true reason (tidy_pushCore hs hc))

theorem tidy_endImage {s : State} (n : ℕ) {j : Job} (reason : ℕ) (hs : TidyState s) (hj : jobTidy j) : TidyState (endImage s n j reason) := by
  have h (l : List Core) (hl : ∀ c ∈ l, TidyCore c) {t : State} (ht : TidyState t) : TidyState (l.foldl (endSaved reason) t) := by
    induction l generalizing t with
    | nil => exact ht
    | cons c l ih => exact ih (fun x hx => hl x (List.mem_cons_of_mem _ hx)) (tidy_endSaved reason ht (hl c List.mem_cons_self))
  exact h j.image hj (tidy_setJob hs n (jobTidy_of_nil rfl))

theorem tidy_leaveContext {s : State} (n : ℕ) (j : Job) (hs : TidyState s) : TidyState (leaveContext s n j) := by
  grind [leaveContext, ctxTidy_releaseTenures, ctxTidy_ctxAt, tidy_setCtx, ctxTidy]

theorem tidy_deadFlows {s : State} (k : ℕ) (hs : TidyState s) : TidyState (deadFlows s k) :=
  { hs with rxFlows := tabSorted_map _ hs.rxFlows }

theorem tidy_dropHeld {s : State} (k : ℕ) (hs : TidyState s) : TidyState (dropHeld s k) := by
  refine tidy_foldl _ { hs with holding := fun p hp => hs.holding p (List.mem_of_mem_filter hp) } fun t p h => ?_
  split
  · split
    exacts [tidy_respond _ _ _ _ _ h, h]
  · exact h

theorem tidy_killJobFor {s : State} (n cause reason : ℕ) (hs : TidyState s) : TidyState (killJobFor s n cause reason) := by
  grind [killJobFor, jobTidy_of_jobAt, tidy_finishJob, tidy_deadFlows, tidy_endCores, tidy_leaveContext, tidy_dropHeld, tidy_endImage]

theorem tidy_killJob {s : State} (n cause : ℕ) (hs : TidyState s) : TidyState (killJob s n cause) := by
  grind [killJob, tidy_killJobFor]

theorem tidy_retireJob {s : State} (n : ℕ) (hs : TidyState s) : TidyState (retireJob s n) := by
  grind [retireJob, tidy_finishJob, tidy_endCores, tidy_leaveContext]

theorem tidy_retireIfMet {s : State} (n : ℕ) (hs : TidyState s) : TidyState (retireIfMet s n) := by
  grind [retireIfMet, tidy_retireJob]

theorem tidy_retireCur {s : State} (hs : TidyState s) : TidyState (retireCur s) := by
  grind [retireCur, tidy_retireIfMet]

/-! ### Fields of TSTAT (R373) -/

theorem tidyCore_setInh {c : Core} (b : Bool) (hc : TidyCore c) : TidyCore (setInh c b) := by
  grind [setInh, tidyCore_iff]

theorem tidyCore_setPend {c : Core} (st : StreamName) (b : Bool) (hc : TidyCore c) : TidyCore (setPend c st b) := by
  grind [setPend, tidyCore_iff]

/-! ### Interrupt messages (R347, R367) -/

theorem tidy_sendMsix {s : State} (v vector : ℕ) (hs : TidyState s) : TidyState (sendMsix s v vector) := by
  grind [sendMsix, tidy_setVd, tidyState_iff]

/-! ### Waits (R81, R317) -/

theorem tidy_updStream {s : State} (core : ℕ) (st : StreamName) {f : Stream → Stream} (hs : TidyState s) (hf : ∀ t, streamTidy t → streamTidy (f t)) :
    TidyState (updStream s core st f) :=
  have h := tidyCore_coreAt hs core
  tidy_putCore hs core (tidyCore_setStream h st (hf _ (streamTidy_streamOf h st)))

theorem queueTidy_queueOf {c : Core} (a : EngineName) (hc : TidyCore c) : queueTidy (queueOf c a) := by
  cases a
  exacts [hc.qdata, hc.qvec, hc.qmat, hc.qgrp]

theorem tidyCore_setQueueOf {c : Core} (e : EngineName) {q : List QEntry} (hc : TidyCore c) (hq : queueTidy q) : TidyCore (setQueueOf c e q) := by
  cases e
  exacts [{ hc with qdata := hq }, { hc with qvec := hq }, { hc with qmat := hq }, { hc with qgrp := hq }]

/-! ### Draws (R306, R307) -/

theorem streamTidy_addDraw {t : Stream} (k : ℕ) (ht : streamTidy t) : streamTidy (addDraw t k) := by
  grind [addDraw, streamTidy]

theorem streamTidy_drawTakes {t : Stream} (ks : List ℕ) (ht : streamTidy t) : streamTidy (drawTakes t ks) :=
  foldl_induction (fun _ k h => streamTidy_addDraw k h) ks ht

theorem streamTidy_undrawTakes {t : Stream} (ks : List ℕ) (ht : streamTidy t) : streamTidy (undrawTakes t ks) := by
  refine foldl_induction (fun t k h => ?_) ks ht
  exact streamTidy_of_eq h rfl rfl

theorem queueTidy_filter {q : List QEntry} (f : QEntry → Bool) (hq : queueTidy q) :
    queueTidy (q.filter f) := fun e he => hq e (List.mem_of_mem_filter he)

theorem queueTidy_map {q : List QEntry} {f : QEntry → QEntry} (hq : queueTidy q) (hf : ∀ e, entryTidy e → entryTidy (f e)) : queueTidy (q.map f) := by
  simp only [queueTidy, List.mem_map]
  rintro _ ⟨e, he, rfl⟩
  exact hf e (hq e he)

theorem tidy_removeHeld {s : State} (core : ℕ) (st : StreamName) (seq : ℕ) (hs : TidyState s) : TidyState (removeHeld s core st seq) := by
  have h := tidyCore_coreAt hs core
  refine tidy_putCore hs core (foldl_induction (fun c e hc => ?_) _ ?_)
  · split
    exacts [tidyCore_setStream hc st (streamTidy_undrawTakes _ (streamTidy_streamOf hc st)), hc]
  · exact { h with qdata := queueTidy_filter _ h.qdata, qmat := queueTidy_filter _ h.qmat }

theorem tidy_abandonWait {s : State} (core : ℕ) (st : StreamName) (hs : TidyState s) : TidyState (abandonWait s core st) := by
  grind [abandonWait, tidyCore_coreAt, ctxTidy_ctxAt, tidy_setCtx, tidy_putCore, tidy_withdrawJoin, tidyCore_setGroup, tidy_removeHeld,
    tidy_updStream, streamTidy, ctxTidy, tidyCore_iff]

theorem tidy_abandonHeld {s : State} (core : ℕ) (st : StreamName) (hs : TidyState s) : TidyState (abandonHeld s core st) := by
  grind [abandonHeld, tidy_abandonWait, tidy_updStream, streamTidy]

theorem tidy_waitWith {s : State} (w : Wait) {r : Option Ready} (hs : TidyState s) (hr : ∀ x, r = some x → entryTidy x.entry) :
    TidyState (waitWith s w r) :=
  tidy_setCur hs ⟨(streamTidy_curStream hs).1, fun _ x hp hx => by cases hp; exact hr x hx⟩

theorem tidy_waitOn {s : State} (w : Wait) (hs : TidyState s) : TidyState (waitOn s w) := tidy_waitWith w hs fun _ h => by cases h

theorem tidy_requestPurse {s : State} (kind inst vd : ℕ) (hs : TidyState s) : TidyState (requestPurse s kind inst vd) := by
  grind [requestPurse, tidy_setPurse, tidy_shortPurse]

theorem tidy_requestLease {s : State} (hs : TidyState s) : TidyState (requestLease s) := by
  grind [requestLease, tidy_requestPurse]

theorem tidy_postReclaim {s : State} (hs : TidyState s) : TidyState (postReclaim s) := by
  grind [postReclaim, tidy_requestLease, tidyCore_iff, tidyState_iff]

theorem tidy_waitReady {s : State} (w : Wait) {r : Ready} (hs : TidyState s) (hr : entryTidy r.entry) : TidyState (waitReady s w r) := by
  refine tidy_waitWith w ?_ fun _ h => Option.some.inj h ▸ hr
  split
  exacts [tidy_postReclaim hs, hs]

/-! ### Taking an exception (R356 to R360) -/

theorem tidy_enterHandler {s : State} (core : ℕ) (resume : Word) (hs : TidyState s) : TidyState (enterHandler s core resume) := by
  grind [enterHandler, tidy_abandonHeld, tidyCore_coreAt, tidyCore_setInh, tidy_putCore, streamTidy, tidyCore_iff]

theorem tidy_debugTrap {s : State} (core : ℕ) (st : StreamName) (hs : TidyState s) : TidyState (debugTrap s core st) := by
  grind [debugTrap, tidy_updStream, tidy_setVd, tidy_sendMsix, streamTidy]

theorem tidy_killByTrap {s : State} (core : ℕ) (st : StreamName) (r : TrapRecord) (hs : TidyState s) : TidyState (killByTrap s core st r) := by
  unfold killByTrap
  dsimp only
  have h := tidy_foldl (f := fun s (p : StreamName × TrapRecord) => if p.1 = st then s else Written.state (writeRecord s core p.1 p.2 none))
    (trapsTogether (coreAt s core) st r) hs fun t p ht => by
      split
      exacts [ht, tidy_writeRecord _ _ _ _ ht]
  cases (coreAt s core).job
  exacts [h, tidy_killJob _ _ h]

theorem tidy_serveTrap {s : State} (core : ℕ) (st : StreamName) (r : TrapRecord) (resume : Word) (hs : TidyState s) :
    TidyState (serveTrap s core st r resume) := by
  grind [serveTrap, tidy_killByTrap, tidy_debugTrap, tidy_enterHandler, tidy_putCore, tidyCore_setPend, tidyCore_coreAt]

theorem streamTidy_trappedWith (r : TrapRecord) {t : Stream} (ht : streamTidy t) : streamTidy (trappedWith r t) := by
  grind [trappedWith, streamTidy]

theorem tidy_killHere {s : State} (core cause : ℕ) (hs : TidyState s) : TidyState ((coreAt s core).job.elim s fun n => killJob s n cause) := by
  cases (coreAt s core).job
  exacts [hs, tidy_killJob _ _ hs]

/-- What follows the write of a trap's record (R359). It stands apart from the write, whose value the kernel would otherwise compute. -/
def afterRecord (w : TrapAt) (r : TrapRecord) : Written → State
  | .error u => (coreAt u w.core).job.elim u fun n => killJob u n r.cause
  | .ok u => serveTrap (updStream u w.core w.st (trappedWith r)) w.core w.st r w.resume

theorem recordTrap_eq (s : State) (w : TrapAt) (r : TrapRecord) :
    recordTrap s w r = afterRecord w r (writeRecord s w.core w.st r (some r.cause)) := rfl

theorem tidy_afterRecord {u : Written} (w : TrapAt) (r : TrapRecord) (h : TidyState u.state) : TidyState (afterRecord w r u) := by
  cases u with
  | error u => exact tidy_killHere w.core r.cause h
  | ok u => exact tidy_serveTrap _ _ _ _ (tidy_updStream _ _ h fun _ => streamTidy_trappedWith r)

theorem tidy_recordTrap {s : State} (w : TrapAt) (r : TrapRecord) (hs : TidyState s) : TidyState (recordTrap s w r) := by
  rw [recordTrap_eq]
  exact tidy_afterRecord w r (tidy_writeRecord w.core w.st r (some r.cause) hs)

theorem tidy_beforeTrap {s : State} (w : TrapAt) (t : TrapInfo) (hs : TidyState s) : TidyState (beforeTrap s w t) :=
  tidy_abandonWait _ _ (tidy_foldl _ hs fun _ e h => tidy_applyHw _ e h)

theorem tidy_raiseTrap {s : State} (w : TrapAt) (t : TrapInfo) (hs : TidyState s) : TidyState (raiseTrap s w t) := by
  grind [raiseTrap, tidy_recordTrap, tidy_beforeTrap]

theorem tidy_trapCur {s : State} (t : TrapInfo) (hs : TidyState s) : TidyState (trapCur s t) := by
  grind [trapCur, tidy_raiseTrap]

theorem tidy_clearRecord {s : State} (core : ℕ) (st : StreamName) (hs : TidyState s) : TidyState (clearRecord s core st) :=
  tidy_writeRecord _ _ _ _ (tidy_updStream core st hs fun _ h => streamTidy_of_eq h rfl rfl)

theorem queueTidy_unstop {q : List QEntry} (st : StreamName) (hq : queueTidy q) :
    queueTidy (q.map fun e => if e.stream = st then { e with stopped := false } else e) :=
  queueTidy_map hq fun e he => by
    split
    exacts [entryTidy_of_part he rfl, he]

theorem tidy_returnStream {s : State} (core : ℕ) (st : StreamName) (hs : TidyState s) : TidyState (returnStream s core st) := by
  unfold returnStream
  dsimp only
  split
  · exact hs
  · have h := tidy_clearRecord core st hs
    have hc := tidyCore_coreAt h core
    refine tidy_updStream core st (tidy_putCore h core ?_) fun _ h => streamTidy_of_eq h rfl rfl
    exact { hc with
      qdata := queueTidy_unstop st hc.qdata, qvec := queueTidy_unstop st hc.qvec, qmat := queueTidy_unstop st hc.qmat, qgrp := queueTidy_unstop st hc.qgrp }

/-! ### Completion of an instruction -/

theorem tidy_stepDone {s : State} (pc : Word) (hs : TidyState s) : TidyState (stepDone s pc) := by
  grind [stepDone, tidy_raiseTrap, tidy_setCur, streamTidy_curStream, streamTidy]

theorem tidy_completeAt {s : State} (pc : Word) (hs : TidyState s) : TidyState (completeAt s pc) := by
  grind [completeAt, streamTidy_curStream, tidy_setCur, tidy_stepDone, streamTidy]

theorem tidy_advanceBy {s : State} (len : ℕ) (hs : TidyState s) : TidyState (advanceBy s len) := by
  grind [advanceBy, streamTidy_curStream, tidy_completeAt, tidy_setCur, streamTidy]

theorem tidy_advance {s : State} (hs : TidyState s) : TidyState (advance s) := by
  grind [advance, tidy_advanceBy]

theorem tidy_branchTo {s : State} (target : Word) (hs : TidyState s) : TidyState (branchTo s target) := by
  grind [branchTo, streamTidy_curStream, tidy_completeAt, tidy_setCur, streamTidy]

theorem tidy_settle {s : State} {r : Res State} (hs : TidyState s) (hr : Keeps TidyState r) : TidyState (settle s r) := by
  cases hr with
  | ok h => exact h
  | @error e he =>
    cases e with
    | trap t => exact tidy_trapCur t hs
    | wait w => exact tidy_waitOn w hs
    | claim w r => exact tidy_waitReady w hs he
    | busy => exact { hs with }
    | short kind inst vd die => exact tidy_shortAccess kind inst vd die (s := { s with held := true }) { hs with }

theorem outTidy_run {s : State} {r : Res State} (hs : TidyState s) (hr : Keeps TidyState r) : OutTidy (run s r) :=
  outTidy_next.2 (tidy_settle hs (keeps_map (hr.mono fun _ h => tidy_advance h)))

theorem outTidy_finish {s : State} (hs : TidyState s) : OutTidy (finish s) := by
  grind [finish, tidy_advance, outTidy_next]

theorem outTidy_atLevelP {s : State} {o : Outcome} (hs : TidyState s) (ho : OutTidy o) : OutTidy (atLevelP s o) := by
  unfold atLevelP
  split
  exacts [ho, outTidy_next.2 (tidy_trapCur _ hs)]

end Sys2Proof.Proofs
end

section
/-! PROOF. Canonical form kept. Semaphores, rings, and the issue and completion of the engines' entries (R152 to R165, R176, R199, R306 to R315). -/

namespace Sys2Proof.Proofs
open Sys2Proof Sys2Proof.Machine Sys2Proof.Claims

/-! ### Semaphores (R306 to R308) -/

theorem tidyCore_setSem {c : Core} (k : ℕ) (v : BitVec 32) (hc : TidyCore c) : TidyCore (setSem c k v) := by
  grind [setSem, tidyCore_iff]

/-! ### Rings (R157 to R163) -/

theorem tidyCore_setRing {c : Core} (n r : ℕ) (hc : TidyCore c) : TidyCore (setRing c n r) := by
  grind [setRing, tabSorted_set, tidyCore_iff]

theorem keeps_ringFault {α : Type} {P : α → Prop} (u : OpUse) : Keeps P (ringFault u) := keeps_trap _

@[simp] theorem quiet_ringChecks (c : Core) (us : List OpUse) : Quiet (ringChecks c us) := by
  unfold ringChecks
  split
  exacts [keeps_ringFault _, quiet_ok _]

theorem tidyCore_claimRing {c : Core} (u : OpUse) (hc : TidyCore c) : TidyCore (claimRing c u).1 := by
  grind [claimRing, tidyCore_setRing]

theorem tidyCore_claimRings {c : Core} (us : List OpUse) (hc : TidyCore c) : TidyCore (claimRings c us).1 := by
  refine foldl_induction (P := fun a : Core × List Claim => TidyCore a.1) (fun a u h => ?_) us hc
  dsimp only
  split
  exacts [tidyCore_claimRing u h, h]

/-! ### Issue (R165) -/

theorem queueTidy_append {q r : List QEntry} (hq : queueTidy q) (hr : queueTidy r) : queueTidy (q ++ r) := fun e he =>
  (List.mem_append.1 he).elim (hq e) (hr e)

theorem queueTidy_singleton {e : QEntry} (he : entryTidy e) : queueTidy [e] := fun _ hx => List.mem_singleton.1 hx ▸ he

theorem tidy_enqueue {s : State} (e : EngineName) {q : QEntry} (hs : TidyState s) (hq : entryTidy q) : TidyState (enqueue s e q) := by
  have h := tidyCore_setQueueOf e hs.core (queueTidy_append (queueTidy_queueOf e hs.core) (queueTidy_singleton (e := { q with seq := s.core.issued }) hq))
  exact tidy_setCore hs { h with }

theorem entryTidy_entryOf (s : State) (i : Instr) : entryTidy (entryOf s i) := by
  grind [entryOf, entryTidy]

theorem keeps_claimAndQueue {s : State} {r : Ready} (hs : TidyState s) (hr : entryTidy r.entry) : Keeps TidyState (claimAndQueue s r) := by
  grind [claimAndQueue, tidyCore_claimRings, tidy_enqueue, tidy_setCur, streamTidy_drawTakes, streamTidy_streamOf, keeps_ok, keeps_error, stopTidy,
    entryTidy, tidyState_iff]

/-- The bins that an instruction brings to its issue are in canonical form. -/
def specTidy (sp : IssueSpec) : Prop := ∀ b, sp.part = .bins b → tabWf 0 b = true

theorem specTidy_of_ne {sp : IssueSpec} (h : ∀ b, sp.part ≠ .bins b) : specTidy sp := fun b hb => absurd hb (h b)

theorem keeps_issueWith {s : State} (i : Instr) {sp : IssueSpec} (count : List Desc → ℕ) {checks : State → List Desc → List Word → ℕ → Res State}
    (hpart : specTidy sp) (hlate : ∀ ds hv, Quiet (sp.late ds hv)) (hchecks : ∀ ds hv n, Keeps TidyState (checks s ds hv n)) :
    Keeps TidyState (issueWith s i sp count checks) := by
  unfold issueWith
  dsimp only
  split
  · exact .error trivial
  · split
    · exact .error trivial
    · split
      · next h => exact (hchecks ..).stop h
      · next h =>
        split
        · next h => exact (quiet_ringChecks ..).stop h
        · split
          · next h => exact (hlate ..).stop h
          · exact keeps_claimAndQueue ((hchecks ..).of_ok h) hpart

theorem keeps_issue {s : State} (i : Instr) {sp : IssueSpec} (count : List Desc → ℕ) {checks : List Desc → List Word → ℕ → Res Unit}
    (hs : TidyState s)
    (hpart : specTidy sp) (hlate : ∀ ds hv, Quiet (sp.late ds hv)) (hchecks : ∀ ds hv n, Quiet (checks ds hv n)) :
    Keeps TidyState (issue s i sp count checks) :=
  keeps_issueWith i count hpart hlate fun ds hv n => keeps_map ((hchecks ds hv n).mono fun _ _ => hs)

theorem quiet_inOrder {rs : List (Res Unit)} (h : ∀ r ∈ rs, Quiet r) : Quiet (inOrder rs) := by
  induction rs with
  | nil => exact quiet_ok _
  | cons r rs ih =>
    obtain ⟨hr, hrs⟩ := List.forall_mem_cons.1 h
    cases hr with
    | ok _ => exact ih hrs
    | error he => exact .error he

@[simp] theorem quiet_noOverlap (dst : Desc) (dcode : ℕ) (srcs : List (ℕ × Desc × Bool)) : Quiet (noOverlap dst dcode srcs) := by
  grind [noOverlap, keeps_faultOp, keeps_ok]

/-! ### The element rows of the fault tables (R176, R199; log 81) -/

@[simp] theorem quiet_touchRange (s : State) (t : Touch) : Quiet (touchRange s t) := by
  grind [touchRange, keeps_withOperand, quiet_require]

@[simp] theorem quiet_touchPage (s : State) (t : Touch) : Quiet (touchPage s t) := by
  grind [touchPage, keeps_withOperand, quiet_translate, keeps_faultVa, keeps_ok, keeps_error]

@[simp] theorem quiet_touchAbsent (s : State) (masked source : Bool) (t : Touch) : Quiet (touchAbsent s masked source t) := by
  grind [touchAbsent, keeps_trap, keeps_ok]

@[simp] theorem quiet_checkTouches (s : State) (masked : Bool) (ts : List Touch) : Quiet (checkTouches s masked ts) := by
  refine quiet_inOrder ?_
  simp only [List.mem_append, List.mem_map]
  rintro _ (((⟨t, -, rfl⟩ | ⟨t, -, rfl⟩) | ⟨t, -, rfl⟩) | ⟨t, -, rfl⟩)
  exacts [quiet_touchRange s t, keeps_map (quiet_touchPage s t), quiet_touchAbsent s masked true t, quiet_touchAbsent s masked false t]

/-! ### Running an entry -/

/-- What a unit of an engine instruction leaves is in canonical form. -/
def UnitTidy (u : UnitOut) : Prop := TidyState u.s ∧ entryTidy u.e

theorem keeps_entryFlags {s : State} (e : QEntry) (fl : Flags) (hs : TidyState s) : Keeps TidyState (entryFlags s e fl) := by
  grind [entryFlags, keeps_raiseFlags]

theorem keeps_progressTo {s : State} {e : QEntry} (i total : ℕ) (hs : TidyState s) (he : entryTidy e) : Keeps UnitTidy (progressTo s e i total) :=
  .ok ⟨hs, he⟩

/-- A function that reads an operand gives a state in canonical form. -/
def ReadsTidy {α : Type} (f : State → ℕ → Res (State × α)) : Prop := ∀ s i, TidyState s → Keeps (fun x => TidyState x.1) (f s i)

theorem keeps_mapRes {α : Type} {f : State → ℕ → Res (State × α)} (hf : ReadsTidy f) {s : State} (is : List ℕ) (hs : TidyState s) :
    Keeps (fun x => TidyState x.1) (mapRes f s is) := by
  induction is generalizing s with
  | nil => exact .ok hs
  | cons i is ih =>
    unfold mapRes
    split
    · next h => exact (hf s i hs).stop h
    · next h =>
      have hs' := (hf s i hs).of_ok h
      split
      · next h => exact (ih hs').stop h
      · next s'' _ h => exact .ok (show TidyState s'' from (ih hs').of_ok h)

theorem readsTidy_placed {α : Type} {f : State → ℕ → Res (State × α)} (dd : Operand) (hf : ReadsTidy f) : ReadsTidy (placed dd f) := by
  intro s i hs
  unfold placed
  split
  · next h => exact (hf s i hs).stop h
  · next h =>
    have hs' := (hf s i hs).of_ok h
    exact keeps_map ((quiet_checkTouches ..).mono fun _ _ => hs')

theorem keeps_writeChecked {s : State} (e : QEntry) (dd : Operand) (i bits : ℕ) (fl : Flags) (hs : TidyState s) :
    Keeps TidyState (writeChecked s e dd i bits fl) := by
  grind [writeChecked, keeps_putElem, keeps_entryFlags, tidy_mergeFlags, keeps_ok]

theorem keeps_putElems {s : State} (o : Operand) (l : List (ℕ × ℕ)) (hs : TidyState s) : Keeps TidyState (putElems s o l) := by
  induction l generalizing s with
  | nil => exact .ok hs
  | cons x l ih => grind [putElems, keeps_putElem, keeps_ok]

theorem keeps_writeBlock {s : State} {e : QEntry} (dd : Operand) (rm : Rm) (is : List ℕ) (xs : List FV) (hs : TidyState s) :
    Keeps TidyState (writeBlock s e dd rm is xs) := by
  unfold writeBlock
  split
  · exact .ok hs
  · dsimp only
    split
    · next h => exact (keeps_opStore _ _ _ hs).stop h
    · next h =>
      have h1 := (keeps_opStore _ _ _ hs).of_ok h
      split
      · next h => exact (keeps_putElems _ _ h1).stop h
      · next h =>
        have h2 := (keeps_putElems _ _ h1).of_ok h
        split
        · next h => exact (keeps_entryFlags _ _ hs).stop h
        · exact .ok (tidy_mergeFlags _ h2)

theorem keeps_unitWrite {s : State} {e : QEntry} (dd : Operand) (rm : Rm) (limit : ℕ) {f : State → ℕ → Res (State × FV)} (hs : TidyState s)
    (he : entryTidy e)
    (hf : ReadsTidy f) : Keeps UnitTidy (unitWrite s e dd rm limit f) := by
  unfold unitWrite
  split
  · exact .ok ⟨hs, he⟩
  · split
    · dsimp only
      have hm := keeps_mapRes (readsTidy_placed dd hf) (blockIndices dd.d e.progress limit) hs
      split
      · next h => exact hm.stop h
      · next xs h =>
        have hw := keeps_writeBlock (e := e) dd rm (blockIndices dd.d e.progress limit) xs (hm.of_ok h)
        split
        · next h => exact hw.stop h
        · next h => exact keeps_progressTo _ _ (hw.of_ok h) he
    · have hx := hf s e.progress hs
      split
      · next h => exact hx.stop h
      · next h =>
        have hs' := hx.of_ok h
        dsimp only
        split
        · next h => exact (keeps_writeChecked _ _ _ _ _ hs').stop h
        · next h => exact keeps_progressTo _ _ ((keeps_writeChecked _ _ _ _ _ hs').of_ok h) he

theorem keeps_unitRaw {s : State} {e : QEntry} (dd : Operand) (limit : ℕ) {f : State → ℕ → Res (State × ℕ)} (hs : TidyState s) (he : entryTidy e)
    (hf : ReadsTidy f) : Keeps UnitTidy (unitRaw s e dd limit f) := by
  have hx := hf s e.progress hs
  unfold unitRaw
  split
  · exact .ok ⟨hs, he⟩
  · split
    · next h => exact hx.stop h
    · next h =>
      have hs' := hx.of_ok h
      split
      · next h => exact (keeps_putElem _ _ _ hs').stop h
      · next h => exact keeps_progressTo _ _ ((keeps_putElem _ _ _ hs').of_ok h) he

theorem keeps_presentBits {s : State} (o : Operand) (i : ℕ) (hs : TidyState s) : Keeps (fun x => TidyState x.1) (presentBits s o i) := by
  grind [presentBits, keeps_elemBits, keeps_trap, keeps_ok, keeps_error]

/-! ### Completion and faults of an engine (R165, R177, R308) -/

theorem tidyCore_giveOf {c : Core} (i : Instr) (hc : TidyCore c) : TidyCore (giveOf c i) := by
  grind [giveOf, tidyCore_setSem]

theorem tidy_completeEntry {s : State} (e : EngineName) (q : QEntry) (hs : TidyState s) : TidyState (completeEntry s e q) :=
  tidy_setCore hs (tidyCore_giveOf q.instr (tidyCore_setQueueOf e hs.core (queueTidy_filter _ (queueTidy_queueOf e hs.core))))

theorem tidy_resumeHeld {s : State} (e : QEntry) (hs : TidyState s) : TidyState (resumeHeld s e) := by
  grind [resumeHeld, tidy_advanceBy]

theorem tidy_setEntry {s : State} (e : EngineName) {q : QEntry} (hs : TidyState s) (hq : entryTidy q) : TidyState (setEntry s e q) := by
  refine tidy_setCore hs (tidyCore_setQueueOf e hs.core (queueTidy_map (queueTidy_queueOf e hs.core) fun p hp => ?_))
  split
  exacts [hq, hp]

theorem tidy_raiseEngineFault {s : State} (core : ℕ) (st : StreamName) (hs : TidyState s) : TidyState (raiseEngineFault s core st) := by
  grind [raiseEngineFault, tidy_updStream, tidy_raiseTrap, streamTidy]

theorem tidy_engineFault {s : State} (eng : EngineName) {q : QEntry} (t : TrapInfo) (hs : TidyState s) (hq : entryTidy q) :
    TidyState (engineFault s eng q t) := by
  grind [engineFault, tidy_setEntry, tidy_standHw, tidy_raiseTrap, tidy_updStream, tidy_raiseEngineFault, streamTidy, entryTidy]

theorem tidyCore_tickCore (s : State) (n : ℕ) {c : Core} (hc : TidyCore c) : TidyCore (tickCore s n c) := by
  grind [tickCore, arrayTidy, tidyCore_iff]

theorem tidy_chargeGrant {s : State} (n core : ℕ) (c : Core) (hs : TidyState s) : TidyState (chargeGrant s n core c) := by
  grind [chargeGrant, tidy_chargePurse]

theorem jobTidy_tickJob {s : State} {n : ℕ} {j i : Job} (hj : jobTidy j) (h : tickJob s n (some j) = some i) : jobTidy i := by
  grind [tickJob, jobTidy]

theorem tidy_passCycles {s : State} (n : ℕ) (hs : TidyState s) : TidyState (passCycles s n) := by
  have h := tidy_foldl (f := fun t (p : ℕ × Core) => chargeGrant t n p.1 p.2) s.others (tidy_chargeGrant n s.focus s.core hs) fun t p ht =>
    tidy_chargeGrant n p.1 p.2 ht
  have hcores : ∀ p ∈ s.others.map fun p => (p.1, tickCore s n p.2), TidyCore p.2 := by
    simp only [List.mem_map]
    rintro _ ⟨p, hp, rfl⟩
    exact tidyCore_tickCore s n (hs.cores p hp)
  have hjobs : ∀ p ∈ s.jobs.map fun p => (p.1, tickJob s n p.2), ∀ j, p.2 = some j → jobTidy j := by
    simp only [List.mem_map]
    rintro _ ⟨p, hp, rfl⟩ i hi
    cases hj : p.2 with
    | none => simp [tickJob, hj] at hi
    | some j => exact jobTidy_tickJob (hs.jobs p hp j hj) (hj ▸ hi)
  exact { h with core := tidyCore_tickCore s n hs.core, others := tabSorted_map (fun p => tickCore s n p.2) hs.others, cores := hcores, jobs := hjobs }

theorem tidy_passTime {s : State} (hs : TidyState s) : TidyState (passTime s) := by
  grind [passTime, tidy_passCycles, tidyState_iff]

theorem outTidy_branchIf {s : State} (cond : Bool) (off : Imm) (hs : TidyState s) : OutTidy (branchIf s cond off) := by
  grind [branchIf, tidy_branchTo, outTidy_finish, outTidy_next]

theorem outTidy_execNop {s : State} (hs : TidyState s) : OutTidy (execNop s) := by
  grind [execNop, outTidy_finish]

theorem outTidy_execB (off : Imm) {s : State} (hs : TidyState s) : OutTidy (execB off s) := by
  grind [execB, tidy_branchTo, outTidy_next]

theorem outTidy_execCall (off : Imm) {s : State} (hs : TidyState s) : OutTidy (execCall off s) := by
  grind [execCall, streamTidy_curStream, tidy_trapCur, tidy_completeAt, tidy_setCur, outTidy_next, streamTidy]

theorem outTidy_execRet {s : State} (hs : TidyState s) : OutTidy (execRet s) := by
  grind [execRet, streamTidy_curStream, tidy_trapCur, tidy_completeAt, tidy_setCur, outTidy_next, streamTidy]

theorem outTidy_execBccEq (ga gb : ℕ) (off : Imm) {s : State} (hs : TidyState s) : OutTidy (execBccEq ga gb off s) := by
  grind [execBccEq, outTidy_branchIf]

theorem outTidy_execBccNe (ga gb : ℕ) (off : Imm) {s : State} (hs : TidyState s) : OutTidy (execBccNe ga gb off s) := by
  grind [execBccNe, outTidy_branchIf]

theorem outTidy_execBccLt (ga gb : ℕ) (off : Imm) {s : State} (hs : TidyState s) : OutTidy (execBccLt ga gb off s) := by
  grind [execBccLt, outTidy_branchIf]

theorem outTidy_execBccGe (ga gb : ℕ) (off : Imm) {s : State} (hs : TidyState s) : OutTidy (execBccGe ga gb off s) := by
  grind [execBccGe, outTidy_branchIf]

theorem outTidy_execBccLtn (ga gb : ℕ) (off : Imm) {s : State} (hs : TidyState s) : OutTidy (execBccLtn ga gb off s) := by
  grind [execBccLtn, outTidy_branchIf]

theorem outTidy_execBccGen (ga gb : ℕ) (off : Imm) {s : State} (hs : TidyState s) : OutTidy (execBccGen ga gb off s) := by
  grind [execBccGen, outTidy_branchIf]

theorem outTidy_execLoop (ga words : ℕ) {s : State} (hs : TidyState s) : OutTidy (execLoop ga words s) := by
  grind [execLoop, streamTidy_curStream, tidy_trapCur, tidy_advanceBy, tidy_completeAt, tidy_setCur, outTidy_next, streamTidy]

theorem outTidy_execRndv {s : State} (hs : TidyState s) : OutTidy (execRndv s) := by
  grind [execRndv, streamTidy_curStream, tidy_trapCur, tidy_retireCur, tidy_setCur, outTidy_next, streamTidy]

theorem outTidy_execWhereQ (gd sel : ℕ) {s : State} (hs : TidyState s) : OutTidy (execWhereQ gd sel s) := by
  grind [execWhereQ, outTidy_finish, tidy_writeNat]

/-! ### Work in the queues -/

theorem queueTidy_allQueued {c : Core} (hc : TidyCore c) : queueTidy (allQueued c) :=
  queueTidy_append (queueTidy_append (queueTidy_append hc.qdata hc.qvec) hc.qmat) hc.qgrp

theorem outTidy_execFence (kind : FenceKind) (scope : Scope) {s : State} (hs : TidyState s) : OutTidy (execFence kind scope s) := by
  grind [execFence, outTidy_finish, tidy_waitOn, outTidy_next]

/-! ### Semaphores (R306, R313 to R315) -/

theorem tidy_deferUpdate {s : State} (i : Instr) (value : Word) (hs : TidyState s) : TidyState (deferUpdate s i value) := by
  grind [deferUpdate, tidy_enqueue, entryTidy_entryOf, entryTidy]

theorem outTidy_updateOrDefer {s : State} (i : Instr) (value : Word) {now : State} (hs : TidyState s) (hnow : TidyState now) :
    OutTidy (updateOrDefer s i value now) := by
  grind [updateOrDefer, outTidy_finish, tidy_deferUpdate, outTidy_next, tidyState_iff]

theorem tidyCore_semAdd {c : Core} (k : ℕ) (v : Word) (hc : TidyCore c) : TidyCore (semAdd c k v) := by
  grind [semAdd, tidyCore_setSem]

theorem outTidy_execSemadd (k ga : ℕ) (imm : ℤ) {s : State} (hs : TidyState s) : OutTidy (execSemadd k ga imm s) := by
  grind [execSemadd, outTidy_updateOrDefer, tidyCore_semAdd, tidyState_iff]

theorem outTidy_execSemset (k ga : ℕ) (imm : ℤ) {s : State} (hs : TidyState s) : OutTidy (execSemset k ga imm s) := by
  grind [execSemset, outTidy_updateOrDefer, tidyCore_setSem, tidyState_iff]

theorem tidy_drawCur {s : State} (k : ℕ) (hs : TidyState s) : TidyState (drawCur s k) := by
  grind [drawCur, tidy_setCur, streamTidy_addDraw, streamTidy_curStream]

theorem outTidy_execSemwait (k ga : ℕ) (imm : ℤ) {s : State} (hs : TidyState s) : OutTidy (execSemwait k ga imm s) := by
  grind [execSemwait, outTidy_finish, tidy_waitOn, outTidy_next]

theorem outTidy_execSemwaitTake (k : ℕ) {s : State} (hs : TidyState s) : OutTidy (execSemwaitTake k s) := by
  grind [execSemwaitTake, outTidy_finish, tidy_drawCur, tidy_waitOn, outTidy_next]

theorem outTidy_execSemtry (gd k : ℕ) (imm : ℤ) {s : State} (hs : TidyState s) : OutTidy (execSemtry gd k imm s) := by
  grind [execSemtry, outTidy_finish, tidy_writeNat]

theorem outTidy_execSemtryTake (gd k : ℕ) {s : State} (hs : TidyState s) : OutTidy (execSemtryTake gd k s) := by
  grind [execSemtryTake, outTidy_finish, tidy_writeNat, tidy_drawCur]

theorem outTidy_execSemrd (gd k : ℕ) {s : State} (hs : TidyState s) : OutTidy (execSemrd gd k s) := by
  grind [execSemrd, outTidy_finish, tidy_writeNat]

theorem outTidy_execSemrdDraw (gd k : ℕ) {s : State} (hs : TidyState s) : OutTidy (execSemrdDraw gd k s) := by
  grind [execSemrdDraw, outTidy_finish, tidy_writeNat]

theorem tidyCore_setPb {c : Core} (k v : ℕ) (hc : TidyCore c) : TidyCore (setPb c k v) := by
  grind [setPb, tidyCore_iff]

theorem outTidy_execSemrdPb (gd k : ℕ) {s : State} (hs : TidyState s) : OutTidy (execSemrdPb gd k s) := by
  grind [execSemrdPb, outTidy_finish, tidy_writeNat]

theorem outTidy_execPbwait (k ga imm : ℕ) {s : State} (hs : TidyState s) : OutTidy (execPbwait k ga imm s) := by
  grind [execPbwait, outTidy_finish, tidy_waitOn, outTidy_next]

theorem tidy_setDescReg {s : State} (k v : ℕ) (hs : TidyState s) : TidyState (setDescReg s k v) := by
  grind [setDescReg, tidyCore_iff, tidyState_iff]

theorem outTidy_execDset (field k ga : ℕ) {s : State} (hs : TidyState s) : OutTidy (execDset field k ga s) := by
  grind [execDset, outTidy_finish, tidy_setDescReg]

theorem outTidy_execDgetf (field gd k : ℕ) {s : State} (hs : TidyState s) : OutTidy (execDgetf field gd k s) := by
  grind [execDgetf, outTidy_finish, tidy_writeNat]

theorem outTidy_execDld (k ga : ℕ) (imm : Imm) {s : State} (hs : TidyState s) : OutTidy (execDld k ga imm s) :=
  outTidy_run hs (keeps_map ((keeps_scalarLoad _ _ hs).mono fun _ h => tidy_setDescReg _ _ h))

theorem outTidy_execDst (k ga : ℕ) (imm : Imm) {s : State} (hs : TidyState s) : OutTidy (execDst k ga imm s) := by
  grind [execDst, outTidy_run, keeps_scalarStore]

theorem outTidy_execDcpy (dd da : ℕ) {s : State} (hs : TidyState s) : OutTidy (execDcpy dd da s) := by
  grind [execDcpy, outTidy_finish, tidy_setDescReg]

theorem outTidy_execDadv (rows : Bool) (k ga : ℕ) {s : State} (hs : TidyState s) : OutTidy (execDadv rows k ga s) := by
  grind [execDadv, outTidy_finish, tidy_setDescReg]

/-! ### Rings (R157 to R163) -/

theorem outTidy_execRinit (n k : ℕ) {s : State} (hs : TidyState s) : OutTidy (execRinit n k s) := by
  grind [execRinit, outTidy_run, quiet_needDesc, keeps_fault, tidyCore_setRing, keeps_ok, keeps_error, tidyState_iff]

theorem keeps_passSlots {c : Core} (n k : ℕ) (commit : Bool) (hc : TidyCore c) : Keeps TidyCore (passSlots c n k commit) := by
  grind [passSlots, tidyCore_setRing, keeps_trap, keeps_ok]

theorem outTidy_passOrDefer {s : State} (i : Instr) (n ga imm : ℕ) (commit : Bool) (hs : TidyState s) :
    OutTidy (passOrDefer s i n ga imm commit) := by
  unfold passOrDefer
  dsimp only
  split
  · exact outTidy_run hs (keeps_map ((keeps_passSlots n _ commit hs.core).mono fun _ h => tidy_setCore hs h))
  · exact outTidy_updateOrDefer i _ hs hs

theorem outTidy_execRcommit (n ga imm : ℕ) {s : State} (hs : TidyState s) : OutTidy (execRcommit n ga imm s) := by
  grind [execRcommit, outTidy_passOrDefer]

theorem outTidy_execRrelease (n ga imm : ℕ) {s : State} (hs : TidyState s) : OutTidy (execRrelease n ga imm s) := by
  grind [execRrelease, outTidy_passOrDefer]

theorem outTidy_execRstat (gd n sel : ℕ) {s : State} (hs : TidyState s) : OutTidy (execRstat gd n sel s) := by
  grind [execRstat, outTidy_finish, tidy_writeNat]

end Sys2Proof.Proofs
end

section
/-! PROOF. Canonical form kept. Units of the data engine and of region arithmetic, and the scalar floating-point instructions (R102 to R110, R164 to
R177, R185 to R199). -/

namespace Sys2Proof.Proofs
open Sys2Proof Sys2Proof.Machine Sys2Proof.Claims

@[simp] theorem quiet_maskDesc (mask : MaskKind) (m : Desc) : Quiet (maskDesc mask m) := by
  grind [maskDesc, quiet_needDesc, keeps_ok]

@[simp] theorem quiet_maskLong (mask : MaskKind) (m : Desc) (rows elems : ℕ) : Quiet (maskLong mask m rows elems) := by
  cases mask <;> grind [maskLong, keeps_faultOp, quiet_ok]

@[simp] theorem quiet_bitMove (da dd : Desc) : Quiet (bitMove da dd) := by
  grind [bitMove, keeps_faultOp, keeps_ok]

theorem outTidy_issueData {s : State} (i : Instr) (sy : Sync) (uses : List (ℕ × ℕ × Bool)) (hregs : List ℕ) (count : List Desc → ℕ)
    {checks : List Desc → Res Unit} (hs : TidyState s) (hchecks : ∀ ds, Quiet (checks ds)) : OutTidy (issueData s i sy uses hregs count checks) :=
  outTidy_run hs (keeps_issue i count hs (specTidy_of_ne fun _ => nofun) (fun _ _ => quiet_ok _) fun ds _ _ => hchecks ds)

theorem outTidy_execDcopy (mask : MaskKind) (dd da : ℕ) (rm : Rm) (sy : Sync) {s : State} (hs : TidyState s) :
    OutTidy (execDcopy mask dd da rm sy s) :=
  outTidy_issueData _ _ _ _ _ hs fun _ => quiet_inOrder (by simp)

theorem outTidy_execDgather (mask : MaskKind) (oob : Bool) (dd da db : ℕ) (rm : Rm) (sy : Sync) {s : State} (hs : TidyState s) :
    OutTidy (execDgather mask oob dd da db rm sy s) :=
  outTidy_issueData _ _ _ _ _ hs fun _ => quiet_inOrder (by simp)

theorem quiet_plainAccumulator (b : Bool) : Quiet (if b then faultOp .descInvalid 1 else .ok ()) := by
  cases b
  exacts [quiet_ok _, keeps_faultOp _ _]

theorem outTidy_issueScatter {s : State} (i : Instr) (mask : MaskKind) (accepts : Fmt → Bool) (accumulate : Bool) (dd da db : ℕ) (sy : Sync)
    (hs : TidyState s) : OutTidy (issueScatter s i mask accepts accumulate dd da db sy) := by
  refine outTidy_issueData _ _ _ _ _ hs fun ds => quiet_inOrder ?_
  simp only [List.forall_mem_cons, quiet_needDesc, quiet_maskDesc, quiet_plainAccumulator, quiet_bitMove, quiet_require, quiet_maskLong, quiet_noOverlap,
    List.not_mem_nil, IsEmpty.forall_iff, implies_true, and_self]

theorem outTidy_execDscatter (mask : MaskKind) (oob : Bool) (dd da db : ℕ) (rm : Rm) (sy : Sync) {s : State} (hs : TidyState s) :
    OutTidy (execDscatter mask oob dd da db rm sy s) := by
  grind [execDscatter, outTidy_issueScatter]

theorem outTidy_execDscata (mask : MaskKind) (oob : Bool) (dd da db : ℕ) (rm : Rm) (sy : Sync) {s : State} (hs : TidyState s) :
    OutTidy (execDscata mask oob dd da db rm sy s) := by
  grind [execDscata, outTidy_issueScatter]

theorem outTidy_execDfill (dd ha : ℕ) (sy : Sync) {s : State} (hs : TidyState s) : OutTidy (execDfill dd ha sy s) := by
  grind [execDfill, outTidy_issueData, quiet_needDesc]

theorem outTidy_issueWalk {s : State} (i : Instr) (da : ℕ) (sy : Sync) (hs : TidyState s) : OutTidy (issueWalk s i da sy) := by
  grind [issueWalk, outTidy_issueData, quiet_needDesc]

theorem outTidy_execDpref (da : ℕ) (sy : Sync) {s : State} (hs : TidyState s) : OutTidy (execDpref da sy s) := by
  grind [execDpref, outTidy_issueWalk]

theorem outTidy_execDflush (da : ℕ) (sy : Sync) {s : State} (hs : TidyState s) : OutTidy (execDflush da sy s) := by
  grind [execDflush, outTidy_issueWalk]

theorem outTidy_execDinv (da : ℕ) (sy : Sync) {s : State} (hs : TidyState s) : OutTidy (execDinv da sy s) := by
  grind [execDinv, outTidy_issueWalk]

theorem outTidy_execDpreq (mask : MaskKind) (da db : ℕ) (sy : Sync) {s : State} (hs : TidyState s) : OutTidy (execDpreq mask da db sy s) := by
  grind [execDpreq, outTidy_issueData, quiet_inOrder, quiet_needDesc, quiet_maskDesc, quiet_maskLong]

/-! ### Elements -/

theorem keeps_sourceVal {s : State} (o : Operand) (masked : Bool) (k : ℕ) (hs : TidyState s) :
    Keeps (fun x => TidyState x.1) (sourceVal s o masked k) := by
  grind [sourceVal, keeps_elemVal, keeps_presentVal, Keeps.map]

theorem keeps_sourceBits {s : State} (o : Operand) (masked : Bool) (k : ℕ) (hs : TidyState s) :
    Keeps (fun x => TidyState x.1) (sourceBits s o masked k) := by
  grind [sourceBits, keeps_elemBits, keeps_presentBits, Keeps.map]

theorem keeps_moveElem {s : State} (e : QEntry) (dd da : Operand) (rm : Rm) (masked : Bool) (fl : Flags) (t : ℕ) (k : Option ℕ) (hs : TidyState s) :
    Keeps (fun x => TidyState x.1) (moveElem s e dd da rm masked fl t k) := by
  cases k with
  | none => exact (keeps_writeChecked e dd t _ fl hs).map fun _ h => h
  | some k => grind [moveElem, keeps_writeChecked, keeps_sourceBits, keeps_sourceVal, keeps_ok, keeps_error, Keeps.map]

theorem keeps_oldElem {s : State} (o : Operand) (t : ℕ) (hs : TidyState s) : Keeps (fun x => TidyState x.1) (oldElem s o t) := by
  have hplain := (keeps_presentVal o t hs).map (f := fun r => (r.1, r.2.1)) (R := fun x => TidyState x.1) fun _ h => h
  unfold oldElem
  dsimp only
  split
  · split
    · exact keeps_faultOp _ _
    · exact (keeps_withOperand (keeps_memAtomic _ _ _ hs)).map fun _ h => h
  · exact hplain

theorem keeps_addElem {s : State} (e : QEntry) (dd da : Operand) (rm : Rm) (masked : Bool) (t k : ℕ) (hs : TidyState s) :
    Keeps (fun x => TidyState x.1) (addElem s e dd da rm masked t k) := by
  grind [addElem, keeps_oldElem, keeps_sourceVal, keeps_writeChecked, keeps_ok, keeps_error, Keeps.map]

theorem keeps_moveBlock {s : State} (e : QEntry) (dd da : Operand) (rm : Rm) (masked : Bool) (fl : Flags) (t : ℕ) (ks : List (Option ℕ))
    (hs : TidyState s) : Keeps (fun x => TidyState x.1) (moveBlock s e dd da rm masked fl t ks) := by
  unfold moveBlock
  dsimp only
  have hm := keeps_mapRes (f := fun (s : State) (j : ℕ) => (match ks.getD j none with
    | none => .ok (s, ((xZero, fl), false))
    | some k => (sourceVal s da masked k).map fun r => (r.1, ((r.2.1.1, fl ||| r.2.1.2), r.2.2)) : Res (State × (FV × Bool)))) (fun s j hs => by
      dsimp only
      split
      · exact .ok hs
      · exact (keeps_sourceVal _ _ _ hs).map fun _ h => h) (upFrom 0 ks.length) hs
  split
  · next h => exact hm.stop h
  · next h => exact (keeps_writeBlock (e := e) dd rm _ _ (hm.of_ok h)).map fun _ h => h

theorem keeps_markMask {s : State} (mask : MaskKind) (m : Operand) (limit rowLen i : ℕ) (flag : Bool) (hits : List Bool) (hs : TidyState s) :
    Keeps (fun x => TidyState x.1) (markMask s mask m limit rowLen i flag hits) := by
  induction hits generalizing s i flag with
  | nil => exact .ok hs
  | cons hit hits ih =>
    cases mask with
    | none => exact .ok hs
    | elems => exact keeps_bind (keeps_putElem m i _ hs) fun _ h => ih _ _ h
    | rows =>
      unfold markMask
      dsimp only
      split
      exacts [keeps_bind (keeps_putElem _ _ _ hs) fun _ h => ih _ _ h, ih _ _ hs]

theorem readsTidy_pickJudged (mask : MaskKind) (m : Operand) (limit rowLen : ℕ) {pick : State → ℕ → Res (State × Pick)} (hpick : ReadsTidy pick) :
    ReadsTidy (pickJudged mask m limit rowLen pick) := by
  intro s i hs
  unfold pickJudged
  split
  · next h => exact (hpick s i hs).stop h
  · next h => exact (quiet_checkTouches ..).map fun _ _ => (hpick s i hs).of_ok h

theorem keeps_moved {s : State} (e : QEntry) (dd da : Operand) (rm : Rm) (masked scaled add : Bool) (dst src : Option ℕ) (srcs : List (Option ℕ))
    (hs : TidyState s) :
    Keeps (fun x => TidyState x.1) (match dst with
      | none => .ok (s, [false])
      | some t =>
        if scaled then moveBlock s e dd da rm masked 0 t srcs
        else if add then (addElem s e dd da rm masked t (src.getD 0)).map fun r => (r.1, [r.2])
        else (moveElem s e dd da rm masked 0 t src).map fun r => (r.1, [r.2])) := by
  split
  · exact .ok hs
  · split
    · exact keeps_moveBlock e dd da rm masked 0 _ srcs hs
    · split
      exacts [(keeps_addElem e _ _ _ _ _ _ hs).map fun _ h => h, (keeps_moveElem _ _ _ _ _ _ _ _ hs).map fun _ h => h]

theorem keeps_moveUnit {s : State} {e : QEntry} (mask : MaskKind) (dd da m : Operand) (rm : Rm) (add : Bool) (limit rowLen : ℕ)
    {pick : State → ℕ → Res (State × Pick)} (hs : TidyState s) (he : entryTidy e)
    (hpick : ReadsTidy pick) : Keeps UnitTidy (moveUnit s e mask dd da m rm add limit rowLen pick) := by
  have hj := readsTidy_pickJudged mask m limit rowLen hpick
  unfold moveUnit
  dsimp only
  split
  · exact .ok ⟨hs, he⟩
  · split
    · next h => exact (hj _ _ hs).stop h
    · next h =>
      have hm (is) := keeps_mapRes hj is ((hj _ _ hs).of_ok h)
      split
      · next h => exact (hm _).stop h
      · next h =>
        have hmoved (scaled : Bool) (dst src) (srcs) := keeps_moved e dd da rm (decide (mask ≠ .none)) scaled add dst src srcs ((hm _).of_ok h)
        split
        · next h => exact (hmoved ..).stop h
        · next h => exact (keeps_markMask _ _ _ _ _ _ _ ((hmoved ..).of_ok h)).map fun _ h => ⟨h, entryTidy_of_ne fun _ => nofun⟩

theorem keeps_indexAt {s : State} (o : Operand) (masked : Bool) (j : ℕ) (hs : TidyState s) :
    Keeps (fun x => TidyState x.1) (indexAt s o masked j) := by
  grind [indexAt, keeps_sourceVal, Keeps.map]

theorem keeps_pickIndexed {s : State} (db : Operand) (masked oob : Bool) (j rows : ℕ) (other : List Touch) (found : ℕ → Pick) (away : Pick)
    (hs : TidyState s) : Keeps (fun x => TidyState x.1) (pickIndexed s db masked oob j rows other found away) := by
  grind [pickIndexed, quiet_checkTouches, keeps_indexAt, keeps_fault, keeps_ok, keeps_error, Keeps.map]

theorem keeps_unitDcopy {s : State} {e : QEntry} (mask : MaskKind) (rm : Rm) (hs : TidyState s) (he : entryTidy e) :
    Keeps UnitTidy (unitDcopy s e mask rm) :=
  keeps_moveUnit _ _ _ _ _ _ _ _ hs he fun _ _ h => .ok h

theorem keeps_unitDgather {s : State} {e : QEntry} (mask : MaskKind) (oob : Bool) (rm : Rm) (hs : TidyState s) (he : entryTidy e) :
    Keeps UnitTidy (unitDgather s e mask oob rm) :=
  keeps_moveUnit _ _ _ _ _ _ _ _ hs he fun _ _ h => keeps_pickIndexed _ _ _ _ _ _ _ _ h

theorem keeps_unitScatter {s : State} {e : QEntry} (mask : MaskKind) (oob add : Bool) (rm : Rm) (hs : TidyState s) (he : entryTidy e) :
    Keeps UnitTidy (unitScatter s e mask oob add rm) :=
  keeps_moveUnit _ _ _ _ _ _ _ _ hs he fun _ _ h => keeps_pickIndexed _ _ _ _ _ _ _ _ h

theorem keeps_unitDfill {s : State} {e : QEntry} (hs : TidyState s) (he : entryTidy e) : Keeps UnitTidy (unitDfill s e) := by
  unfold unitDfill
  exact keeps_unitRaw _ _ hs he fun _ _ h => .ok h

@[simp] theorem quiet_tensorVa (o : Operand) (i : ℕ) : Quiet (tensorVa o i) := by
  grind [tensorVa, keeps_faultOp, keeps_ok]

theorem keeps_unitDpref {s : State} {e : QEntry} (hs : TidyState s) (he : entryTidy e) : Keeps UnitTidy (unitDpref s e) := by
  grind [unitDpref, quiet_tensorVa, keeps_progressTo, tidy_absorb, keeps_trap, keeps_ok, keeps_error, UnitTidy]

theorem keeps_writeBackDue {s : State} {α : Type} {P : α → Prop} {pa : ℕ} {x : Stop} (h : writeBackDue s pa = some x) : Keeps P (.error x) := by
  grind [writeBackDue, keeps_error, stopTidy]

theorem keeps_unitFlush {s : State} {e : QEntry} (hs : TidyState s) (he : entryTidy e) : Keeps UnitTidy (unitFlush s e) := by
  unfold unitFlush
  dsimp only
  split
  · exact .ok ⟨hs, he⟩
  · split
    · next h => exact (quiet_tensorVa ..).stop h
    · split
      · next h => exact (keeps_withOperand (quiet_translate ..)).stop h
      · exact keeps_trap _
      · split
        · exact keeps_trap _
        · split
          · next h => exact keeps_writeBackDue h
          · exact keeps_progressTo _ _ (tidy_writeBackRange _ _ hs) he

@[simp] theorem quiet_preqPage (s : State) (o : Operand) (i : ℕ) : Quiet (preqPage s o i) := by
  unfold preqPage
  split
  · next h => exact (quiet_tensorVa ..).stop h
  · split
    · next h => exact (keeps_withOperand (quiet_translate ..)).stop h
    all_goals
      split
      exacts [keeps_trap _, quiet_ok _]

theorem keeps_preqSettled {s : State} (e : QEntry) (o : Operand) (is : List ℕ) (hs : TidyState s) :
    Keeps (fun x => TidyState x.1) (preqSettled s e o is) := by
  induction is generalizing s with
  | nil => exact .ok hs
  | cons i is ih =>
    unfold preqSettled
    split
    · exact keeps_trap _
    · next h => exact (quiet_preqPage ..).stop h
    · exact ih hs
    · split
      exacts [keeps_trap _, (ih (tidy_postPageRequest _ _ _ _ hs)).map fun _ h => h]

theorem keeps_unitDpreq {s : State} {e : QEntry} (mask : MaskKind) (hs : TidyState s) (he : entryTidy e) : Keeps UnitTidy (unitDpreq s e mask) := by
  have hskip {t : State} (ht : TidyState t) (i : ℕ) : UnitTidy ⟨t, { e with progress := i, stall := none }, false⟩ := ⟨ht, he⟩
  have hasked {t : State} (ht : TidyState t) (i : ℕ) (p q : List ℕ) : UnitTidy ⟨t, { e with progress := i, part := .pages p q, stall := none }, false⟩ :=
    ⟨ht, entryTidy_of_ne fun _ => nofun⟩
  unfold unitDpreq
  dsimp only
  split
  · split
    · next h => exact (keeps_preqSettled _ _ _ hs).stop h
    · next h => exact .ok ⟨(keeps_preqSettled _ _ _ hs).of_ok h, he⟩
  · have hbit (o m : Operand) : Keeps (fun x => TidyState x.1) (match mask with
        | .none => .ok (s, 1)
        | .rows => presentBits s m (e.progress / descCount o.d)
        | .elems => presentBits s m e.progress) := by
      cases mask
      exacts [.ok hs, keeps_presentBits _ _ hs, keeps_presentBits _ _ hs]
    split
    · next h => exact (hbit ..).stop h
    · next h =>
      have hs' := (hbit ..).of_ok h
      split
      · exact .ok (hskip hs' _)
      · split
        · next h => exact (quiet_preqPage ..).stop h
        · exact .ok (hskip hs' _)
        · exact .ok (hasked (tidy_postPageRequest _ _ _ _ hs') _ _ _)

theorem outTidy_flagged {s : State} (gd v : ℕ) (fl : Flags) (hs : TidyState s) : OutTidy (flagged s gd v fl) :=
  outTidy_run hs ((keeps_raiseFlags _ fl hs).map fun _ h => tidy_writeNat h gd v)

theorem outTidy_fArith {s : State} (gd : ℕ) (rm : Rm) (x : FV) (hs : TidyState s) : OutTidy (fArith s gd rm x) := by
  grind [fArith, outTidy_flagged]

theorem outTidy_execFadd (gd ga gb : ℕ) (rm : Rm) {s : State} (hs : TidyState s) : OutTidy (execFadd gd ga gb rm s) := by
  grind [execFadd, outTidy_fArith]

theorem outTidy_execFsub (gd ga gb : ℕ) (rm : Rm) {s : State} (hs : TidyState s) : OutTidy (execFsub gd ga gb rm s) := by
  grind [execFsub, outTidy_fArith]

theorem outTidy_execFmul (gd ga gb : ℕ) (rm : Rm) {s : State} (hs : TidyState s) : OutTidy (execFmul gd ga gb rm s) := by
  grind [execFmul, outTidy_fArith]

theorem outTidy_execFfma (gd ga gb : ℕ) (rm : Rm) {s : State} (hs : TidyState s) : OutTidy (execFfma gd ga gb rm s) := by
  grind [execFfma, outTidy_fArith]

theorem outTidy_execFdiv (gd ga gb : ℕ) (rm : Rm) {s : State} (hs : TidyState s) : OutTidy (execFdiv gd ga gb rm s) := by
  grind [execFdiv, outTidy_fArith]

theorem outTidy_execFsqrt (gd ga : ℕ) (rm : Rm) {s : State} (hs : TidyState s) : OutTidy (execFsqrt gd ga rm s) := by
  grind [execFsqrt, outTidy_fArith]

theorem outTidy_execFmin (gd ga gb : ℕ) {s : State} (hs : TidyState s) : OutTidy (execFmin gd ga gb s) := by
  grind [execFmin, outTidy_finish, tidy_writeNat]

theorem outTidy_execFmax (gd ga gb : ℕ) {s : State} (hs : TidyState s) : OutTidy (execFmax gd ga gb s) := by
  grind [execFmax, outTidy_finish, tidy_writeNat]

theorem outTidy_execFcmp (cc : FCond) (gd ga gb : ℕ) {s : State} (hs : TidyState s) : OutTidy (execFcmp cc gd ga gb s) := by
  grind [execFcmp, outTidy_flagged]

theorem outTidy_execFclass (gd ga : ℕ) {s : State} (hs : TidyState s) : OutTidy (execFclass gd ga s) := by
  grind [execFclass, outTidy_finish, tidy_writeNat]

theorem outTidy_execFcvtTo (gd ga fmt : ℕ) (rm : Rm) {s : State} (hs : TidyState s) : OutTidy (execFcvtTo gd ga fmt rm s) := by
  grind [execFcvtTo, tidy_trapCur, outTidy_flagged, outTidy_next]

theorem outTidy_execFcvtFrom (gd ga fmt : ℕ) (rm : Rm) {s : State} (hs : TidyState s) : OutTidy (execFcvtFrom gd ga fmt rm s) := by
  grind [execFcvtFrom, outTidy_fArith]

@[simp] theorem quiet_needFmt (ok : Bool) (code : ℕ) : Quiet (needFmt ok code) := by
  grind [needFmt, keeps_faultOp, keeps_ok]

@[simp] theorem quiet_unscaled (d : Desc) (code : ℕ) : Quiet (unscaled d code) := by
  grind [unscaled, quiet_needFmt]

@[simp] theorem quiet_paired (src dd : Desc) : Quiet (paired src dd) := by
  grind [paired, quiet_require]

theorem outTidy_issueVec {s : State} (i : Instr) (sy : Sync) (uses : List (ℕ × ℕ × Bool)) (hregs : List ℕ) {checks : List Desc → Res Unit}
    (hs : TidyState s) (hchecks : ∀ ds, Quiet (checks ds)) : OutTidy (issueVec s i sy uses hregs checks) :=
  outTidy_run hs (keeps_issue i vecCount hs (specTidy_of_ne fun _ => nofun) (fun _ _ => quiet_ok _) fun ds _ _ => hchecks ds)

@[simp] theorem quiet_valueChecks (dd : Desc) (srcs : List (ℕ × Desc)) : Quiet (valueChecks dd srcs) := by
  grind [valueChecks, quiet_inOrder, quiet_needDesc, quiet_paired, quiet_noOverlap]

theorem outTidy_issueOne1 {s : State} (i : Instr) (dd da : ℕ) (sy : Sync) (hs : TidyState s) : OutTidy (issueOne1 s i dd da sy) := by
  grind [issueOne1, outTidy_issueVec, quiet_valueChecks]

theorem outTidy_issueTwo {s : State} (i : Instr) (dd da db : ℕ) (sy : Sync) (hs : TidyState s) : OutTidy (issueTwo s i dd da db sy) := by
  grind [issueTwo, outTidy_issueVec, quiet_valueChecks]

theorem outTidy_issueFused {s : State} (i : Instr) (dd da db : ℕ) (sy : Sync) (hs : TidyState s) : OutTidy (issueFused s i dd da db sy) := by
  grind [issueFused, outTidy_issueVec, quiet_valueChecks]

theorem outTidy_issueBits {s : State} (i : Instr) (dd da : ℕ) (others : List ℕ) (sy : Sync) (hs : TidyState s) :
    OutTidy (issueBits s i dd da others sy) := by
  refine outTidy_issueVec _ _ _ _ hs fun ds => quiet_inOrder ?_
  simp only [List.forall_mem_append, List.forall_mem_map, List.forall_mem_cons, quiet_needDesc, quiet_unscaled, quiet_needFmt, quiet_paired,
    quiet_noOverlap, List.not_mem_nil, IsEmpty.forall_iff, implies_true, and_self]

theorem outTidy_issueShift {s : State} (i : Instr) (dd da db : ℕ) (sy : Sync) (hs : TidyState s) : OutTidy (issueShift s i dd da db sy) :=
  outTidy_issueVec _ _ _ _ hs fun _ => quiet_inOrder (by simp)

theorem outTidy_execVadd (dd da db : ℕ) (rm : Rm) (sy : Sync) {s : State} (hs : TidyState s) : OutTidy (execVadd dd da db rm sy s) := by
  grind [execVadd, outTidy_issueTwo]

theorem outTidy_execVsub (dd da db : ℕ) (rm : Rm) (sy : Sync) {s : State} (hs : TidyState s) : OutTidy (execVsub dd da db rm sy s) := by
  grind [execVsub, outTidy_issueTwo]

theorem outTidy_execVmul (dd da db : ℕ) (rm : Rm) (sy : Sync) {s : State} (hs : TidyState s) : OutTidy (execVmul dd da db rm sy s) := by
  grind [execVmul, outTidy_issueTwo]

theorem outTidy_execVfma (dd da db : ℕ) (rm : Rm) (sy : Sync) {s : State} (hs : TidyState s) : OutTidy (execVfma dd da db rm sy s) := by
  grind [execVfma, outTidy_issueFused]

theorem outTidy_execVfms (dd da db : ℕ) (rm : Rm) (sy : Sync) {s : State} (hs : TidyState s) : OutTidy (execVfms dd da db rm sy s) := by
  grind [execVfms, outTidy_issueFused]

theorem outTidy_execVdiv (dd da db : ℕ) (rm : Rm) (sy : Sync) {s : State} (hs : TidyState s) : OutTidy (execVdiv dd da db rm sy s) := by
  grind [execVdiv, outTidy_issueTwo]

theorem outTidy_execVmin (dd da db : ℕ) (rm : Rm) (sy : Sync) {s : State} (hs : TidyState s) : OutTidy (execVmin dd da db rm sy s) := by
  grind [execVmin, outTidy_issueTwo]

theorem outTidy_execVmax (dd da db : ℕ) (rm : Rm) (sy : Sync) {s : State} (hs : TidyState s) : OutTidy (execVmax dd da db rm sy s) := by
  grind [execVmax, outTidy_issueTwo]

theorem outTidy_execVabs (dd da : ℕ) (rm : Rm) (sy : Sync) {s : State} (hs : TidyState s) : OutTidy (execVabs dd da rm sy s) := by
  grind [execVabs, outTidy_issueOne1]

theorem outTidy_execVneg (dd da : ℕ) (rm : Rm) (sy : Sync) {s : State} (hs : TidyState s) : OutTidy (execVneg dd da rm sy s) := by
  grind [execVneg, outTidy_issueOne1]

theorem outTidy_execVand (dd da db : ℕ) (sy : Sync) {s : State} (hs : TidyState s) : OutTidy (execVand dd da db sy s) := by
  grind [execVand, outTidy_issueBits]

theorem outTidy_execVor (dd da db : ℕ) (sy : Sync) {s : State} (hs : TidyState s) : OutTidy (execVor dd da db sy s) := by
  grind [execVor, outTidy_issueBits]

theorem outTidy_execVxor (dd da db : ℕ) (sy : Sync) {s : State} (hs : TidyState s) : OutTidy (execVxor dd da db sy s) := by
  grind [execVxor, outTidy_issueBits]

theorem outTidy_execVnot (dd da : ℕ) (sy : Sync) {s : State} (hs : TidyState s) : OutTidy (execVnot dd da sy s) := by
  grind [execVnot, outTidy_issueBits]

theorem outTidy_execVshl (dd da db : ℕ) (sy : Sync) {s : State} (hs : TidyState s) : OutTidy (execVshl dd da db sy s) := by
  grind [execVshl, outTidy_issueShift]

theorem outTidy_execVshr (dd da db : ℕ) (sy : Sync) {s : State} (hs : TidyState s) : OutTidy (execVshr dd da db sy s) := by
  grind [execVshr, outTidy_issueShift]

theorem outTidy_execVsar (dd da db : ℕ) (sy : Sync) {s : State} (hs : TidyState s) : OutTidy (execVsar dd da db sy s) := by
  grind [execVsar, outTidy_issueShift]

theorem outTidy_execVcvt (dd da : ℕ) (rm : Rm) (sy : Sync) {s : State} (hs : TidyState s) : OutTidy (execVcvt dd da rm sy s) := by
  grind [execVcvt, outTidy_issueOne1]

theorem outTidy_execVexp2 (dd da : ℕ) (rm : Rm) (sy : Sync) {s : State} (hs : TidyState s) : OutTidy (execVexp2 dd da rm sy s) := by
  grind [execVexp2, outTidy_issueOne1]

theorem outTidy_execVlog2 (dd da : ℕ) (rm : Rm) (sy : Sync) {s : State} (hs : TidyState s) : OutTidy (execVlog2 dd da rm sy s) := by
  grind [execVlog2, outTidy_issueOne1]

theorem outTidy_execVrcp (dd da : ℕ) (rm : Rm) (sy : Sync) {s : State} (hs : TidyState s) : OutTidy (execVrcp dd da rm sy s) := by
  grind [execVrcp, outTidy_issueOne1]

theorem outTidy_execVrsq (dd da : ℕ) (rm : Rm) (sy : Sync) {s : State} (hs : TidyState s) : OutTidy (execVrsq dd da rm sy s) := by
  grind [execVrsq, outTidy_issueOne1]

theorem outTidy_execVsqrt (dd da : ℕ) (rm : Rm) (sy : Sync) {s : State} (hs : TidyState s) : OutTidy (execVsqrt dd da rm sy s) := by
  grind [execVsqrt, outTidy_issueOne1]

theorem outTidy_execVtanh (dd da : ℕ) (rm : Rm) (sy : Sync) {s : State} (hs : TidyState s) : OutTidy (execVtanh dd da rm sy s) := by
  grind [execVtanh, outTidy_issueOne1]

theorem outTidy_execVsig (dd da : ℕ) (rm : Rm) (sy : Sync) {s : State} (hs : TidyState s) : OutTidy (execVsig dd da rm sy s) := by
  grind [execVsig, outTidy_issueOne1]

theorem outTidy_execVerf (dd da : ℕ) (rm : Rm) (sy : Sync) {s : State} (hs : TidyState s) : OutTidy (execVerf dd da rm sy s) := by
  grind [execVerf, outTidy_issueOne1]

theorem outTidy_execVsin (dd da : ℕ) (rm : Rm) (sy : Sync) {s : State} (hs : TidyState s) : OutTidy (execVsin dd da rm sy s) := by
  grind [execVsin, outTidy_issueOne1]

theorem outTidy_execVcos (dd da : ℕ) (rm : Rm) (sy : Sync) {s : State} (hs : TidyState s) : OutTidy (execVcos dd da rm sy s) := by
  grind [execVcos, outTidy_issueOne1]

theorem outTidy_execVcmp (cc : VCond) (dd da db : ℕ) (sy : Sync) {s : State} (hs : TidyState s) : OutTidy (execVcmp cc dd da db sy s) :=
  outTidy_issueVec _ _ _ _ hs fun _ => quiet_inOrder (by simp)

theorem outTidy_execVsel (dd da db : ℕ) (rm : Rm) (sy : Sync) {s : State} (hs : TidyState s) : OutTidy (execVsel dd da db rm sy s) :=
  outTidy_issueVec _ _ _ _ hs fun _ => quiet_inOrder (by simp)

theorem outTidy_execVclamp (dd da db : ℕ) (rm : Rm) (sy : Sync) {s : State} (hs : TidyState s) : OutTidy (execVclamp dd da db rm sy s) := by
  grind [execVclamp, outTidy_issueVec, quiet_valueChecks]

theorem outTidy_execVscale (dd da db : ℕ) (rm : Rm) (sy : Sync) {s : State} (hs : TidyState s) : OutTidy (execVscale dd da db rm sy s) :=
  outTidy_issueVec _ _ _ _ hs fun _ => quiet_inOrder (by simp)

theorem outTidy_execVbcast (kind : BcastKind) (dd ha : ℕ) (rm : Rm) (sy : Sync) {s : State} (hs : TidyState s) :
    OutTidy (execVbcast kind dd ha rm sy s) := by
  grind [execVbcast, outTidy_issueVec, quiet_needDesc]

theorem outTidy_execViota (row : Bool) (dd ha hb : ℕ) (rm : Rm) (sy : Sync) {s : State} (hs : TidyState s) :
    OutTidy (execViota row dd ha hb rm sy s) := by
  grind [execViota, outTidy_issueVec, quiet_needDesc]

theorem outTidy_execVperm (oob : Bool) (dd da db : ℕ) (rm : Rm) (sy : Sync) {s : State} (hs : TidyState s) :
    OutTidy (execVperm oob dd da db rm sy s) :=
  outTidy_issueVec _ _ _ _ hs fun _ => quiet_inOrder (by simp)

theorem outTidy_execVmov (dd da : ℕ) (sy : Sync) {s : State} (hs : TidyState s) : OutTidy (execVmov dd da sy s) := by
  grind [execVmov, outTidy_issueBits]

/-! ### Elements -/

theorem keeps_pairedVal {s : State} (o : Operand) (dd : Desc) (i : ℕ) (hs : TidyState s) : Keeps (fun x => TidyState x.1) (pairedVal s o dd i) := by
  grind [pairedVal, keeps_presentVal]

theorem keeps_pairedBits {s : State} (o : Operand) (dd : Desc) (i : ℕ) (hs : TidyState s) : Keeps (fun x => TidyState x.1) (pairedBits s o dd i) := by
  grind [pairedBits, keeps_presentBits]

theorem keeps_unitVal {s : State} {e : QEntry} (rm : Rm) (srcs : List Operand) (f : Bool → List XR → FV) (hs : TidyState s) (he : entryTidy e) :
    Keeps UnitTidy (unitVal s e rm srcs f) :=
  keeps_unitWrite _ rm _ hs he fun _ _ h => (keeps_mapRes (fun _ _ h => keeps_pairedVal _ _ _ h) _ h).map fun _ h => h

theorem keeps_unitOf1 {s : State} {e : QEntry} (rm : Rm) (f : XR → FV) (hs : TidyState s) (he : entryTidy e) : Keeps UnitTidy (unitOf1 s e rm f) := by
  grind [unitOf1, keeps_unitVal]

theorem keeps_unitOf2 {s : State} {e : QEntry} (rm : Rm) (f : Bool → XR → XR → FV) (hs : TidyState s) (he : entryTidy e) :
    Keeps UnitTidy (unitOf2 s e rm f) := by
  grind [unitOf2, keeps_unitVal]

theorem keeps_unitFused {s : State} {e : QEntry} (rm : Rm) (minus : Bool) (hs : TidyState s) (he : entryTidy e) :
    Keeps UnitTidy (unitFused s e rm minus) := by
  grind [unitFused, keeps_unitVal]

theorem keeps_unitBits {s : State} {e : QEntry} {f : State → ℕ → Res (State × ℕ × Flags)} (hs : TidyState s) (he : entryTidy e) (hf : ReadsTidy f) :
    Keeps UnitTidy (unitBits s e f) := by
  have hx := hf s e.progress hs
  grind [unitBits, keeps_writeChecked, keeps_progressTo, keeps_ok, keeps_error, UnitTidy]

theorem keeps_unitBitwise {s : State} {e : QEntry} (f : ℕ → ℕ → ℕ) (hs : TidyState s) (he : entryTidy e) : Keeps UnitTidy (unitBitwise s e f) := by
  unfold unitBitwise
  refine keeps_unitBits hs he fun s i hs => ?_
  grind [keeps_pairedBits, keeps_ok, keeps_error, Keeps.map]

theorem keeps_unitBitwise1 {s : State} {e : QEntry} (f : ℕ → ℕ) (hs : TidyState s) (he : entryTidy e) : Keeps UnitTidy (unitBitwise1 s e f) :=
  keeps_unitBits hs he fun _ _ h => (keeps_pairedBits _ _ _ h).map fun _ h => h

theorem keeps_unitShift {s : State} {e : QEntry} (f : ℕ → ℕ → ℤ → ℕ) (hs : TidyState s) (he : entryTidy e) : Keeps UnitTidy (unitShift s e f) := by
  unfold unitShift
  refine keeps_unitBits hs he fun s i hs => ?_
  grind [keeps_pairedBits, keeps_pairedVal, keeps_ok, keeps_error, Keeps.map]

theorem keeps_unitVcmp {s : State} {e : QEntry} (cc : VCond) (hs : TidyState s) (he : entryTidy e) : Keeps UnitTidy (unitVcmp s e cc) := by
  unfold unitVcmp
  refine keeps_unitBits hs he fun s i hs => ?_
  grind [keeps_pairedVal, keeps_ok, keeps_error, Keeps.map]

theorem keeps_unitVsel {s : State} {e : QEntry} (rm : Rm) (hs : TidyState s) (he : entryTidy e) : Keeps UnitTidy (unitVsel s e rm) := by
  refine keeps_unitWrite _ rm _ hs he fun s i hs => ?_
  grind [keeps_pairedBits, keeps_pairedVal, keeps_ok, keeps_error, Keeps.map]

theorem keeps_unitVclamp {s : State} {e : QEntry} (rm : Rm) (hs : TidyState s) (he : entryTidy e) : Keeps UnitTidy (unitVclamp s e rm) := by
  grind [unitVclamp, keeps_unitVal]

theorem keeps_unitVscale {s : State} {e : QEntry} (rm : Rm) (hs : TidyState s) (he : entryTidy e) : Keeps UnitTidy (unitVscale s e rm) := by
  grind [unitVscale, keeps_unitOf2]

theorem keeps_unitVbcast {s : State} {e : QEntry} (kind : BcastKind) (rm : Rm) (hs : TidyState s) (he : entryTidy e) :
    Keeps UnitTidy (unitVbcast s e kind rm) :=
  keeps_unitWrite _ rm _ hs he fun _ _ h => .ok h

theorem keeps_unitViota {s : State} {e : QEntry} (row : Bool) (rm : Rm) (hs : TidyState s) (he : entryTidy e) :
    Keeps UnitTidy (unitViota s e row rm) :=
  keeps_unitWrite _ rm _ hs he fun _ _ h => .ok h

theorem keeps_permIndex {s : State} (dd da db : Operand) (oob : Bool) (i : ℕ) (hs : TidyState s) :
    Keeps (fun x => TidyState x.1) (permIndex s dd da db oob i) := by
  grind [permIndex, quiet_checkTouches, keeps_pairedVal, keeps_fault, keeps_ok, keeps_error, Keeps.map]

theorem keeps_unitVperm {s : State} {e : QEntry} (oob : Bool) (rm : Rm) (hs : TidyState s) (he : entryTidy e) :
    Keeps UnitTidy (unitVperm s e oob rm) := by
  have hindex (dd da db : Operand) : ReadsTidy fun s i => (permIndex s dd da db oob i).map fun r => (r.1, (r.2.1, r.2.2)) := fun _ _ h =>
    (keeps_permIndex _ _ _ _ _ h).map fun _ h => h
  have hmoved {t : State} (ht : TidyState t) (dd da : Operand) (fl : Flags) (i j : ℕ) (k : Option ℕ) (ks : List (Option ℕ)) :
      Keeps (fun x => TidyState x.1) (if (descScale dd.d).isSome then moveBlock t e dd da rm false fl i ks
        else (moveElem t e dd da rm false fl j k).map fun r => (r.1, [r.2])) := by
    split
    exacts [keeps_moveBlock _ _ _ _ _ _ _ _ ht, (keeps_moveElem _ _ _ _ _ _ _ _ ht).map fun _ h => h]
  unfold unitVperm
  dsimp only
  split
  · exact .ok ⟨hs, he⟩
  · split
    · next h => exact (keeps_mapRes (hindex _ _ _) _ hs).stop h
    · next h =>
      have hs' := (keeps_mapRes (hindex _ _ _) _ hs).of_ok h
      split
      · next h => exact (hmoved hs' ..).stop h
      · next h => exact keeps_progressTo _ _ ((hmoved hs' ..).of_ok h) he

end Sys2Proof.Proofs
end

section
/-! PROOF. Canonical form kept. Reductions, selection, histograms, sorting and the ranking unit (R201 to R225). -/

namespace Sys2Proof.Proofs
open Sys2Proof Sys2Proof.Machine Sys2Proof.Claims

/-! ### Issue (R201 to R203, R224) -/

@[simp] theorem quiet_intDest (d : Desc) (code : ℕ) : Quiet (intDest d code) := by
  grind [intDest, quiet_needFmt]

@[simp] theorem quiet_apart (dd : Desc) (dcode : ℕ) (srcs : List (ℕ × Desc)) : Quiet (apart dd dcode srcs) := by
  grind [apart, quiet_noOverlap]

@[simp] theorem quiet_destsApart (a b : Desc) : Quiet (destsApart a b) := by
  grind [destsApart, keeps_faultOp, keeps_ok]

@[simp] theorem quiet_shape (b : Bool) : Quiet (shape b) := by
  grind [shape, quiet_require]

theorem outTidy_issueSel {s : State} (i : Instr) (sy : Sync) (uses : List (ℕ × ℕ × Bool)) (hregs : List ℕ) (count : List Desc → ℕ)
    {checks : List Desc → Res Unit} (hs : TidyState s) (hchecks : ∀ ds, Quiet (checks ds)) : OutTidy (issueSel s i sy uses hregs count checks) :=
  outTidy_run hs (keeps_issue i count hs (specTidy_of_ne fun _ => nofun) (fun _ _ => quiet_ok _) fun ds _ _ => hchecks ds)

theorem outTidy_execVred (op : RedOp) (len : Bool) (dd da : ℕ) (rm : Rm) (sy : Sync) {s : State} (hs : TidyState s) :
    OutTidy (execVred op len dd da rm sy s) := by
  grind [execVred, outTidy_issueSel, quiet_inOrder, quiet_needDesc, quiet_shape, quiet_apart]

theorem outTidy_execVscan (op : ScanOp) (excl : Bool) (dd da : ℕ) (rm : Rm) (sy : Sync) {s : State} (hs : TidyState s) :
    OutTidy (execVscan op excl dd da rm sy s) := by
  grind [execVscan, outTidy_issueSel, quiet_inOrder, quiet_needDesc, quiet_shape, quiet_apart]

theorem outTidy_execVdot (len : Bool) (dd da db : ℕ) (rm : Rm) (sy : Sync) {s : State} (hs : TidyState s) : OutTidy (execVdot len dd da db rm sy s) :=
  outTidy_issueSel _ _ _ _ _ hs fun _ => quiet_inOrder (by simp)

theorem quiet_distFmts (ham : Prop) [Decidable ham] (a b : Desc) :
    Quiet (if ham then inOrder [unscaled a 2, unscaled b 3, needFmt (descWidth a = descWidth b) 3] else needFmt (a.fmt = b.fmt && a.sfmt = b.sfmt) 3) :=
  keeps_ite (quiet_inOrder (by simp)) (quiet_needFmt ..)

theorem outTidy_execVdist (metric : Metric) (neg : Bool) (dd da db : ℕ) (rm : Rm) (sy : Sync) {s : State} (hs : TidyState s) :
    OutTidy (execVdist metric neg dd da db rm sy s) := by
  refine outTidy_issueSel _ _ _ _ _ hs fun ds => quiet_inOrder ?_
  simp only [List.forall_mem_cons, quiet_needDesc, quiet_distFmts, quiet_shape, quiet_apart, List.not_mem_nil, IsEmpty.forall_iff, implies_true, and_self]

theorem outTidy_execVthrc (ge len : Bool) (dd da db : ℕ) (sy : Sync) {s : State} (hs : TidyState s) : OutTidy (execVthrc ge len dd da db sy s) :=
  outTidy_issueSel _ _ _ _ _ hs fun _ => quiet_inOrder (by simp)

@[simp] theorem quiet_packDest (idx : Bool) (a d : Desc) : Quiet (packDest idx a d) := by
  grind [packDest, quiet_intDest, quiet_needFmt]

theorem outTidy_execVcomp (fill idx : Bool) (dd da db : ℕ) (rm : Rm) (sy : Sync) {s : State} (hs : TidyState s) :
    OutTidy (execVcomp fill idx dd da db rm sy s) :=
  outTidy_issueSel _ _ _ _ _ hs fun _ => quiet_inOrder (by simp)

theorem outTidy_execVexpd (fill : Bool) (dd da db : ℕ) (rm : Rm) (sy : Sync) {s : State} (hs : TidyState s) :
    OutTidy (execVexpd fill dd da db rm sy s) :=
  outTidy_issueSel _ _ _ _ _ hs fun _ => quiet_inOrder (by simp)

@[simp] theorem quiet_histChecks (one : Bool) (ds : List Desc) (hv : List Word) : Quiet (histChecks one ds hv) := by
  grind [histChecks, quiet_require]

theorem outTidy_execVhist (acc one : Bool) (dd da hb : ℕ) (sy : Sync) {s : State} (hs : TidyState s) : OutTidy (execVhist acc one dd da hb sy s) :=
  outTidy_run hs (keeps_issue _ _ hs (fun _ h => by cases h; rfl) (fun _ _ => quiet_histChecks ..) fun _ _ _ => quiet_inOrder (by simp))

theorem outTidy_execVxform (desc inv : Bool) (dd da : ℕ) (sy : Sync) {s : State} (hs : TidyState s) : OutTidy (execVxform desc inv dd da sy s) :=
  outTidy_issueSel _ _ _ _ _ hs fun _ => quiet_inOrder (by simp)

theorem outTidy_execVmaxi (len : Bool) (dd da : ℕ) (rm : Rm) (sy : Sync) {s : State} (hs : TidyState s) : OutTidy (execVmaxi len dd da rm sy s) :=
  outTidy_issueSel _ _ _ _ _ hs fun _ => quiet_inOrder (by simp)

theorem outTidy_execVsort (desc perm : Bool) (dd da : ℕ) (rm : Rm) (sy : Sync) {s : State} (hs : TidyState s) :
    OutTidy (execVsort desc perm dd da rm sy s) := by
  grind [execVsort, outTidy_issueSel, quiet_inOrder, quiet_needDesc, quiet_intDest, quiet_shape, quiet_apart, quiet_destsApart]

theorem outTidy_execVranki (small int : Bool) (ha : ℕ) (sy : Sync) {s : State} (hs : TidyState s) : OutTidy (execVranki small int ha sy s) :=
  outTidy_run hs (keeps_issue _ _ hs (specTidy_of_ne fun _ => nofun) (fun _ _ => quiet_require ..) fun _ _ _ => quiet_ok _)

theorem outTidy_execVrankp (da db : ℕ) (sy : Sync) {s : State} (hs : TidyState s) : OutTidy (execVrankp da db sy s) :=
  outTidy_run hs (keeps_issue _ _ hs (specTidy_of_ne fun _ => nofun) (fun _ _ => quiet_require ..) fun _ _ _ => quiet_inOrder (by simp))

theorem outTidy_execVranko (keep : Bool) (dd : ℕ) (rm : Rm) (sy : Sync) {s : State} (hs : TidyState s) : OutTidy (execVranko keep dd rm sy s) :=
  outTidy_run hs (keeps_issue _ _ hs (specTidy_of_ne fun _ => nofun) (fun _ _ => quiet_require ..) fun _ _ _ => quiet_inOrder (by simp))

/-! ### Reductions and scans (R206 to R208) -/

theorem keeps_rowVals {s : State} (n : ℕ) {f : State → ℕ → Res (State × FV)} (hs : TidyState s) (hf : ReadsTidy f) :
    Keeps (fun x => TidyState x.1) (rowVals s n f) :=
  keeps_mapRes hf _ hs

theorem keeps_unitReduce {s : State} {e : QEntry} (rm : Rm) (rows len : ℕ) (int : Bool) (comb : XR → XR → FV) (ident : XR) (fin : XR → XR)
    {leaf : State → ℕ → ℕ → Res (State × FV)} (hs : TidyState s) (he : entryTidy e) (hleaf : ∀ s r c, TidyState s → Keeps (fun x => TidyState x.1) (leaf s r c)) :
    Keeps UnitTidy (unitReduce s e rm rows len int comb ident fin leaf) :=
  keeps_unitWrite _ rm rows hs he fun _ r h => (keeps_rowVals len h fun s c hs => hleaf s r c hs).map fun _ h => h

theorem keeps_unitVred {s : State} {e : QEntry} (op : RedOp) (len : Bool) (rm : Rm) (hs : TidyState s) (he : entryTidy e) :
    Keeps UnitTidy (unitVred s e op len rm) := by
  grind [unitVred, keeps_unitReduce, keeps_presentVal, Keeps.map]

theorem keeps_pairVals {s : State} (a b : Operand) (i j : ℕ) (f : XR → XR → FV) (hs : TidyState s) :
    Keeps (fun x => TidyState x.1) (pairVals s a b i j f) := by
  grind [pairVals, keeps_presentVal, keeps_ok, Keeps.map]

theorem keeps_unitVdot {s : State} {e : QEntry} (len : Bool) (rm : Rm) (hs : TidyState s) (he : entryTidy e) :
    Keeps UnitTidy (unitVdot s e len rm) := by
  grind [unitVdot, keeps_unitReduce, keeps_pairVals]

theorem keeps_unitVdist {s : State} {e : QEntry} (metric : Metric) (neg : Bool) (rm : Rm) (hs : TidyState s) (he : entryTidy e) :
    Keeps UnitTidy (unitVdist s e metric neg rm) := by
  grind [unitVdist, keeps_unitReduce, keeps_presentBits, keeps_pairVals, keeps_ok, keeps_error, Keeps.map]

theorem keeps_unitVscan {s : State} {e : QEntry} (op : ScanOp) (excl : Bool) (rm : Rm) (hs : TidyState s) (he : entryTidy e) :
    Keeps UnitTidy (unitVscan s e op excl rm) := by
  have hread (a : Operand) : ReadsTidy fun s i => presentVal s a i := fun _ _ h => keeps_presentVal _ _ h
  have hacc (x : XR) : entryTidy { e with part := .acc x } := entryTidy_of_ne fun _ => nofun
  unfold unitVscan
  dsimp only
  split
  · exact .ok ⟨hs, he⟩
  · split
    · next h => exact (keeps_mapRes (hread _) _ hs).stop h
    · next h =>
      have hs' := (keeps_mapRes (hread _) _ hs).of_ok h
      split
      · split
        · next h => exact (keeps_writeBlock (hs := hs') ..).stop h
        · next h => exact keeps_progressTo _ _ ((keeps_writeBlock (hs := hs') ..).of_ok h) (hacc _)
      · split
        · next h => exact (keeps_writeChecked (hs := hs') ..).stop h
        · next h => exact keeps_progressTo _ _ ((keeps_writeChecked (hs := hs') ..).of_ok h) (hacc _)

/-! ### Counting and packing (R209 to R211) -/

theorem keeps_unitVthrc {s : State} {e : QEntry} (ge len : Bool) (hs : TidyState s) (he : entryTidy e) : Keeps UnitTidy (unitVthrc s e ge len) := by
  have hread (a : Operand) (i : ℕ) : ReadsTidy fun s c => presentVal s a (i + c) := fun _ _ h => keeps_presentVal _ _ h
  unfold unitVthrc
  dsimp only
  split
  · exact .ok ⟨hs, he⟩
  · split
    · next h => exact (keeps_presentVal _ _ hs).stop h
    · next h =>
      have h1 := (keeps_presentVal _ _ hs).of_ok h
      split
      · next h => exact (keeps_rowVals _ h1 (hread _ _)).stop h
      · next h =>
        have h2 := (keeps_rowVals _ h1 (hread _ _)).of_ok h
        split
        · next h => exact (keeps_writeChecked (hs := h2) ..).stop h
        · next h => exact keeps_progressTo _ _ ((keeps_writeChecked (hs := h2) ..).of_ok h) he

theorem readsTidy_put (e : QEntry) (dd da : Operand) (rm : Rm) (ps : List (ℕ × Put)) : ReadsTidy fun (s : State) (j : ℕ) =>
    (match (ps.getD j (0, .keep)).2 with
    | .keep => .ok (s, (0, 0))
    | .zero => .ok (s, ((roundTo xZero (descFmt dd.d) interior).1, 0))
    | .int n => .ok (s, intBits (descFmt dd.d) n)
    | .move k =>
      if rawMove da.d dd.d then (presentBits s da k).map fun r => (r.1, (r.2, 0))
      else (presentVal s da k).map fun r =>
        let w := roundTo r.2.1 (descFmt dd.d) (roundingOf e.vctl e.seed rm dd.d.tag (ps.getD j (0, .keep)).1)
        (r.1, (w.1, r.2.2 ||| w.2)) : Res (State × (Nat × Flags))) := by
  intro s j hs
  dsimp only
  split
  · exact .ok hs
  · exact .ok hs
  · exact .ok hs
  · exact keeps_ite ((keeps_presentBits _ _ hs).map fun _ h => h) ((keeps_presentVal _ _ hs).map fun _ h => h)

theorem keeps_putPlain {s : State} (e : QEntry) (dd da : Operand) (rm : Rm) (ps : List (ℕ × Put)) (hs : TidyState s) :
    Keeps TidyState (putPlain s e dd da rm ps) := by
  unfold putPlain
  dsimp only
  split
  · next h => exact (keeps_mapRes (readsTidy_put e dd da rm ps) _ hs).stop h
  · next h =>
    have hs' := (keeps_mapRes (readsTidy_put e dd da rm ps) _ hs).of_ok h
    split
    · next h => exact (keeps_putElems (hs := hs') ..).stop h
    · next h =>
      have hs'' := (keeps_putElems (hs := hs') ..).of_ok h
      split
      · next h => exact (keeps_entryFlags (hs := hs') ..).stop h
      · exact .ok (tidy_mergeFlags _ hs'')

theorem keeps_putVal {s : State} (da : Operand) (p : Put) (hs : TidyState s) : Keeps (fun x => TidyState x.1) (putVal s da p) := by
  cases p with
  | move k => exact keeps_presentVal da k hs
  | _ => exact .ok hs

theorem keeps_putBlocks {s : State} (e : QEntry) (dd : Operand) (rm : Rm) (fuel : ℕ) (ps : List (ℕ × Option FV)) (hs : TidyState s) :
    Keeps TidyState (putBlocks s e dd rm fuel ps) := by
  induction fuel generalizing s ps with
  | zero => exact .ok hs
  | succ fuel ih =>
    cases ps with
    | nil => exact .ok hs
    | cons p ps =>
      unfold putBlocks
      dsimp only
      split
      · exact ih _ hs
      · split
        · next h => exact (keeps_writeBlock (hs := hs) ..).stop h
        · next h => exact ih _ ((keeps_writeBlock (hs := hs) ..).of_ok h)

theorem keeps_putList {s : State} (e : QEntry) (dd da : Operand) (rm : Rm) (ps : List (ℕ × Put)) (hs : TidyState s) :
    Keeps TidyState (putList s e dd da rm ps) := by
  have hread : ReadsTidy fun s j => putVal s da (ps.getD j (0, .keep)).2 := fun _ _ h => keeps_putVal _ _ h
  unfold putList
  split
  · split
    · next h => exact (keeps_mapRes hread _ hs).stop h
    · next h => exact keeps_putBlocks (hs := (keeps_mapRes hread _ hs).of_ok h) ..
  · exact keeps_putPlain _ _ _ _ _ hs

theorem keeps_packRun {s : State} (b : Operand) (a : Desc) (r fuel room c : ℕ) (hs : TidyState s) :
    Keeps (fun x => TidyState x.1) (packRun s b a r fuel room c) := by
  induction fuel generalizing s room c with
  | zero => exact .ok hs
  | succ fuel ih =>
    unfold packRun
    dsimp only
    split
    · exact .ok hs
    · split
      · next h => exact (keeps_presentBits _ _ hs).stop h
      · next h => exact (ih _ _ ((keeps_presentBits _ _ hs).of_ok h)).map fun _ h => h

theorem keeps_unitVcomp {s : State} {e : QEntry} (fill idx : Bool) (rm : Rm) (hs : TidyState s) (he : entryTidy e) :
    Keeps UnitTidy (unitVcomp s e fill idx rm) := by
  unfold unitVcomp
  dsimp only
  split
  · exact .ok ⟨hs, he⟩
  · split
    · next h => exact (keeps_packRun (hs := hs) ..).stop h
    · next h =>
      have h1 := (keeps_packRun (hs := hs) ..).of_ok h
      split
      · next h => exact (keeps_bind (quiet_checkTouches ..) fun _ _ => keeps_putList (hs := h1) ..).stop h
      · next h =>
        have h2 := (keeps_bind (quiet_checkTouches ..) fun _ _ => keeps_putList (hs := h1) ..).of_ok h
        split
        · next h => exact (keeps_ite (keeps_writeChecked (hs := h2) ..) (.ok h2)).stop h
        · next h => exact keeps_progressTo _ _ ((keeps_ite (keeps_writeChecked (hs := h2) ..) (.ok h2)).of_ok h) (entryTidy_of_ne fun _ => nofun)

theorem keeps_expandRun {s : State} (a b : Operand) (dd : Desc) (fill : Bool) (is : List ℕ) (p : ℕ) (hs : TidyState s) :
    Keeps (fun x => TidyState x.1) (expandRun s a b dd fill is p) := by
  induction is generalizing s p with
  | nil => exact .ok hs
  | cons i is ih =>
    unfold expandRun
    dsimp only
    split
    · next h => exact (keeps_presentBits _ _ hs).stop h
    · next h => exact (ih _ ((keeps_presentBits _ _ hs).of_ok h)).map fun _ h => h

theorem keeps_unitVexpd {s : State} {e : QEntry} (fill : Bool) (rm : Rm) (hs : TidyState s) (he : entryTidy e) :
    Keeps UnitTidy (unitVexpd s e fill rm) := by
  grind [unitVexpd, keeps_expandRun, keeps_putList, keeps_progressTo, keeps_ok, keeps_error, UnitTidy, entryTidy]

/-! ### Histograms and keys (R213, R214) -/

theorem keeps_writeBins {s : State} (e : QEntry) (dd : Operand) (first : ℕ) (acc : Bool) (n : ℕ) (bins : Tab ℕ) (hs : TidyState s) :
    Keeps TidyState (writeBins s e dd first acc n bins) := by
  have hread : ReadsTidy fun (s : State) (b : ℕ) => ((if acc then presentBits s dd (first + b) else .ok (s, 0)).map fun r =>
      (r.1, (min (r.2 + tabGet 0 bins b) (2 ^ 32 - 1), if r.2 + tabGet 0 bins b > 2 ^ 32 - 1 then flagSAT else 0)) : Res (State × (ℕ × Flags))) := fun _ _ h =>
    (keeps_ite (keeps_presentBits _ _ h) (.ok h)).map fun _ h => h
  unfold writeBins
  dsimp only
  split
  · next h => exact (keeps_mapRes hread _ hs).stop h
  · next h =>
    have h1 := (keeps_mapRes hread _ hs).of_ok h
    split
    · next h => exact (keeps_putElems (hs := h1) ..).stop h
    · next h => exact keeps_entryFlags (hs := (keeps_putElems (hs := h1) ..).of_ok h) ..

theorem tabWf_binsOf {e : QEntry} (he : entryTidy e) : tabWf 0 (binsOf e) = true := by
  unfold binsOf
  split
  · next h => exact he _ h
  · rfl

theorem tabWf_histRow (hh p : Word) (w : ℕ) (keys : List ℕ) {bins : Tab ℕ} (hb : tabWf 0 bins = true) :
    tabWf 0 (histRow hh p w keys bins) = true := by
  refine tabWf_foldl (fun t k h => ?_) keys hb
  dsimp only
  split
  exacts [tabWf_set h _ _, h]

theorem keeps_unitVhist {s : State} {e : QEntry} (acc one : Bool) (hs : TidyState s) (he : entryTidy e) : Keeps UnitTidy (unitVhist s e acc one) := by
  have hread (a : Operand) (c0 : ℕ) : ReadsTidy fun s c => presentBits s a (e.progress * c0 + c) := fun _ _ h => keeps_presentBits _ _ h
  unfold unitVhist
  dsimp only
  split
  · exact .ok ⟨hs, he⟩
  · split
    · next h => exact (keeps_mapRes (hread _ _) _ hs).stop h
    · next h =>
      have h1 := (keeps_mapRes (hread _ _) _ hs).of_ok h
      split
      · next h => exact (keeps_ite (keeps_writeBins (hs := h1) ..) (keeps_ite (keeps_writeBins (hs := h1) ..) (.ok h1))).stop h
      · next h =>
        refine keeps_progressTo _ _ ((keeps_ite (keeps_writeBins (hs := h1) ..) (keeps_ite (keeps_writeBins (hs := h1) ..) (.ok h1))).of_ok h) fun b hb => ?_
        cases hb
        split
        exacts [tabWf_histRow _ _ _ _ (tabWf_binsOf he), rfl]

theorem keeps_unitVxform {s : State} {e : QEntry} (desc inv : Bool) (hs : TidyState s) (he : entryTidy e) :
    Keeps UnitTidy (unitVxform s e desc inv) := by
  unfold unitVxform
  exact keeps_unitRaw _ _ hs he fun _ _ h => (keeps_presentBits _ _ h).map fun _ h => h

/-! ### Argmax and sort (R215, R216) -/

theorem keeps_unitVmaxi {s : State} {e : QEntry} (len : Bool) (rm : Rm) (hs : TidyState s) (he : entryTidy e) :
    Keeps UnitTidy (unitVmaxi s e len rm) := by
  have hread (n : ℕ) (a : Operand) (c0 : ℕ) : ReadsTidy fun s r => rowVals s n fun s c => presentVal s a (r * c0 + c) := fun _ _ h =>
    keeps_rowVals _ h fun _ _ h => keeps_presentVal _ _ h
  unfold unitVmaxi
  dsimp only
  split
  · exact .ok ⟨hs, he⟩
  · split
    · next h => exact (keeps_mapRes (hread _ _ _) _ hs).stop h
    · next h =>
      have h1 := (keeps_mapRes (hread _ _ _) _ hs).of_ok h
      have hput {o : Operand} {l : List (ℕ × ℕ)} {f : State → Res Unit} (hf : ∀ s, Quiet (f s)) :
          Keeps TidyState ((putElems _ o l).bind fun s1 => (f s1).map fun _ => s1) := keeps_bind (keeps_putElems o l h1) fun s1 h => (hf s1).map fun _ _ => h
      split
      · next h => exact (hput fun _ => quiet_checkTouches ..).stop h
      · next h =>
        have h2 := (hput fun _ => quiet_checkTouches ..).of_ok h
        split
        · next h => exact (keeps_entryFlags (hs := h2) ..).stop h
        · next h =>
          have h3 := (keeps_entryFlags (hs := h2) ..).of_ok h
          split
          · next h => exact (keeps_ite (keeps_writeBlock (hs := h3) ..) (keeps_writeChecked (hs := h3) ..)).stop h
          · next h => exact keeps_progressTo _ _ ((keeps_ite (keeps_writeBlock (hs := h3) ..) (keeps_writeChecked (hs := h3) ..)).of_ok h) he

theorem keeps_unitVsort {s : State} {e : QEntry} (desc perm : Bool) (rm : Rm) (hs : TidyState s) (he : entryTidy e) :
    Keeps UnitTidy (unitVsort s e desc perm rm) := by
  have hread (a : Operand) (i : ℕ) : ReadsTidy fun s c => presentVal s a (i + c) := fun _ _ h => keeps_presentVal _ _ h
  unfold unitVsort
  dsimp only
  split
  · exact .ok ⟨hs, he⟩
  · split
    · next h => exact (keeps_rowVals _ hs (hread _ _)).stop h
    · next h =>
      have h1 := (keeps_rowVals _ hs (hread _ _)).of_ok h
      split
      · next h => exact (keeps_bind (quiet_checkTouches ..) fun _ _ => keeps_putList (hs := h1) ..).stop h
      · next h =>
        have h2 := (keeps_bind (quiet_checkTouches ..) fun _ _ => keeps_putList (hs := h1) ..).of_ok h
        split
        · next h => exact (keeps_entryFlags (hs := h2) ..).stop h
        · next h =>
          have h3 := (keeps_entryFlags (hs := h2) ..).of_ok h
          split
          · next h => exact (keeps_ite (keeps_putList (hs := h3) ..) (.ok h3)).stop h
          · next h => exact keeps_progressTo _ _ ((keeps_ite (keeps_putList (hs := h3) ..) (.ok h3)).of_ok h) he

/-! ### The ranking unit (R217 to R222) -/

theorem keeps_unitVranki {s : State} {e : QEntry} (small int : Bool) (hs : TidyState s) (he : entryTidy e) :
    Keeps UnitTidy (unitVranki s e small int) := by
  grind [unitVranki, keeps_ok, UnitTidy, tidyCore_iff, tidyState_iff]

theorem tidy_setRank {s : State} (u : RankUnit) (hs : TidyState s) : TidyState { s with core := { s.core with rank := u } } :=
  { hs with core := { hs.core with } }

theorem keeps_unitVrankp {s : State} {e : QEntry} (hs : TidyState s) (he : entryTidy e) : Keeps UnitTidy (unitVrankp s e) := by
  unfold unitVrankp
  dsimp only
  split
  · exact .ok ⟨hs, he⟩
  · split
    · next h => exact (keeps_presentVal _ _ hs).stop h
    · next h =>
      have h1 := (keeps_presentVal _ _ hs).of_ok h
      split
      · next h => exact (keeps_presentBits _ _ h1).stop h
      · next h =>
        have h2 := (keeps_presentBits _ _ h1).of_ok h
        split
        · next h => exact (keeps_entryFlags (hs := h2) ..).stop h
        · next h => exact keeps_progressTo _ _ (tidy_setRank _ ((keeps_entryFlags (hs := h2) ..).of_ok h)) he

theorem keeps_unitVranko {s : State} {e : QEntry} (keep : Bool) (rm : Rm) (hs : TidyState s) (he : entryTidy e) :
    Keeps UnitTidy (unitVranko s e keep rm) := by
  have hclose {t : State} (ht : TidyState t) : TidyState (if keep then t else { t with core := { t.core with rank := RankUnit.idle } }) := by
    split
    exacts [ht, tidy_setRank _ ht]
  have hlast {t : State} {c : Prop} [Decidable c] (ht : TidyState t) :
      TidyState (if c then (if keep then t else { t with core := { t.core with rank := RankUnit.idle } }) else t) := by
    split
    exacts [hclose ht, ht]
  unfold unitVranko
  dsimp only
  split
  · exact .ok ⟨hclose hs, he⟩
  · split
    · next h => exact (keeps_putElems (hs := hs) ..).stop h
    · next h =>
      have h1 := (keeps_putElems (hs := hs) ..).of_ok h
      split
      · next h => exact (keeps_ite (keeps_writeBlock (hs := h1) ..) (keeps_writeChecked (hs := h1) ..)).stop h
      · next h => exact keeps_progressTo _ _ (hlast ((keeps_ite (keeps_writeBlock (hs := h1) ..) (keeps_writeChecked (hs := h1) ..)).of_ok h)) he

end Sys2Proof.Proofs
end

section
/-! PROOF. Canonical form kept. The array: its lease, its state and its passes (R227 to R243). -/

namespace Sys2Proof.Proofs
open Sys2Proof Sys2Proof.Machine Sys2Proof.Claims

/-! ### The lease arbiter (R229, R244) -/

theorem tidy_noteShort {s : State} (array : ℕ) (hs : TidyState s) : TidyState (noteShort s array) :=
  tidy_foldl _ hs fun _ _ h => tidy_shortPurse _ _ _ h

theorem tidy_endGrant {s : State} (core : ℕ) (hs : TidyState s) : TidyState (endGrant s core) := by
  grind [endGrant, tidyCore_coreAt, tidy_putCore, tidy_releaseArray, tidy_saveArray, arrayTidy, tidyCore_iff]

/-! ### Issue (R231, R232, R243) -/

@[simp] theorem quiet_arrayDesc (d : Desc) (accepts : Fmt → Bool) (code : ℕ) : Quiet (arrayDesc d accepts code) := by
  grind [arrayDesc, keeps_faultOp, quiet_needDesc]

theorem outTidy_issueArray {s : State} (i : Instr) (sy : Sync) (uses : List (ℕ × ℕ × Bool)) (hregs : List ℕ) (count : List Desc → ℕ)
    {checks : List Desc → List Word → Res Unit} {late : List Word → Res Unit} (hs : TidyState s) (hchecks : ∀ ds hv, Quiet (checks ds hv))
    (hlate : ∀ hv, Quiet (late hv)) : OutTidy (issueArray s i sy uses hregs count checks late) :=
  outTidy_run hs (keeps_issue i count hs (specTidy_of_ne fun _ => nofun) (fun _ hv => hlate hv) fun ds hv _ => hchecks ds hv)

theorem outTidy_issueHeld {s : State} {r : Res State} (hs : TidyState s) (hr : Keeps TidyState r) : OutTidy (issueHeld s r) := by
  cases hr with
  | ok h => exact outTidy_next.2 (tidy_waitOn _ h)
  | error he => exact outTidy_next.2 (tidy_settle hs (.error he))

theorem outTidy_execXlease (sy : Sync) {s : State} (hs : TidyState s) : OutTidy (execXlease sy s) := by
  have h := keeps_issue (s := s) (.xlease sy) (sp := { engine := .matrix, sync := sy, uses := [], hregs := [] }) (fun _ => 0)
    (checks := fun _ _ _ => require ((curJob s).any fun j => j.kern.array) .leaseNotHeld) hs (specTidy_of_ne fun _ => nofun) (fun _ _ => quiet_ok _)
    fun _ _ _ => quiet_require _ _
  unfold execXlease
  dsimp only
  split
  exacts [outTidy_issueHeld hs h, outTidy_run hs h]

theorem outTidy_execXfree (discard : Bool) (sy : Sync) {s : State} (hs : TidyState s) : OutTidy (execXfree discard sy s) :=
  outTidy_run hs (keeps_issue _ _ hs (specTidy_of_ne fun _ => nofun) (fun _ _ => quiet_ok _) fun _ _ _ => quiet_ok _)

theorem outTidy_execXcellop (ha : ℕ) (sy : Sync) {s : State} (hs : TidyState s) : OutTidy (execXcellop ha sy s) :=
  outTidy_issueArray _ _ _ _ _ hs (fun _ _ => quiet_ok _) fun _ => quiet_require _ _

theorem outTidy_execXzero (fill : ZeroFill) (main : Bool) (sy : Sync) {s : State} (hs : TidyState s) : OutTidy (execXzero fill main sy s) :=
  outTidy_issueArray _ _ _ _ _ hs (fun _ _ => quiet_ok _) fun _ => quiet_ok _

theorem outTidy_execXpass (side : Bool) (da db : ℕ) (sy : Sync) {s : State} (hs : TidyState s) : OutTidy (execXpass side da db sy s) :=
  outTidy_issueArray _ _ _ _ _ hs (fun _ _ => quiet_inOrder (by simp)) fun _ => quiet_ok _

theorem outTidy_execXside (da hb : ℕ) (sy : Sync) {s : State} (hs : TidyState s) : OutTidy (execXside da hb sy s) :=
  outTidy_issueArray _ _ _ _ _ hs (fun _ _ => quiet_inOrder (by simp)) fun _ => quiet_ok _

theorem outTidy_execXsideb (ha : ℕ) (sy : Sync) {s : State} (hs : TidyState s) : OutTidy (execXsideb ha sy s) :=
  outTidy_issueArray _ _ _ _ _ hs (fun _ _ => quiet_require _ _) fun _ => quiet_ok _

@[simp] theorem quiet_shapeOp (b : Bool) (code : ℕ) : Quiet (shapeOp b code) := by
  grind [shapeOp, keeps_faultOp, keeps_ok]

theorem outTidy_execXdrain (zero : Bool) (dd : ℕ) (rm : Rm) (sy : Sync) {s : State} (hs : TidyState s) : OutTidy (execXdrain zero dd rm sy s) :=
  outTidy_issueArray _ _ _ _ _ hs (fun _ _ => quiet_inOrder (by simp)) fun _ => quiet_ok _

theorem outTidy_execXbias (row add : Bool) (da : ℕ) (sy : Sync) {s : State} (hs : TidyState s) : OutTidy (execXbias row add da sy s) :=
  outTidy_issueArray _ _ _ _ _ hs (fun _ _ => quiet_inOrder (by simp)) fun _ => quiet_ok _

/-! ### The head of the queue (R227, R229, R235, R243) -/

theorem keeps_holdHead {s : State} {e : QEntry} (hs : TidyState s) (he : entryTidy e) : Keeps UnitTidy (holdHead s e) := by
  grind [holdHead, keeps_ok, UnitTidy]

theorem keeps_unitXlease {s : State} {e : QEntry} (hs : TidyState s) (he : entryTidy e) : Keeps UnitTidy (unitXlease s e) := by
  grind [unitXlease, keeps_holdHead, tidy_requestLease, keeps_ok, UnitTidy, tidyCore_iff, tidyState_iff]

theorem keeps_unitXfree {s : State} {e : QEntry} (discard : Bool) (hs : TidyState s) (he : entryTidy e) : Keeps UnitTidy (unitXfree s e discard) := by
  grind [unitXfree, keeps_fault, tidy_dropLease, keeps_ok, UnitTidy]

theorem tidy_setLease {s : State} (l : LeaseRight) (hs : TidyState s) : TidyState { s with core := { s.core with lease := l } } :=
  { hs with core := { hs.core with } }

/-- The effect of an array instruction on a core that holds the array leaves a state in canonical form. -/
def EffectTidy (effect : State → QEntry → UnitRes) : Prop := ∀ s e, TidyState s → entryTidy e → Keeps UnitTidy (effect s e)

theorem keeps_onArray {s : State} {e : QEntry} {checks : Res Unit} {effect : State → QEntry → UnitRes} (hs : TidyState s) (he : entryTidy e)
    (hchecks : Quiet checks) (heffect : EffectTidy effect) : Keeps UnitTidy (onArray s e checks effect) := by
  have hgrant : TidyState (if e.started && e.progress ≠ 0 then s else endGrant s s.focus) := by
    split
    exacts [hs, tidy_endGrant _ hs]
  have hpart (b : Bool) : entryTidy { e with started := b } := he
  unfold onArray
  split
  · exact keeps_fault _
  · cases hchecks with
    | error he => exact .error he
    | ok _ =>
      dsimp only
      split
      · exact heffect _ _ hgrant (hpart _)
      · exact keeps_holdHead (tidy_requestLease (tidy_setLease _ hgrant)) (hpart _)
      · exact keeps_holdHead hgrant (hpart _)

theorem tidy_setArr {s : State} {a : ArrayState} (hs : TidyState s) (ha : arrayTidy a) : TidyState { s with core := { s.core with arr := a } } :=
  { hs with core := { hs.core with arr := ha } }

theorem keeps_unitXcellop {s : State} {e : QEntry} (hs : TidyState s) (he : entryTidy e) : Keeps UnitTidy (unitXcellop s e) :=
  keeps_onArray hs he (quiet_ok _) fun _ _ hs he => .ok ⟨tidy_setArr hs hs.core.arr, he⟩

theorem upFrom_pairwise (a n : ℕ) : (upFrom a n).Pairwise (· < ·) := by
  induction n generalizing a with
  | zero => exact .nil
  | succ n ih => exact List.pairwise_cons.2 ⟨fun b hb => (mem_upFrom.1 hb).1, ih (a + 1)⟩

theorem tabWf_filledAcc (bits : ℕ) : tabWf 0 (filledAcc bits) = true := by
  unfold filledAcc
  split
  · rfl
  · next h => simpa [tabWf_iff, tabSorted_iff, List.pairwise_map, h] using upFrom_pairwise 0 32768

theorem keeps_unitXzero {s : State} {e : QEntry} (fill : ZeroFill) (main : Bool) (hs : TidyState s) (he : entryTidy e) :
    Keeps UnitTidy (unitXzero s e fill main) := by
  refine keeps_onArray hs he (quiet_ok _) fun s e hs he => .ok ⟨tidy_setArr hs ?_, he⟩
  split
  exacts [⟨tabWf_filledAcc _, hs.core.arr.2⟩, ⟨tabWf_filledAcc _, rfl⟩]

/-! ### Adapters of the latched map (R235, R240 to R242) -/

theorem keeps_fetchSlots {s : State} (second : Bool) (k0 k : ℕ) (keep slots : List ℕ) (hs : TidyState s) :
    Keeps TidyState (fetchSlots s second k0 k keep slots) := by
  induction slots generalizing s keep with
  | nil => exact .ok hs
  | cons sl slots ih => grind [fetchSlots, keeps_fetchPages, keeps_ok]

@[simp] theorem quiet_factorVal (s : State) (slot layer : ℕ) (second : Bool) (t k : ℕ) : Quiet (factorVal s slot layer second t k) := by
  have hbyte (place : Option ℕ) (off n : ℕ) : Quiet (match place with
      | none => .error .busy
      | some a => if vaultSound s (a + off % 65536) n then .ok (leNat (tabRange 0 s.vaults (a + off % 65536) n)) else fault .sramUncorrected) := by
    cases place
    exacts [.error trivial, keeps_ite (quiet_ok _) (keeps_fault _)]
  unfold factorVal
  split
  · exact keeps_fault _
  · dsimp only
    split
    · next h => exact (hbyte ..).stop h
    · split
      exacts [quiet_ok _, (hbyte ..).map fun _ _ => trivial]

/-! ### A pass (R235, R236) -/

@[simp] theorem quiet_passHead (s : State) (e : QEntry) (side : Bool) : Quiet (passHead s e side) := by
  grind [passHead, quiet_inOrder, quiet_require]

@[simp] theorem quiet_mapM {α β : Type} {f : α → Res β} (l : List α) (hf : ∀ x, Quiet (f x)) : Quiet (l.mapM f) := by
  induction l with
  | nil => exact quiet_ok _
  | cons x l ih =>
    rw [List.mapM_cons]
    exact keeps_bind (hf x) fun _ _ => keeps_bind ih fun _ _ => quiet_ok _

theorem quiet_matrixOf {α : Type} (rows cols : ℕ) {f : ℕ → ℕ → Res α} (hf : ∀ i k, Quiet (f i k)) : Quiet (matrixOf rows cols f) :=
  quiet_mapM _ fun i => quiet_mapM _ fun k => hf i k

@[simp] theorem quiet_sideFactors (s : State) (rows k : ℕ) : Quiet (sideFactors s rows k) :=
  quiet_mapM _ fun _ => keeps_ite (quiet_ok _) (quiet_matrixOf _ _ fun _ _ => quiet_factorVal ..)

theorem keeps_fetchPass {s : State} (e : QEntry) (hs : TidyState s) : Keeps TidyState (fetchPass s e) := by
  unfold fetchPass
  dsimp only
  split
  exacts [keeps_fetchSlots (hs := hs) .., keeps_fetchSlots (hs := hs) .., .ok hs]

theorem tidy_countPass {s : State} (e : QEntry) (hs : TidyState s) : TidyState (countPass s e) := by
  unfold countPass
  split
  exacts [tidy_setArr hs hs.core.arr, hs]

theorem keeps_startArray {s : State} {e : QEntry} {checks : Res Unit} (hs : TidyState s) (he : entryTidy e) (hchecks : Quiet checks) :
    Keeps UnitTidy (startArray s e checks) :=
  keeps_onArray hs he hchecks fun _ _ hs he => (keeps_fetchPass _ hs).map fun _ h => ⟨tidy_countPass _ h, he⟩

theorem tabWf_writeCells {t : Tab ℕ} (cells : List (ℕ × ℕ)) (ht : tabWf 0 t = true) : tabWf 0 (writeCells t cells) = true :=
  tabWf_foldl (fun _ _ h => tabWf_set h _ _) cells ht

theorem keeps_passEffect {s : State} {e : QEntry} (side : Bool) (hs : TidyState s) (he : entryTidy e) : Keeps UnitTidy (passEffect s e side) := by
  have hval (rows cols : ℕ) (o : Operand) (k : ℕ) : Quiet (matrixOf rows cols fun i c => (presentVal s o (i * k + c)).map (·.2)) :=
    quiet_matrixOf _ _ fun _ _ => (keeps_presentVal _ _ hs).map fun _ _ => trivial
  unfold passEffect
  dsimp only
  split
  · next h => exact (hval ..).stop h
  · split
    · next h => exact (keeps_ite (quiet_ok _) (hval ..)).stop h
    · split
      · next h => exact (keeps_ite (quiet_sideFactors ..) (quiet_ok _)).stop h
      · split
        · exact keeps_trap _
        · exact .ok ⟨tidy_mergeFlags _ (tidy_setArr hs ⟨tabWf_writeCells _ hs.core.arr.1, tabWf_writeCells _ hs.core.arr.2⟩), he⟩

theorem keeps_runPass {s : State} {e : QEntry} {checks : Res Unit} {effect : State → UnitRes} (hs : TidyState s) (he : entryTidy e)
    (hchecks : Quiet checks)
    (heffect : ∀ s, TidyState s → Keeps UnitTidy (effect s)) : Keeps UnitTidy (runPass s e checks effect) := by
  unfold runPass
  split
  · split
    · next h => exact (keeps_fetchPass _ hs).stop h
    · next h => exact heffect _ ((keeps_fetchPass _ hs).of_ok h)
  · exact keeps_startArray hs he hchecks

theorem keeps_unitXpass {s : State} {e : QEntry} (side : Bool) (hs : TidyState s) (he : entryTidy e) : Keeps UnitTidy (unitXpass s e side) := by
  grind [unitXpass, keeps_runPass, quiet_passHead, keeps_passEffect]

/-! ### XSIDE and XSIDEB (R240, R242) -/

@[simp] theorem quiet_readMap (s : State) (base layer : ℕ) : Quiet (readMap s base layer) := by
  refine quiet_mapM _ fun g => ?_
  split
  · next h => exact (keeps_withOperand (quiet_spadLoad ..)).stop h
  · exact keeps_ite (keeps_faultOp _ _) (keeps_ite (quiet_ok _) (keeps_ite (keeps_faultOp _ _) (keeps_ite (keeps_fault _) (quiet_ok _))))

theorem keeps_unitXside {s : State} {e : QEntry} (hs : TidyState s) (he : entryTidy e) : Keeps UnitTidy (unitXside s e) := by
  have hmap (c : Prop) [Decidable c] (base layer : ℕ) : Quiet (if c then readMap s base layer else faultOp .sideNoAdapter 2) :=
    keeps_ite (quiet_readMap ..) (keeps_faultOp _ _)
  unfold unitXside
  dsimp only
  refine keeps_onArray hs he ((hmap ..).map fun _ _ => trivial) fun s e hs he => ?_
  split
  · next h => exact (hmap ..).stop h
  · exact .ok ⟨tidy_sweepSlots (tidy_setArr hs ⟨hs.core.arr.1, rfl⟩), he⟩

@[simp] theorem quiet_sidebHead (s : State) (e : QEntry) : Quiet (sidebHead s e) := by
  grind [sidebHead, quiet_inOrder, quiet_require]

theorem keeps_sidebEffect {s : State} {e : QEntry} (hs : TidyState s) (he : entryTidy e) : Keeps UnitTidy (sidebEffect s e) := by
  unfold sidebEffect
  dsimp only
  split
  · next h => exact (quiet_mapM _ fun _ => quiet_matrixOf _ _ fun _ _ => quiet_factorVal ..).stop h
  · split
    · exact keeps_trap _
    · exact .ok ⟨tidy_mergeFlags _ (tidy_setArr hs ⟨tabWf_writeCells _ hs.core.arr.1, hs.core.arr.2⟩), he⟩

theorem keeps_unitXsideb {s : State} {e : QEntry} (hs : TidyState s) (he : entryTidy e) : Keeps UnitTidy (unitXsideb s e) := by
  grind [unitXsideb, keeps_runPass, quiet_sidebHead, keeps_sidebEffect]

/-! ### XDRAIN and XBIAS (R238, R239) -/

theorem keeps_unitXdrain {s : State} {e : QEntry} (zero : Bool) (rm : Rm) (hs : TidyState s) (he : entryTidy e) :
    Keeps UnitTidy (unitXdrain s e zero rm) := by
  unfold unitXdrain
  refine keeps_onArray hs he (keeps_ite (quiet_ok _) (keeps_faultOp _ _)) fun s e hs he => ?_
  refine (keeps_unitWrite _ rm _ hs he fun _ _ h => .ok h).map fun o ho => ?_
  split
  exacts [⟨tidy_setArr ho.1 ⟨rfl, rfl⟩, ho.2⟩, ho]

theorem keeps_unitXbias {s : State} {e : QEntry} (row add : Bool) (hs : TidyState s) (he : entryTidy e) : Keeps UnitTidy (unitXbias s e row add) := by
  unfold unitXbias
  refine keeps_onArray hs he (quiet_ok _) fun s e hs he => ?_
  split
  · exact .ok ⟨hs, he⟩
  · dsimp only
    split
    · next h => exact (keeps_presentVal _ _ hs).stop h
    · next h =>
      have h1 := (keeps_presentVal _ _ hs).of_ok h
      split
      · next h => exact (keeps_entryFlags (hs := h1) ..).stop h
      · next h =>
        have h2 := (keeps_entryFlags (hs := h1) ..).of_ok h
        exact keeps_progressTo _ _ (tidy_setArr h2 ⟨tabWf_set h2.core.arr.1 _ _, h2.core.arr.2⟩) he

end Sys2Proof.Proofs
end

section
/-! PROOF. Canonical form kept. The adapter and group instructions: issue, binding and release, contributions and results (R246 to R262, R322 to
R335). -/

namespace Sys2Proof.Proofs
open Sys2Proof Sys2Proof.Machine Sys2Proof.Claims

/-! ### Issue (R255, R261) -/

/-- An operand fault stops a computation. -/
@[simp] theorem quiet_faultOp {α : Type} (c : Cause) (o : ℕ) : Quiet (faultOp c o : Res α) := keeps_faultOp c o

/-- A check made in one case only. -/
@[simp] theorem quiet_ite {α : Type} {c : Prop} [Decidable c] {a b : Res α} (ha : Quiet a) (hb : Quiet b) :
    Quiet (if c then a else b) := keeps_ite ha hb

@[simp] theorem quiet_mapDesc (d : Desc) : Quiet (mapDesc d) := by
  grind [mapDesc, keeps_faultOp, quiet_ok]

theorem outTidy_execAres (dd da hb : ℕ) (sy : Sync) {s : State} (hs : TidyState s) : OutTidy (execAres dd da hb sy s) :=
  outTidy_run hs (keeps_issue _ _ hs (specTidy_of_ne fun _ => nofun) (fun _ _ => quiet_ok _) fun _ _ _ => quiet_inOrder (by simp))

theorem outTidy_execArel (dd : ℕ) (sy : Sync) {s : State} (hs : TidyState s) : OutTidy (execArel dd sy s) :=
  outTidy_run hs (keeps_issue _ _ hs (specTidy_of_ne fun _ => nofun) (fun _ _ => quiet_ok _) fun _ _ _ => quiet_inOrder (by simp))

theorem outTidy_execAqry (sel : AqrySel) (hd ha : ℕ) (sy : Sync) {s : State} (hs : TidyState s) : OutTidy (execAqry sel hd ha sy s) :=
  outTidy_issueHeld hs (keeps_issue _ _ hs (specTidy_of_ne fun _ => nofun) (fun _ _ => quiet_ok _) fun _ _ _ => quiet_ok _)

theorem outTidy_execApub (hd ha hb : ℕ) (sy : Sync) {s : State} (hs : TidyState s) : OutTidy (execApub hd ha hb sy s) :=
  outTidy_issueHeld hs (keeps_issue _ _ hs (specTidy_of_ne fun _ => nofun) (fun _ _ => quiet_ok _) fun _ _ _ => quiet_require _ _)

/-! ### ARES (R256) -/

theorem keeps_bindSlot {s : State} (i : ℕ) (hs : TidyState s) : Keeps (fun x => TidyState x.1) (bindSlot s i) := by
  unfold bindSlot
  dsimp only
  split
  · exact .ok (tidy_setSlots _ hs)
  · split
    · exact keeps_fault _
    · split
      · exact keeps_fault _
      · exact .ok (tidy_setCore (tidy_setAtt _ _ hs) (tidy_setSlots _ hs).core)

theorem keeps_resolveHandle {s : State} (hh l0 n : ℕ) (hs : TidyState s) : Keeps (fun x => TidyState x.1) (resolveHandle s hh l0 n) := by
  grind [resolveHandle, keeps_faultOp, keeps_fault, keeps_bindSlot, keeps_ok]

theorem keeps_fetchWindow {s : State} (slot l0 n : ℕ) (hs : TidyState s) : Keeps TidyState (fetchWindow s slot l0 n) := by
  grind [fetchWindow, keeps_fetchPages, keeps_ok]

theorem keeps_fetchWindows {s : State} (l0 n : ℕ) (ks : List ℕ) (hs : TidyState s) : Keeps TidyState (fetchWindows s l0 n ks) := by
  induction ks generalizing s with
  | nil => exact .ok hs
  | cons k ks ih => grind [fetchWindows, keeps_fetchWindow, keeps_ok]

theorem keeps_unitAres {s : State} {e : QEntry} (hs : TidyState s) (he : entryTidy e) : Keeps UnitTidy (unitAres s e) := by
  unfold unitAres
  dsimp only
  split
  · exact (keeps_fetchWindows (hs := hs) ..).map fun _ h => ⟨h, he⟩
  · refine keeps_ite (keeps_faultOp _ _) ?_
    split
    · next h => exact (keeps_presentBits _ _ hs).stop h
    · next h =>
      have h1 := (keeps_presentBits _ _ hs).of_ok h
      split
      · next h => exact (keeps_resolveHandle (hs := h1) ..).stop h
      · next h =>
        have h2 := (keeps_resolveHandle (hs := h1) ..).of_ok h
        split
        · next h => exact (keeps_withOperand (keeps_spadStore (hs := h2) ..)).stop h
        · next h => exact .ok ⟨(keeps_withOperand (keeps_spadStore (hs := h2) ..)).of_ok h, entryTidy_of_ne fun _ => nofun⟩

/-! ### AREL, AQRY, APUB -/

theorem keeps_unitArel {s : State} {e : QEntry} (hs : TidyState s) (he : entryTidy e) : Keeps UnitTidy (unitArel s e) := by
  unfold unitArel
  dsimp only
  split
  · exact .ok ⟨hs, he⟩
  · split
    · next h => exact (keeps_withOperand (quiet_spadLoad ..)).stop h
    · refine keeps_ite (keeps_progressTo _ _ hs he) ?_
      split
      · exact keeps_faultOp _ _
      · refine keeps_ite (keeps_faultOp _ _) ?_
        split
        · next h => exact (keeps_withOperand (keeps_spadStore (hs := hs) ..)).stop h
        · next h =>
          exact keeps_progressTo _ _ (tidy_sweepSlots (tidy_setSlots _ ((keeps_withOperand (keeps_spadStore (hs := hs) ..)).of_ok h))) he

theorem keeps_unitAqry {s : State} {e : QEntry} (sel : AqrySel) (hd : ℕ) (hs : TidyState s) (he : entryTidy e) :
    Keeps UnitTidy (unitAqry s e sel hd) := by
  grind [unitAqry, tidy_writeNat, keeps_ok, UnitTidy]

theorem keeps_unitApub {s : State} {e : QEntry} (hd : ℕ) (hs : TidyState s) (he : entryTidy e) : Keeps UnitTidy (unitApub s e hd) := by
  grind [unitApub, keeps_faultOp, keeps_fault, tidy_setAtt, tidy_reclaimOld, tidy_writeNat, keeps_ok, UnitTidy]

/-! ### GJOIN (R323 to R326) -/

theorem keeps_loadWords {s : State} (ea : Word) (n k : ℕ) (hs : TidyState s) : Keeps (fun x => TidyState x.1) (loadWords s ea n k) := by
  induction k generalizing s ea with
  | zero => exact .ok hs
  | succ k ih =>
    unfold loadWords
    split
    · next h => exact (keeps_scalarLoad (hs := hs) ..).stop h
    · next h => exact (ih _ ((keeps_scalarLoad (hs := hs) ..).of_ok h)).map fun _ h => h

theorem keeps_loadRecord {s : State} (ea : Word) (hs : TidyState s) : Keeps (fun x => TidyState x.1) (loadRecord s ea) := by
  grind [loadRecord, keeps_faultVa, keeps_loadWords, keeps_ok, keeps_error, Keeps.map]

theorem tidy_refuseMember {s : State} (reason : ℕ) (j : JoinRec) (hs : TidyState s) : TidyState (refuseMember s reason j) := by
  grind [refuseMember, tidy_putCore, tidyCore_setGroup, tidyCore_coreAt]

theorem tidy_compareJoins {s : State} (j : JoinRec) (hs : TidyState s) : TidyState (compareJoins s j) := by
  unfold compareJoins
  extract_lets bad
  have hbad : TidyState (bad.foldl (fun s i => refuseMember s 2 i) s) := tidy_foldl _ hs fun _ i h => tidy_refuseMember 2 i h
  split
  exacts [hs, tidy_abortGroup _ _ _ hbad]

theorem tidy_enterJoin {s : State} (slot : ℕ) (r : GroupRec) (hs : TidyState s) : TidyState (enterJoin s slot r) := by
  grind [enterJoin, tidy_compareJoins, tidyCore_setGroup, tidyState_iff]

theorem tidy_joinFault {s : State} (core : ℕ) (hs : TidyState s) : TidyState (joinFault s core) := by
  grind [joinFault, tidyCore_coreAt, tidy_raiseTrap, tidy_putCore, tidyCore_setGroup]

theorem tidy_joinFaults {s : State} (hs : TidyState s) : TidyState (joinFaults s) :=
  tidy_foldl _ hs fun _ core h => tidy_joinFault core h

theorem outTidy_execGjoin (ga slot : ℕ) {s : State} (hs : TidyState s) : OutTidy (execGjoin ga slot s) := by
  grind [execGjoin, keeps_loadRecord, tidy_settle, tidy_trapCur, tidy_abortGroup, tidy_waitOn, tidy_enterJoin, keeps_ok, keeps_error, outTidy_next]

theorem outTidy_execGleave (slot : ℕ) {s : State} (hs : TidyState s) : OutTidy (execGleave slot s) := by
  grind [execGleave, outTidy_finish, tidy_leaveGroup, tidy_waitOn, outTidy_next]

/-! ### The forming of a group (R325) -/

/-- The executing stream is no part of the canonical form. -/
theorem tidy_setCurName {s : State} (n : StreamName) (hs : TidyState s) : TidyState { s with cur := n } := { hs with }

theorem tidy_completeJoin {s : State} (j : JoinRec) (hs : TidyState s) : TidyState (completeJoin s j) := by
  unfold completeJoin
  split
  · exact hs
  · next core k _ =>
    have h1 := tidy_setCurName .c (tidy_focusOn hs core)
    dsimp only
    split
    · exact tidy_advanceBy _ (tidy_setCore h1 (tidyCore_setGroup _ _ h1.core))
    · exact h1

theorem tidy_formGroup {s : State} (key : ℕ) (hs : TidyState s) : TidyState (formGroup s key) := by
  unfold formGroup
  split
  · have h1 : TidyState { s with joins := s.joins.filter fun j => j.key ≠ key } := { hs with }
    exact tidy_foldl _ h1 fun _ j h => tidy_completeJoin j h
  · exact hs

/-! ### Issue (R329, R332, R333, R335) -/

theorem tidy_enterGroup {s : State} (slot : ℕ) (c : Contribution) (hs : TidyState s) : TidyState (enterGroup s slot c) := by
  grind [enterGroup, tidy_announce, tidyCore_setGroup, tidyState_iff]

/-- What a collective checks when it enters its group stops in canonical form. -/
def FitsQuiet (op : GroupOp) : Prop := ∀ g ds hv, Quiet (op.fits g ds hv)

theorem outTidy_issueGroup {s : State} (i : Instr) (slot : ℕ) (sy : Sync) {op : GroupOp} (sent : Bool) (uses : List (ℕ × ℕ × Bool))
    (beside hregs : List ℕ)
    {checks late : List Desc → Res Unit} (hs : TidyState s) (hop : FitsQuiet op) (hchecks : ∀ ds, Quiet (checks ds)) (hlate : ∀ ds, Quiet (late ds)) :
    OutTidy (issueGroup s i slot sy op sent uses beside hregs checks late) := by
  unfold issueGroup
  refine outTidy_run hs (keeps_issueWith _ _ (specTidy_of_ne fun b => ?_) (fun _ _ => quiet_ok _) fun ds hv _ => ?_)
  · dsimp only
    split <;> nofun
  · refine (quiet_inOrder (rs := [_, _, _]) ?_).map fun _ _ => ?_
    · simp [hop _ _ _, hchecks, hlate]
    · split
      exacts [tidy_enterGroup _ _ hs, hs]

theorem fitsQuiet_gsyncOp : FitsQuiet gsyncOp := fun _ _ _ => quiet_ok _

theorem fitsQuiet_gredOp (op : ScanOp) : FitsQuiet (gredOp op) := fun _ _ _ => quiet_require _ _

theorem fitsQuiet_gbcastOp : FitsQuiet gbcastOp := fun _ _ _ => quiet_inOrder (by simp)

theorem fitsQuiet_ggathOp : FitsQuiet ggathOp := fun _ _ _ => quiet_require _ _

theorem outTidy_execGsync (slot : ℕ) (sy : Sync) {s : State} (hs : TidyState s) : OutTidy (execGsync slot sy s) :=
  outTidy_issueGroup _ _ _ _ _ _ _ hs fitsQuiet_gsyncOp (fun _ => quiet_ok _) fun _ => quiet_ok _

theorem outTidy_execGred (op : ScanOp) (slot dd da : ℕ) (rm : Rm) (sy : Sync) {s : State} (hs : TidyState s) :
    OutTidy (execGred op slot dd da rm sy s) :=
  outTidy_issueGroup _ _ _ _ _ _ _ hs (fitsQuiet_gredOp op) (fun _ => quiet_inOrder (by simp)) fun _ => quiet_noOverlap ..

theorem outTidy_execGbcast (slot dd da hb : ℕ) (sy : Sync) {s : State} (hs : TidyState s) : OutTidy (execGbcast slot dd da hb sy s) :=
  outTidy_issueGroup _ _ _ _ _ _ _ hs fitsQuiet_gbcastOp (fun _ => quiet_inOrder (by simp)) fun _ => quiet_ok _

theorem outTidy_execGgath (slot dd da : ℕ) (sy : Sync) {s : State} (hs : TidyState s) : OutTidy (execGgath slot dd da sy s) :=
  outTidy_issueGroup _ _ _ _ _ _ _ hs fitsQuiet_ggathOp (fun _ => quiet_inOrder (by simp)) fun _ => quiet_noOverlap ..

/-! ### Operations (R329 to R331) -/

theorem keeps_unitGroup {s : State} {e : QEntry} (slot : ℕ) {op : GroupOp} {make : State → Res (State × Contents)}
    {final : State → QEntry → GroupSlot → List Contribution → UnitRes} (hs : TidyState s) (he : entryTidy e) (hop : FitsQuiet op)
    (hmake : Keeps (fun x => TidyState x.1) (make s)) (hfinal : ∀ g cs, Keeps UnitTidy (final s e g cs)) : Keeps UnitTidy (unitGroup s e slot op make final) := by
  have hpart (seq : ℕ) (sent : Bool) : entryTidy { e with part := .group seq sent } := entryTidy_of_ne fun _ => nofun
  have hfault (r : ℕ) : Keeps UnitTidy (groupFault r) := keeps_trap _
  unfold unitGroup
  dsimp only
  split
  · split
    · exact hfinal ..
    · refine keeps_ite (hfault _) (keeps_ite ?_ ?_)
      · split
        · next h => exact hmake.stop h
        · next h => exact .ok ⟨tidy_announce _ _ (hmake.of_ok h), hpart _ _⟩
      · refine keeps_ite (.ok ⟨tidy_setCore hs (tidyCore_setGroup _ _ hs.core), he⟩) (keeps_ite (.ok ⟨tidy_abortGroup _ _ _ hs, he⟩) ?_)
        exact keeps_ite (.ok ⟨hs, he⟩) (.ok ⟨hs, he⟩)
  · split
    · split
      · next h => exact (hop _ _ _).stop h
      · exact .ok ⟨tidy_enterGroup _ _ hs, hpart _ _⟩
    · exact hfault _

theorem keeps_unitGsync {s : State} {e : QEntry} (slot : ℕ) (hs : TidyState s) (he : entryTidy e) : Keeps UnitTidy (unitGsync s e slot) :=
  keeps_unitGroup _ hs he fitsQuiet_gsyncOp (.ok hs) fun _ _ => .ok ⟨hs, he⟩

theorem keeps_gredMake (e : QEntry) {s : State} (hs : TidyState s) : Keeps (fun x => TidyState x.1) (gredMake e s) := by
  have hread : ReadsTidy fun s i => presentVal s (operandAt e 1 2) i := fun _ _ h => keeps_presentVal _ _ h
  unfold gredMake
  dsimp only
  split
  · next h => exact (keeps_mapRes hread _ hs).stop h
  · next h =>
    have h1 := (keeps_mapRes hread _ hs).of_ok h
    split
    · next h => exact (keeps_entryFlags _ _ h1).stop h
    · next h => exact .ok ((keeps_entryFlags _ _ h1).of_ok h)

theorem keeps_unitGred {s : State} {e : QEntry} (op : ScanOp) (slot : ℕ) (rm : Rm) (hs : TidyState s) (he : entryTidy e) :
    Keeps UnitTidy (unitGred s e op slot rm) := by
  unfold unitGred
  exact keeps_unitGroup _ hs he (fitsQuiet_gredOp op) (keeps_gredMake e hs) fun _ _ => keeps_unitWrite _ _ _ hs he fun _ _ h => .ok h

theorem keeps_bitsMake (e : QEntry) {s : State} (hs : TidyState s) : Keeps (fun x => TidyState x.1) (bitsMake e s) :=
  (keeps_mapRes (fun _ _ h => keeps_presentBits _ _ h) _ hs).map fun _ h => h

theorem keeps_unitGbcast {s : State} {e : QEntry} (slot : ℕ) (hs : TidyState s) (he : entryTidy e) : Keeps UnitTidy (unitGbcast s e slot) := by
  unfold unitGbcast
  exact keeps_unitGroup _ hs he fitsQuiet_gbcastOp (keeps_bitsMake e hs) fun _ _ => keeps_unitRaw _ _ hs he fun _ _ h => .ok h

theorem keeps_unitGgath {s : State} {e : QEntry} (slot : ℕ) (hs : TidyState s) (he : entryTidy e) : Keeps UnitTidy (unitGgath s e slot) := by
  unfold unitGgath
  exact keeps_unitGroup _ hs he fitsQuiet_ggathOp (keeps_bitsMake e hs) fun _ _ => keeps_unitRaw _ _ hs he fun _ _ h => .ok h

end Sys2Proof.Proofs
end

section
/-! PROOF. Canonical form kept. The link instructions: issue, parts, open frames and the errors of flows (R310, R311, R433 to R445). -/

namespace Sys2Proof.Proofs
open Sys2Proof Sys2Proof.Machine Sys2Proof.Claims

/-! ### Flows and counters -/

theorem tidyCore_lowerPb {c : Core} (f : Flow) (n : ℕ) (hc : TidyCore c) : TidyCore (lowerPb c f n) := by
  grind [lowerPb, tidyCore_setPb]

/-! ### Ports, routes and credits (R311, R433, R436) -/

theorem tidy_partWaits {s : State} (vd : ℕ) (f : Flow) (n : ℕ) (hs : TidyState s) : TidyState (partWaits s vd f n) := by
  grind [partWaits, tidy_shortPurse]

theorem tidy_sendPart {s : State} (flow : ℕ) (e : QEntry) (p : ℕ) (copy : List Byte) (hs : TidyState s) :
    TidyState (sendPart s flow e p copy).1 ∧ entryTidy (sendPart s flow e p copy).2 := by
  grind [sendPart, tidy_chargeSend, tidy_partWaits, tidyCore_setFlow, entryTidy, tidyState_iff]

/-! ### Open frames (R439) -/

theorem tidy_sendFramed (flow : ℕ) {s : State} {e : QEntry} (hs : TidyState s) (he : entryTidy e) :
    TidyState (sendFramed flow s e).1 ∧ entryTidy (sendFramed flow s e).2 := by
  unfold sendFramed
  refine foldl_induction (P := fun a : State × QEntry => TidyState a.1 ∧ entryTidy a.2) (fun a p h => ?_) _ ⟨hs, he⟩
  dsimp only
  split
  exacts [tidy_sendPart (hs := h.1) .., h]

/-- The flits of a frame are charged as it leaves. -/
theorem tidy_frameLeaves {s : State} (vd peer n : ℕ) (l : List Message) (hs : TidyState s) : TidyState { chargeSend s vd peer n with outbox := l } :=
  tidy_outbox (tidy_chargeSend _ _ _ hs) l

theorem tidy_closeFrame {s : State} (flow : ℕ) (hs : TidyState s) : TidyState (closeFrame s flow) := by
  have hsend (t : State) (e : QEntry) (ht : TidyState t) (he : entryTidy e) :
      TidyState (if linkFlow e.instr = some flow then setEntry (sendFramed flow t e).1 .data (sendFramed flow t e).2 else t) := by
    split
    exacts [tidy_setEntry _ (tidy_sendFramed flow ht he).1 (tidy_sendFramed flow ht he).2, ht]
  unfold closeFrame
  split
  · exact hs
  · have h1 := tidy_frameLeaves (curCtx s).vd (flowPeer (flowAt s.core flow)) (flitsOf 1024)
      (s.outbox ++ [frameMessage s.core (flowAt s.core flow) flow]) hs
    extract_lets f s0 s1 s2
    have h2 : TidyState s2 := List.foldlRecOn _ _ h1 fun t ht e he => hsend t e ht (h1.core.qdata e he)
    exact tidy_setCore h2 (tidyCore_setFlow _ _ h2.core)

theorem entryTidy_entryNow {s : State} {e : QEntry} (hs : TidyState s) (he : entryTidy e) : entryTidy (entryNow s e) := by
  unfold entryNow
  cases h : s.core.qdata.find? fun q => q.seq = e.seq with
  | none => exact he
  | some q => exact hs.core.qdata q (List.mem_of_find?_eq_some h)

/-! ### Errors of flows (R310, R435, R437, R438) -/

theorem tidyCore_abandonParts (cause : Cause) (f : Flow) {c : Core} {e : QEntry} (hc : TidyCore c) (he : entryTidy e) :
    TidyCore (abandonParts cause f c e).1 ∧ entryTidy (abandonParts cause f c e).2 := by
  grind [abandonParts, tidyCore_lowerPb, entryTidy]

theorem tidyCore_abandonQueue (flow : ℕ) (f : Flow) (culprit : Option ℕ) (cause other : Cause) {c : Core} {q : List QEntry} (hc : TidyCore c)
    (hq : queueTidy q) :
    TidyCore (abandonQueue flow f culprit cause other c q).1 ∧ queueTidy (abandonQueue flow f culprit cause other c q).2 := by
  induction q generalizing c with
  | nil => exact ⟨hc, queueTidy_nil⟩
  | cons e q ih =>
    obtain ⟨he, hq⟩ := List.forall_mem_cons.1 hq
    unfold abandonQueue
    split
    · have hr := tidyCore_abandonParts (if culprit = some e.seq then cause else other) f hc he
      exact ⟨(ih hr.1 hq).1, List.forall_mem_cons.2 ⟨hr.2, (ih hr.1 hq).2⟩⟩
    · exact ⟨(ih hc hq).1, List.forall_mem_cons.2 ⟨he, (ih hc hq).2⟩⟩

theorem tidy_tellError {s : State} (flow : ℕ) (hs : TidyState s) : TidyState (tellError s flow) :=
  tidy_foldl _ hs fun _ _ h => tidy_sendControl _ _ h

theorem tidyCore_dropFlow {c : Core} (flow : ℕ) (seq : Option ℕ) (cause other : Cause) (hc : TidyCore c) :
    TidyCore (dropFlow c flow seq cause other) := by
  obtain ⟨hr, hq⟩ := tidyCore_abandonQueue flow (flowAt c flow) (errorCulprit flow seq c.qdata) cause other hc hc.qdata
  unfold dropFlow
  dsimp only
  generalize abandonQueue flow (flowAt c flow) (errorCulprit flow seq c.qdata) cause other c c.qdata = r at hr hq ⊢
  have h1 : TidyCore { r.1 with qdata := r.2 } := { hr with qdata := hq }
  exact tidyCore_failFlow _ _ (tidyCore_setFlow _ _ h1)

theorem tidy_errorFlow {s : State} (flow : ℕ) (seq : Option ℕ) (cause other : Cause) (hs : TidyState s) :
    TidyState (errorFlow s flow seq cause other) := by
  grind [errorFlow, tidy_tellError, tidyCore_dropFlow, tidyState_iff]

theorem tidy_recordError {s : State} (flow : ℕ) (cause : Cause) (hs : TidyState s) : TidyState (recordError s flow cause) := by
  grind [recordError, tidy_tellError, tidyCore_failFlow, tidyState_iff]

/-! ### Issue (R129, R441 to R444) -/

@[simp] theorem quiet_fabricOk (s : State) : Quiet (fabricOk s) := by
  grind [fabricOk, quiet_require]

@[simp] theorem quiet_flowOk (f : Flow) (d : Desc) : Quiet (flowOk f d) := by
  grind [flowOk, quiet_require]

@[simp] theorem quiet_wholeOp (d : Desc) (code : ℕ) : Quiet (wholeOp d code) := by
  grind [wholeOp, keeps_faultOp, keeps_ok]

theorem keeps_chargePb {s : State} (f : Flow) (n : ℕ) (hs : TidyState s) : Keeps TidyState (chargePb s f n) := by
  grind [chargePb, keeps_fault, tidyCore_setPb, keeps_ok, tidyState_iff]

theorem keeps_issueLink {s : State} (i : Instr) (flow : ℕ) (sy : Sync) (uses : List (ℕ × ℕ × Bool)) (hregs : List ℕ) (count : List Desc → ℕ)
    (bytes : List Desc → ℕ → ℕ)
    {descs : List Desc → Res Unit} {checks : Flow → List Desc → Res Unit} (hs : TidyState s) (hdescs : ∀ ds, Quiet (descs ds))
    (hchecks : ∀ f ds, Quiet (checks f ds)) : Keeps TidyState (issueLink s i flow sy uses hregs count bytes descs checks) := by
  unfold issueLink
  refine keeps_issueWith _ _ (specTidy_of_ne fun _ => nofun) (fun _ _ => quiet_ok _) fun ds _ n => ?_
  have hall : Quiet (inOrder [fabricOk s, descs ds, checks (flowAt s.core flow) ds]) := quiet_inOrder (by simp [hdescs, hchecks])
  split
  · next h => exact hall.stop h
  · exact keeps_chargePb _ _ hs

theorem outTidy_execDput (flow dd da db : ℕ) (sy : Sync) {s : State} (hs : TidyState s) : OutTidy (execDput flow dd da db sy s) :=
  outTidy_run hs (keeps_issueLink _ _ _ _ _ _ _ hs (fun _ => quiet_inOrder (by simp)) fun _ _ => quiet_inOrder (by simp [quiet_inOrder]))

theorem outTidy_execDget (flow dd da : ℕ) (sy : Sync) {s : State} (hs : TidyState s) : OutTidy (execDget flow dd da sy s) :=
  outTidy_run hs (keeps_issueLink _ _ _ _ _ _ _ hs (fun _ => quiet_inOrder (by simp)) fun _ _ => quiet_inOrder (by simp))

theorem outTidy_issueAtomic {s : State} (i : Instr) (flow dd da db : ℕ) (sy : Sync) (hs : TidyState s) : OutTidy (issueAtomic s i flow dd da db sy) :=
  outTidy_run hs (keeps_issueLink _ _ _ _ _ _ _ hs (fun _ => quiet_inOrder (by simp)) fun _ _ => quiet_inOrder (by simp))

theorem outTidy_execDfadd (flow dd da db : ℕ) (sy : Sync) {s : State} (hs : TidyState s) : OutTidy (execDfadd flow dd da db sy s) := by
  grind [execDfadd, outTidy_issueAtomic]

theorem outTidy_execDfcas (flow dd da db : ℕ) (sy : Sync) {s : State} (hs : TidyState s) : OutTidy (execDfcas flow dd da db sy s) := by
  grind [execDfcas, outTidy_issueAtomic]

theorem outTidy_execDfencef (flow da hb : ℕ) (sy : Sync) {s : State} (hs : TidyState s) : OutTidy (execDfencef flow da hb sy s) :=
  outTidy_run hs ((keeps_issueLink _ _ _ _ _ _ _ hs (fun _ => quiet_needDesc ..) fun _ _ => quiet_inOrder (by simp)).map fun _ h => tidy_closeFrame flow h)

theorem outTidy_issueFlow {s : State} (i : Instr) (ha : ℕ) (sy : Sync) {checks : State → Word → Res Unit} {after : State → State} (hs : TidyState s)
    (hchecks : ∀ w, Quiet (checks s w)) (hafter : ∀ t, TidyState t → TidyState (after t)) : OutTidy (issueFlow s i ha sy checks after) := by
  unfold issueFlow
  refine outTidy_issueHeld hs (Keeps.map ?_ hafter)
  refine keeps_issueWith _ _ (specTidy_of_ne fun _ => nofun) (fun _ _ => quiet_ok _) fun _ _ _ => ?_
  exact (quiet_inOrder (by simp [hchecks])).map fun _ _ => hs

theorem outTidy_execDflowOpen (flow hd ha : ℕ) (sy : Sync) {s : State} (hs : TidyState s) : OutTidy (execDflowOpen flow hd ha sy s) :=
  outTidy_issueFlow _ _ _ hs (fun _ => quiet_require _ _) fun _ h => h

theorem outTidy_execDflowClose (flow hd ha : ℕ) (sy : Sync) {s : State} (hs : TidyState s) : OutTidy (execDflowClose flow hd ha sy s) :=
  outTidy_issueFlow _ _ _ hs (fun _ => quiet_ok _) fun _ h => tidy_closeFrame flow h

theorem outTidy_execDflowReset (flow hd ha : ℕ) (sy : Sync) {s : State} (hs : TidyState s) : OutTidy (execDflowReset flow hd ha sy s) :=
  outTidy_issueFlow _ _ _ hs (fun _ => quiet_ok _) fun _ h => h

theorem outTidy_execDflowStat (flow hd ha : ℕ) (sy : Sync) {s : State} (hs : TidyState s) : OutTidy (execDflowStat flow hd ha sy s) :=
  outTidy_issueFlow _ _ _ hs (fun _ => quiet_ok _) fun _ h => h

/-! ### Parts at the data engine (R439, R441, R444, R445) -/

theorem keeps_elemsBytes {s : State} (o : Operand) (i n : ℕ) (hs : TidyState s) : Keeps (fun x => TidyState x.1) (elemsBytes s o i n) :=
  (keeps_mapRes (fun _ _ h => keeps_presentBits _ _ h) _ hs).map fun _ h => h

theorem keeps_gatherPart {s : State} (e : QEntry) (p : ℕ) (hs : TidyState s) : Keeps (fun x => TidyState x.1) (gatherPart s e p) := by
  grind [gatherPart, keeps_elemsBytes, keeps_slotOfRow, keeps_ok, Keeps.map]

theorem keeps_settlePart {s : State} (e : QEntry) (p : ℕ) (bs : List Byte) (hs : TidyState s) : Keeps TidyState (settlePart s e p bs) := by
  grind [settlePart, keeps_putElems, keeps_ok]

theorem tidy_performPart {s : State} (e : QEntry) (flow p : ℕ) (hs : TidyState s) :
    TidyState (performPart s e flow p).1 ∧ entryTidy (performPart s e flow p).2 := by
  grind [performPart, tidyCore_lowerPb, entryTidy, tidyState_iff]

/-- A fault of a part that is not the lowest leaves the instruction standing (R444). -/
theorem keeps_whenLowest {α : Type} {P : α → Prop} {s : State} {e : QEntry} {r : Res α} {f : α → UnitRes} (lowest : Bool) (hs : TidyState s)
    (he : entryTidy e)
    (hr : Keeps P r) (hf : ∀ x, P x → Keeps UnitTidy (f x)) : Keeps UnitTidy (whenLowest lowest s e r f) := by
  unfold whenLowest
  split
  · exact hf _ (keeps_ok.1 hr)
  · exact keeps_ite (keeps_trap _) (.ok ⟨hs, he⟩)
  · exact .error (keeps_error.1 hr)

theorem keeps_gatherRow {s : State} (e : QEntry) (p n : ℕ) (hs : TidyState s) : Keeps (fun x => TidyState x.1) (gatherRow s e p n) := by
  induction n generalizing s p with
  | zero => exact .ok hs
  | succ n ih =>
    unfold gatherRow
    split
    · next h => exact (keeps_gatherPart (hs := hs) ..).stop h
    · next h => exact (ih _ ((keeps_gatherPart (hs := hs) ..).of_ok h)).map fun _ h => h

theorem keeps_packRow {s : State} {e : QEntry} (flow p : ℕ) (lowest : Bool) (hs : TidyState s) (he : entryTidy e) :
    Keeps UnitTidy (packRow s e flow p lowest) := by
  have hclose (t : State) (e : QEntry) (ht : TidyState t) (he : entryTidy e) :
      Keeps UnitTidy (.ok ⟨closeFrame (setEntry t .data e) flow, entryNow (closeFrame (setEntry t .data e) flow) e, false⟩) :=
    have h := tidy_closeFrame flow (tidy_setEntry .data ht he)
    .ok ⟨h, entryTidy_entryNow h he⟩
  unfold packRow
  dsimp only
  refine keeps_ite (hclose _ _ hs he) (keeps_whenLowest _ hs he (keeps_gatherRow _ _ _ hs) fun r hr => ?_)
  have h1 (f : Machine.Flow) : TidyState { r.1 with core := setFlow r.1.core flow f } := tidy_setCore hr (tidyCore_setFlow flow f hr.core)
  have h2 (t : Tab Part) : entryTidy { e with part := .parts t } := entryTidy_of_ne fun _ => nofun
  exact keeps_ite (hclose _ _ (h1 _) (h2 _)) (.ok ⟨h1 _, h2 _⟩)

theorem keeps_sendNext {s : State} {e : QEntry} (flow low : ℕ) (hs : TidyState s) (he : entryTidy e) : Keeps UnitTidy (sendNext s e flow low) := by
  unfold sendNext
  dsimp only
  split
  · exact .ok ⟨hs, he⟩
  · next p _ =>
    have herr := tidy_errorFlow flow (some e.seq) .linkDown .flowError (tidy_setEntry .data hs he)
    refine keeps_ite (.ok ⟨herr, entryTidy_entryNow herr he⟩) (keeps_ite (.ok ⟨hs, he⟩) (keeps_ite (keeps_packRow _ _ _ hs he) (keeps_ite (.ok ⟨hs, he⟩) ?_)))
    refine keeps_ite (.ok ⟨tidy_partWaits _ _ _ hs, he⟩) (keeps_whenLowest _ hs he (keeps_gatherPart _ _ hs) fun r hr => ?_)
    exact .ok (tidy_sendPart (hs := hr) ..)

theorem keeps_unitParts {s : State} {e : QEntry} (flow : ℕ) (hs : TidyState s) (he : entryTidy e) : Keeps UnitTidy (unitParts s e flow) := by
  unfold unitParts
  split
  · exact keeps_fault _
  · split
    · exact .ok ⟨hs, he⟩
    · dsimp only
      split
      · exact keeps_whenLowest _ hs he (keeps_settlePart _ _ _ hs) fun t ht => .ok (tidy_performPart (hs := ht) ..)
      · exact keeps_sendNext flow _ hs he

theorem keeps_unitDfencef {s : State} {e : QEntry} (flow : ℕ) (hs : TidyState s) (he : entryTidy e) : Keeps UnitTidy (unitDfencef s e flow) := by
  grind [unitDfencef, keeps_fault, tidy_closeFrame, keeps_unitParts, keeps_ok, UnitTidy, entryTidy]

/-! ### DFLOW at the head of the queue (R435, R443) -/

theorem keeps_flowDone {s : State} {e : QEntry} (flow hd : ℕ) (hs : TidyState s) (he : entryTidy e) : Keeps UnitTidy (flowDone s e flow hd) := by
  grind [flowDone, tidy_writeNat, keeps_ok, UnitTidy]

theorem keeps_onFlow {s : State} {e : QEntry} {effect : State → UnitRes} (hs : TidyState s) (he : entryTidy e) (heffect : Keeps UnitTidy (effect s)) :
    Keeps UnitTidy (onFlow s e effect) := keeps_ite heffect (.ok ⟨hs, he⟩)

theorem tidy_tellPeer {s : State} (f : Flow) (flow what arg : ℕ) (hs : TidyState s) : TidyState (tellPeer s f flow what arg) := by
  grind [tellPeer, tidy_sendControl]

theorem keeps_unitDflowOpen {s : State} {e : QEntry} (flow hd : ℕ) (hs : TidyState s) (he : entryTidy e) :
    Keeps UnitTidy (unitDflowOpen s e flow hd) := by
  grind [unitDflowOpen, keeps_onFlow, keeps_fault, keeps_flowDone, tidy_tellPeer, tidyCore_setFlow, tidyState_iff]

theorem keeps_unitDflowClose {s : State} {e : QEntry} (flow hd : ℕ) (hs : TidyState s) (he : entryTidy e) :
    Keeps UnitTidy (unitDflowClose s e flow hd) := by
  grind [unitDflowClose, keeps_onFlow, keeps_flowDone, tidy_tellPeer, tidyCore_setFlow, keeps_fault, tidyState_iff]

theorem keeps_unitDflowReset {s : State} {e : QEntry} (flow hd : ℕ) (hs : TidyState s) (he : entryTidy e) :
    Keeps UnitTidy (unitDflowReset s e flow hd) := by
  grind [unitDflowReset, keeps_onFlow, keeps_flowDone, tidy_tellPeer, tidyCore_setFlow, tidyState_iff]

theorem keeps_unitDflowStat {s : State} {e : QEntry} (flow hd : ℕ) (hs : TidyState s) (he : entryTidy e) :
    Keeps UnitTidy (unitDflowStat s e flow hd) := by
  grind [unitDflowStat, keeps_onFlow, keeps_flowDone]

end Sys2Proof.Proofs
end

section
/-! PROOF. Canonical form kept. The tile instructions, updates deferred to a queue, and one unit of an engine (R165, R275 to R282, R313). -/

namespace Sys2Proof.Proofs
open Sys2Proof Sys2Proof.Machine Sys2Proof.Claims

@[simp] theorem quiet_needHandle (s : State) (hh : ℕ) : Quiet (needHandle s hh) := by
  grind [needHandle, keeps_fault, keeps_ok]

/-! ### TDEF (R275) -/

theorem outTidy_execTdef (gd k : ℕ) {s : State} (hs : TidyState s) : OutTidy (execTdef gd k s) := by
  grind [execTdef, outTidy_run, quiet_needDesc, keeps_fault, keeps_faultVa, ctxTidy_allocTile, ctxTidy_curCtx, tidy_writeNat, tidy_setCurCtx,
    keeps_ok, keeps_error]

/-! ### TACQ (R276, R277) -/

theorem keeps_acquireChecks {s : State} (hh : ℕ) (write : Bool) (hs : TidyState s) : Keeps (fun x => TidyState x.1) (acquireChecks s hh write) := by
  grind [acquireChecks, quiet_needHandle, keeps_fault, keeps_acquirePages, keeps_error, Keeps.map]

theorem tidy_postTenure {s : State} (hh : ℕ) (write : Bool) (hs : TidyState s) : TidyState (postTenure s hh write) := by
  grind [postTenure, ctxTidy_curCtx, tidy_waitOn, tidy_setCurCtx, ctxTidy]

theorem outTidy_acquire {s : State} (ga : ℕ) (write : Bool) (hs : TidyState s) : OutTidy (acquire s ga write) := by
  grind [acquire, keeps_acquireChecks, tidy_settle, ctxTidy_curCtx, outTidy_finish, tidy_setCurCtx, ctxTidy_grantTenure, tidy_postTenure, keeps_ok,
    keeps_error, outTidy_next]

theorem outTidy_tryAcquire {s : State} (gd ga : ℕ) (write : Bool) (hs : TidyState s) : OutTidy (tryAcquire s gd ga write) := by
  grind [tryAcquire, outTidy_run, ctxTidy_curCtx, tidy_writeNat, tidy_setCurCtx, ctxTidy_grantTenure, keeps_acquireChecks, Keeps.map]

theorem outTidy_execTacqR (ga : ℕ) {s : State} (hs : TidyState s) : OutTidy (execTacqR ga s) := by
  grind [execTacqR, outTidy_acquire]

theorem outTidy_execTacqW (ga : ℕ) {s : State} (hs : TidyState s) : OutTidy (execTacqW ga s) := by
  grind [execTacqW, outTidy_acquire]

theorem outTidy_execTacqRTry (gd ga : ℕ) {s : State} (hs : TidyState s) : OutTidy (execTacqRTry gd ga s) := by
  grind [execTacqRTry, outTidy_tryAcquire]

theorem outTidy_execTacqWTry (gd ga : ℕ) {s : State} (hs : TidyState s) : OutTidy (execTacqWTry gd ga s) := by
  grind [execTacqWTry, outTidy_tryAcquire]

/-! ### TREL and TSEAL (R278) -/

theorem keeps_releaseTile {s : State} (hh : ℕ) (hs : TidyState s) : Keeps TidyState (releaseTile s hh) := by
  grind [releaseTile, quiet_needHandle, tidy_setCurCtx, ctxTidy_setTile, ctxTidy_curCtx, keeps_fault, keeps_ok, keeps_error]

theorem keeps_sealHeld {s : State} (hh : ℕ) (hs : TidyState s) : Keeps TidyState (sealHeld s hh) := by
  grind [sealHeld, quiet_needHandle, tidy_setCurCtx, ctxTidy_setTile, ctxTidy_curCtx, keeps_fault, keeps_ok, keeps_error]

theorem outTidy_execTrel (ga : ℕ) {s : State} (hs : TidyState s) : OutTidy (execTrel ga s) := by
  grind [execTrel, outTidy_run, keeps_releaseTile, outTidy_updateOrDefer]

theorem outTidy_execTseal (ga : ℕ) {s : State} (hs : TidyState s) : OutTidy (execTseal ga s) := by
  grind [execTseal, outTidy_run, keeps_sealHeld, outTidy_updateOrDefer]

theorem outTidy_execTsealDet (ga : ℕ) {s : State} (hs : TidyState s) : OutTidy (execTsealDet ga s) := by
  grind [execTsealDet, outTidy_run, keeps_sealHeld, tidy_waitOn, outTidy_updateOrDefer, outTidy_next]

/-! ### TSPLIT and TJOIN (R279, R280) -/

theorem ctxTidy_allocTiles {c : Context} (ts : List Tile) (hc : ctxTidy c) : ctxTidy (allocTiles c ts).1 := by
  induction ts generalizing c with
  | nil => exact hc
  | cons t ts ih => grind [allocTiles, ctxTidy_allocTile]

theorem tidy_writeQuad {s : State} (gd : ℕ) (l : List ℕ) (hs : TidyState s) : TidyState (writeQuad s gd l) :=
  tidy_foldl _ hs fun _ _ h => tidy_writeNat h _ _

theorem outTidy_execTsplit (gd ga gb : ℕ) {s : State} (hs : TidyState s) : OutTidy (execTsplit gd ga gb s) := by
  have hc (i : ℕ) (ts : List Tile) : ctxTidy (allocTiles (freeTile (curCtx s) i) ts).1 := ctxTidy_allocTiles ts (ctxTidy_freeTile _ (ctxTidy_curCtx hs))
  refine outTidy_run hs ?_
  dsimp only
  split
  · next h => exact (quiet_needHandle ..).stop h
  · refine keeps_ite (keeps_fault _) ?_
    split
    · exact keeps_fault _
    · exact keeps_ite (keeps_fault _) (keeps_ite (keeps_fault _) (.ok (tidy_writeQuad _ _ (tidy_setCurCtx hs (hc ..)))))

@[simp] theorem quiet_needHandles (s : State) (l : List ℕ) : Quiet (needHandles s l) := by
  induction l with
  | nil => exact quiet_ok _
  | cons h l ih => grind [needHandles, quiet_needHandle, keeps_error, Keeps.map]

theorem outTidy_execTjoin (gd ga gb : ℕ) {s : State} (hs : TidyState s) : OutTidy (execTjoin gd ga gb s) := by
  have hfree (ps : List (ℕ × Tile)) : ctxTidy (ps.foldl (fun c q => freeTile c q.1) (curCtx s)) :=
    foldl_induction (P := ctxTidy) (fun _ q h => ctxTidy_freeTile q.1 h) ps (ctxTidy_curCtx hs)
  refine outTidy_run hs ?_
  dsimp only
  split
  · exact keeps_fault _
  · split
    · next h => exact (quiet_needHandles ..).stop h
    · refine keeps_ite (keeps_fault _) (keeps_ite (keeps_fault _) ?_)
      split
      · exact keeps_fault _
      · next h => exact .ok (tidy_writeNat (tidy_setCurCtx hs (ctxTidy_allocTile (hfree _) h)) _ _)

/-! ### TFREE and TQRY (R281, R282) -/

theorem outTidy_execTfree (ga : ℕ) {s : State} (hs : TidyState s) : OutTidy (execTfree ga s) := by
  grind [execTfree, outTidy_run, quiet_needHandle, keeps_fault, tidy_setCurCtx, ctxTidy_freeTile, ctxTidy_curCtx, keeps_ok, keeps_error]

theorem outTidy_execTqry (sel : TqrySel) (gd ga : ℕ) {s : State} (hs : TidyState s) : OutTidy (execTqry sel gd ga s) := by
  grind [execTqry, outTidy_finish, tidy_writeNat]

/-! ### Deferred updates (R161, R278, R313) -/

theorem keeps_deferred {s : State} {e : QEntry} {effect : Word → Res State} (hs : TidyState s) (he : entryTidy e)
    (heffect : ∀ w, Keeps TidyState (effect w)) :
    Keeps UnitTidy (deferred s e effect) := keeps_ite ((heffect _).map fun _ h => ⟨h, he⟩) (.ok ⟨hs, he⟩)

theorem keeps_deferredSeal {s : State} {e : QEntry} (hs : TidyState s) (he : entryTidy e) : Keeps UnitTidy (deferredSeal s e) :=
  keeps_ite (keeps_deferred hs he fun _ => keeps_sealHeld _ hs) (.ok ⟨hs, he⟩)

/-! ### One unit -/

theorem keeps_runUnit {s : State} {e : QEntry} (hs : TidyState s) (he : entryTidy e) : Keeps UnitTidy (runUnit s e) := by
  unfold runUnit
  split
  exacts [keeps_deferred hs he fun _ => .ok (tidy_setCore hs (tidyCore_semAdd _ _ hs.core)),
    keeps_deferred hs he fun _ => .ok (tidy_setCore hs (tidyCore_setSem _ _ hs.core)),
    keeps_deferred hs he fun _ => (keeps_passSlots (hc := hs.core) ..).map fun _ h => tidy_setCore hs h,
    keeps_deferred hs he fun _ => (keeps_passSlots (hc := hs.core) ..).map fun _ h => tidy_setCore hs h,
    keeps_deferred hs he fun _ => keeps_releaseTile _ hs, keeps_deferred hs he fun _ => keeps_sealHeld _ hs, keeps_deferredSeal (hs := hs) (he := he) ..,
    keeps_unitDcopy (hs := hs) (he := he) .., keeps_unitDgather (hs := hs) (he := he) .., keeps_unitScatter (hs := hs) (he := he) ..,
    keeps_unitScatter (hs := hs) (he := he) .., keeps_unitDfill (hs := hs) (he := he) .., keeps_unitDpref (hs := hs) (he := he) ..,
    keeps_unitDpreq (hs := hs) (he := he) .., keeps_unitFlush (hs := hs) (he := he) .., keeps_unitFlush (hs := hs) (he := he) ..,
    keeps_unitParts (hs := hs) (he := he) .., keeps_unitParts (hs := hs) (he := he) .., keeps_unitParts (hs := hs) (he := he) ..,
    keeps_unitParts (hs := hs) (he := he) .., keeps_unitDfencef (hs := hs) (he := he) .., keeps_unitDflowOpen (hs := hs) (he := he) ..,
    keeps_unitDflowClose (hs := hs) (he := he) .., keeps_unitDflowReset (hs := hs) (he := he) .., keeps_unitDflowStat (hs := hs) (he := he) ..,
    keeps_unitOf2 (hs := hs) (he := he) .., keeps_unitOf2 (hs := hs) (he := he) .., keeps_unitOf2 (hs := hs) (he := he) ..,
    keeps_unitOf2 (hs := hs) (he := he) .., keeps_unitOf2 (hs := hs) (he := he) .., keeps_unitOf2 (hs := hs) (he := he) ..,
    keeps_unitFused (hs := hs) (he := he) .., keeps_unitFused (hs := hs) (he := he) .., keeps_unitOf1 (hs := hs) (he := he) ..,
    keeps_unitOf1 (hs := hs) (he := he) .., keeps_unitOf1 (hs := hs) (he := he) .., keeps_unitBitwise (hs := hs) (he := he) ..,
    keeps_unitBitwise (hs := hs) (he := he) .., keeps_unitBitwise (hs := hs) (he := he) .., keeps_unitBitwise1 (hs := hs) (he := he) ..,
    keeps_unitBitwise1 (hs := hs) (he := he) .., keeps_unitShift (hs := hs) (he := he) .., keeps_unitShift (hs := hs) (he := he) ..,
    keeps_unitShift (hs := hs) (he := he) .., keeps_unitVcmp (hs := hs) (he := he) .., keeps_unitVsel (hs := hs) (he := he) ..,
    keeps_unitOf1 (hs := hs) (he := he) .., keeps_unitOf1 (hs := hs) (he := he) .., keeps_unitOf1 (hs := hs) (he := he) ..,
    keeps_unitOf1 (hs := hs) (he := he) .., keeps_unitOf1 (hs := hs) (he := he) .., keeps_unitOf1 (hs := hs) (he := he) ..,
    keeps_unitOf1 (hs := hs) (he := he) .., keeps_unitOf1 (hs := hs) (he := he) .., keeps_unitOf1 (hs := hs) (he := he) ..,
    keeps_unitOf1 (hs := hs) (he := he) .., keeps_unitVclamp (hs := hs) (he := he) .., keeps_unitVscale (hs := hs) (he := he) ..,
    keeps_unitVbcast (hs := hs) (he := he) .., keeps_unitViota (hs := hs) (he := he) .., keeps_unitVperm (hs := hs) (he := he) ..,
    keeps_unitVred (hs := hs) (he := he) .., keeps_unitVscan (hs := hs) (he := he) .., keeps_unitVdot (hs := hs) (he := he) ..,
    keeps_unitVdist (hs := hs) (he := he) .., keeps_unitVthrc (hs := hs) (he := he) .., keeps_unitVcomp (hs := hs) (he := he) ..,
    keeps_unitVexpd (hs := hs) (he := he) .., keeps_unitVhist (hs := hs) (he := he) .., keeps_unitVxform (hs := hs) (he := he) ..,
    keeps_unitVmaxi (hs := hs) (he := he) .., keeps_unitVsort (hs := hs) (he := he) .., keeps_unitVranki (hs := hs) (he := he) ..,
    keeps_unitVrankp (hs := hs) (he := he) .., keeps_unitVranko (hs := hs) (he := he) .., keeps_unitXlease (hs := hs) (he := he) ..,
    keeps_unitXfree (hs := hs) (he := he) .., keeps_unitXcellop (hs := hs) (he := he) .., keeps_unitXzero (hs := hs) (he := he) ..,
    keeps_unitXpass (hs := hs) (he := he) .., keeps_unitXside (hs := hs) (he := he) .., keeps_unitXsideb (hs := hs) (he := he) ..,
    keeps_unitXdrain (hs := hs) (he := he) .., keeps_unitXbias (hs := hs) (he := he) .., keeps_unitAres (hs := hs) (he := he) ..,
    keeps_unitArel (hs := hs) (he := he) .., keeps_unitAqry (hs := hs) (he := he) .., keeps_unitApub (hs := hs) (he := he) ..,
    keeps_unitGsync (hs := hs) (he := he) .., keeps_unitGred (hs := hs) (he := he) .., keeps_unitGbcast (hs := hs) (he := he) ..,
    keeps_unitGgath (hs := hs) (he := he) .., .ok ⟨hs, he⟩]

end Sys2Proof.Proofs
end

section
/-! PROOF. Canonical form kept. The entry of a handler, the timer and the turns of an engine (R311, R360, R374). -/

namespace Sys2Proof.Proofs
open Sys2Proof Sys2Proof.Machine Sys2Proof.Claims

/-- What follows the record that a handler entry writes. -/
def afterEntry (core : ℕ) (cause : ℕ) (r : TrapRecord) (pc : Word) : Written → State
  | .error u => (coreAt u core).job.elim u fun n => killJob u n cause
  | .ok u => enterHandler (updStream u core .c fun t => { t with record := r }) core pc

theorem enterWith_eq (s : State) (core : ℕ) (p : StreamName) (r : TrapRecord) :
    enterWith s core p r = afterEntry core (streamOf (coreAt s core) p).record.cause r (coreAt s core).c.pc
      (writeRecord s core .c r (some (streamOf (coreAt s core) p).record.cause)) := rfl

theorem tidy_afterEntry {u : Written} (core cause : ℕ) (r : TrapRecord) (pc : Word) (h : TidyState u.state) :
    TidyState (afterEntry core cause r pc u) := by
  cases u with
  | error u => exact tidy_killHere core cause h
  | ok u => exact tidy_enterHandler _ _ (tidy_updStream core .c h fun _ ht => ht)

theorem tidy_enterWith {s : State} (core : ℕ) (p : StreamName) (r : TrapRecord) (hs : TidyState s) : TidyState (enterWith s core p r) := by
  rw [enterWith_eq]
  exact tidy_afterEntry _ _ _ _ (tidy_writeRecord _ _ _ _ hs)

theorem tidy_handlerEntry {s : State} (core : ℕ) (hs : TidyState s) : TidyState (handlerEntry s core) := by
  grind [handlerEntry, tidy_abandonWait, tidy_enterWith]

theorem tidy_timerAct {s : State} (core : ℕ) (hs : TidyState s) : TidyState (timerAct s core) := by
  grind [timerAct, tidyCore_coreAt, tidy_putCore, tidy_raiseTrap, tidyCore_iff]

/-! ### Engine turns -/

theorem tidy_stallHead {s : State} (eng : EngineName) {e : QEntry} (w : Wait) (hs : TidyState s) (he : entryTidy e) :
    TidyState (stallHead s eng e w) := by
  unfold stallHead
  dsimp only
  split
  · split
    exacts [tidy_engineFault _ _ hs he, tidy_setEntry _ hs he]
  · exact hs

theorem entryTidy_workEntry {s : State} {eng : EngineName} {e : QEntry} (hs : TidyState s) (h : workEntry s eng = some e) : entryTidy e :=
  queueTidy_queueOf eng hs.core e (List.mem_of_find?_eq_some h)

theorem tidy_engineRun (eng : EngineName) (go : State → QEntry → Bool) (n : ℕ) {s : State} (hs : TidyState s) :
    TidyState (engineRun eng go n s).1 := by
  induction n generalizing s with
  | zero => exact hs
  | succ n ih =>
    unfold engineRun
    split
    · exact hs
    · next e hwork =>
      have he := entryTidy_workEntry hs hwork
      have hrun := keeps_runUnit (tidy_setCurName e.stream hs) he
      split
      · exact hs
      · split
        · exact hs
        · split
          · next o ho =>
            obtain ⟨hos, hoe⟩ := hrun.of_ok ho
            split
            · exact hs
            · split
              · exact tidy_retireCur (tidy_resumeHeld _ (tidy_completeEntry eng _ hos))
              · split
                exacts [tidy_setEntry eng hos hoe, ih (tidy_setEntry eng hos hoe)]
          · exact tidy_engineFault eng _ hs he
          · exact hs

theorem tidy_headHeld {s : State} (eng : EngineName) (x : Option Stop) (hs : TidyState s) : TidyState (headHeld s eng x) := by
  unfold headHeld
  split
  · cases hwork : workEntry s eng with
    | none => exact hs
    | some e => exact tidy_stallHead eng _ hs (entryTidy_workEntry hs hwork)
  · exact tidy_shortAccess _ _ _ _ hs
  · exact hs

theorem tidy_headBack {s : State} (eng : EngineName) (start : ℕ) {t : State} (x : Option Stop) (hs : TidyState s) (ht : TidyState t) :
    TidyState (headBack s eng start t x) := by
  grind [headBack, tidy_headHeld, tidy_engineRun]

/-! ### The ports' records merged (R311) -/

theorem tidy_mergePart {a : State × Bool} (seq flow p : ℕ) (ha : TidyState a.1) : TidyState (mergePart a seq flow p).1 := by
  unfold mergePart
  dsimp only
  cases a.1.core.qdata.find? fun e => e.seq = seq with
  | none => exact ha
  | some e =>
    dsimp only [Option.elim]
    cases (partAt (partsOf e) p).back with
    | none => exact ha
    | some bs =>
      dsimp only
      split
      · next t h =>
        obtain ⟨h1, h2⟩ := tidy_performPart e flow p ((keeps_settlePart e p bs (tidy_setCurName e.stream ha)).of_ok h)
        exact tidy_setEntry .data h1 h2
      · exact tidy_shortAccess _ _ _ _ ha
      · exact ha
      · exact ha

theorem tidy_mergeParts {s : State} (hs : TidyState s) : TidyState (mergeParts s).1 := by
  refine foldl_induction (P := fun a : State × Bool => TidyState a.1) (fun a e ha => ?_) _ hs
  cases linkFlow e.instr with
  | none => exact ha
  | some flow => exact foldl_induction (P := fun a : State × Bool => TidyState a.1) (fun a p h => tidy_mergePart e.seq flow p.1 h) _ ha

theorem tidyCore_mergeErrors (errs : List ℕ) {c : Core} (hc : TidyCore c) : TidyCore (mergeErrors errs c) := by
  refine foldl_induction (P := TidyCore) (fun c n h => ?_) errs hc
  dsimp only
  split
  exacts [tidyCore_dropFlow _ _ _ _ h, h]

theorem tidy_mergeCore {s : State} (hs : TidyState s) : TidyState (mergeCore s) := by
  have hparts := tidy_mergeParts hs
  unfold mergeCore
  split
  · exact hs
  · next errs _ =>
    split
    · next t h => rw [h] at hparts; exact hparts
    · next t h =>
      rw [h] at hparts
      have hk := tidyCore_mergeErrors errs hparts.core
      exact tidy_setCore hparts { hk with }

theorem tidy_engineUnits {s : State} (eng : EngineName) (n : ℕ) (hs : TidyState s) : TidyState (engineUnits s eng n) := by
  grind [engineUnits, tidy_engineRun, tidy_headBack]

theorem tidy_stopEngine {s : State} (core : ℕ) (eng : EngineName) (hs : TidyState s) : TidyState (stopEngine s core eng) := by
  grind [stopEngine, tidy_focusOn, tidy_engineRun, tidy_headHeld]

theorem tidy_engineTurn {s : State} (core : ℕ) (eng : EngineName) (n : ℕ) (hs : TidyState s) : TidyState (engineTurn s core eng n) := by
  grind [engineTurn, tidy_focusOn, tidy_engineUnits, tidy_mergeCore]

end Sys2Proof.Proofs
end

section
/-! PROOF. Canonical form kept. Checkpoint, halt, the frame of a job and its resumption (R80, R355, R362 to R369). -/

namespace Sys2Proof.Proofs
open Sys2Proof Sys2Proof.Machine Sys2Proof.Claims

/-! ### Stopping a core (R363 steps 1 and 2, R369) -/

theorem tidy_endAtomic {s : State} (core : ℕ) (hs : TidyState s) : TidyState (endAtomic s core) := by
  grind [endAtomic, tidy_focusOn, tidy_engineUnits]

theorem tidy_takeFault {s : State} (core : ℕ) (st : StreamName) (hs : TidyState s) : TidyState (takeFault s core st) := by
  grind [takeFault, tidy_raiseEngineFault]

theorem tidy_stopCore {s : State} (core : ℕ) (hs : TidyState s) : TidyState (stopCore s core) := by
  have hstop := tidy_endAtomic core (tidy_foldl [EngineName.data, .vector, .matrix, .group] hs fun _ eng h => tidy_stopEngine core eng h)
  exact tidy_foldl _ (tidy_foldl _ hstop fun _ st h => tidy_takeFault core st h) fun _ st h => tidy_abandonWait core st h

theorem tidy_haltCore {s : State} (core : ℕ) (hs : TidyState s) : TidyState (haltCore s core) := by
  grind [haltCore, tidyCore_coreAt, tidy_stopCore, tidy_putCore, tidyCore_iff]

/-! ### The frame (R364, R365) -/

theorem tabWf_frameImage (tick reason : ℕ) (c : Core) : tabWf 0 (frameImage tick reason c) = true := by
  grind [frameImage, tabWf_imageOf]

/-! ### Lent vaults (R353, R363) -/

/-- A computation that writes the save region, or stops at a state, is bound to one that keeps the canonical form. -/
theorem tidy_bindWritten {r : Written} {f : State → Written} (hr : TidyState r.state) (hf : ∀ s, TidyState s → TidyState (f s).state) :
    TidyState (Written.state (r.bind f)) := by
  cases r with
  | error u => exact hr
  | ok u => exact hf u hr

theorem tidy_writeFrames {s : State} (k n reason : ℕ) (cs : List Core) (hs : TidyState s) : TidyState (writeFrames s k n reason cs).state := by
  induction cs generalizing s with
  | nil => exact hs
  | cons c cs ih => exact tidy_bindWritten (tidy_pasteRegion _ _ (tabWf_frameImage _ _ _) _ _ _ _ hs) fun _ h => ih h

theorem tidy_saveVaults {s : State} (k n reason va : ℕ) (vs : List ℕ) (hs : TidyState s) : TidyState (saveVaults s k n reason va vs).state := by
  induction vs generalizing s va with
  | nil => exact hs
  | cons v vs ih => exact tidy_bindWritten (tidy_pasteRegion _ _ hs.vaults _ _ _ _ hs) fun _ h => ih _ h

theorem keeps_restoreVault {s : State} (k va dst n : ℕ) (hs : TidyState s) : Keeps TidyState (restoreVault s k va dst n) := by
  induction n generalizing s va dst with
  | zero => exact .ok hs
  | succ n ih => exact keeps_bind (quiet_framePa ..) fun pa _ => ih _ _ { hs with vaults := tabWf_paste hs.vaults (tabWf_slice hs.mem _ _ _) _ _ }

theorem keeps_restoreVaults {s : State} (k va : ℕ) (vs : List ℕ) (hs : TidyState s) : Keeps TidyState (restoreVaults s k va vs) := by
  induction vs generalizing s va with
  | nil => exact .ok hs
  | cons v vs ih => exact keeps_bind (keeps_restoreVault _ _ _ _ hs) fun _ h => ih _ h

/-! ### Checkpoint (R363) -/

theorem entryTidy_savedEntry {e : QEntry} (he : entryTidy e) : entryTidy (savedEntry e) := by
  grind [savedEntry, entryTidy]

theorem tidyCore_savedCore {c : Core} (hc : TidyCore c) : TidyCore (savedCore c) :=
  have hq (q : List QEntry) (h : queueTidy q) : queueTidy (q.map savedEntry) := queueTidy_map h fun _ => entryTidy_savedEntry
  { hc with qdata := hq _ hc.qdata, qvec := hq _ hc.qvec, qmat := hq _ hc.qmat, qgrp := hq _ hc.qgrp }

theorem tidy_freeCores {s : State} (cores : List ℕ) (hs : TidyState s) : TidyState (freeCores s cores) :=
  tidy_foldl _ (tidy_foldl _ hs fun _ c h => tidy_scrubbed _ (tidy_putCore (tidy_releaseArray c h) c tidyCore_reset)) fun _ c h => tidy_returnMargin c h

/-- What follows the write of a job's frames and lent vaults (R363). It stands apart from the write, whose value the kernel would otherwise compute. -/
def afterSave (n : ℕ) (j : Job) (reason : ℕ) (image : List Core) : Written → State
  | .error s => killJob s n reason
  | .ok s =>
    let lent := (lentVaults s j.cores).length
    let s := freeCores s j.cores
    let s := setCtx s j.ctx { ctxAt s j.ctx with state := .saved }
    setJob s n { j with state := .saved, cores := [], image := image, drainAt := none, lent := lent, savedAt := some (s.now, j.cores) }

theorem saveJob_eq (s : State) (n : ℕ) (j : Job) (reason : ℕ) :
    saveJob s n j reason = afterSave n j reason (j.cores.map fun c => savedCore (coreAt s c))
      ((writeFrames s j.ctx n reason (j.cores.map fun c => savedCore (coreAt s c))).bind fun s =>
        saveVaults s j.ctx n reason (vaultSaveVa (ctxAt s j.ctx)) (lentVaults s j.cores)) := rfl

theorem tidy_afterSave {u : Written} (n : ℕ) {j : Job} (reason : ℕ) {image : List Core} (h : TidyState u.state) (himage : ∀ c ∈ image, TidyCore c) :
    TidyState (afterSave n j reason image u) := by
  cases u with
  | error u => exact tidy_killJob n reason h
  | ok u =>
    have hfree := tidy_freeCores j.cores h
    unfold afterSave
    refine tidy_setJob (tidy_setCtx hfree _ ?_) n ?_
    exacts [ctxTidy_ctxAt hfree j.ctx, himage]

theorem tidy_saveJob {s : State} (n : ℕ) (j : Job) (reason : ℕ) (hs : TidyState s) : TidyState (saveJob s n j reason) := by
  rw [saveJob_eq]
  refine tidy_afterSave n reason (tidy_bindWritten (tidy_writeFrames _ _ _ _ hs) fun _ h => tidy_saveVaults _ _ _ _ _ h) ?_
  simp only [List.mem_map]
  rintro _ ⟨c, -, rfl⟩
  exact tidyCore_savedCore (tidyCore_coreAt hs c)

theorem tidy_settleCore {s : State} (core : ℕ) (hs : TidyState s) : TidyState (settleCore s core) :=
  tidy_foldl _ (tidy_focusOn (tidy_stopCore core hs) core) fun _ flow h => tidy_closeFrame flow h

theorem tidy_checkpointJob {s : State} (n reason : ℕ) (hs : TidyState s) : TidyState (checkpointJob s n reason) := by
  have hmet := tidy_retireIfMet n hs
  unfold checkpointJob
  split
  · exact hs
  · dsimp only
    split
    · exact hmet
    · next j _ =>
      have hstop := tidy_foldl j.cores hmet fun _ core h => tidy_settleCore core h
      split
      · exact hmet
      · split
        exacts [tidy_saveJob n j reason hstop, hstop]

/-! ### Halt and unhalt (R80, R355, R369) -/

theorem tabWf_stopStall {t : Tab Machine.Flow} (now : ℕ) (ht : tabWf Flow.idle t = true) :
    tabWf Flow.idle (t.map fun p => (p.1, if bitField p.2.fsts.toNat 40 7 = 0 then p.2 else { p.2 with since := now - p.2.since })) = true := by
  refine tabWf_map (fun p => if bitField p.2.fsts.toNat 40 7 = 0 then p.2 else { p.2 with since := now - p.2.since }) ht fun p hp => ?_
  split
  · exact (tabWf_iff.1 ht).2 p hp
  · next h => exact fun heq => h (by rw [show p.2.fsts = 0 from congrArg Flow.fsts heq]; rfl)

theorem tidyCore_stopStall (now : ℕ) {c : Core} (hc : TidyCore c) : TidyCore (stopStall now c) :=
  have hq (q : List QEntry) (h : queueTidy q) :
      queueTidy (q.map fun e => { e with stall := match e.instr with | .dfencef .. => none | _ => e.stall.map fun t => (now - t.1, t.2) }) :=
    queueTidy_map h fun _ he => he
  { hc with qdata := hq _ hc.qdata, qvec := hq _ hc.qvec, qmat := hq _ hc.qmat, qgrp := hq _ hc.qgrp, flows := tabWf_stopStall now hc.flows }

theorem streamTidy_haltStream {t : Stream} (ht : streamTidy t) : streamTidy (haltStream t) := by
  grind [haltStream, streamTidy]

theorem streamTidy_unhaltStream {t : Stream} (ht : streamTidy t) : streamTidy (unhaltStream t) := by
  grind [unhaltStream, streamTidy]

theorem tidyCore_mapStreams {f : Stream → Stream} {c : Core} (hc : TidyCore c) (hf : ∀ t, streamTidy t → streamTidy (f t)) :
    TidyCore (mapStreams f c) :=
  { hc with c := hf _ hc.c, d := hf _ hc.d, v := hf _ hc.v, x := hf _ hc.x }

theorem tidy_freezeCores {s : State} (cores : List ℕ) (hs : TidyState s) : TidyState (freezeCores s cores) := by
  refine tidy_foldl _ (tidy_foldl _ hs fun s c h => ?_) fun _ c h => tidy_endGrant c h
  exact tidy_putCore h c (tidyCore_mapStreams (tidyCore_stopStall _ (tidyCore_coreAt h c)) fun _ => streamTidy_haltStream)

theorem tidy_haltRunning {s : State} (k : ℕ) (hs : TidyState s) : TidyState (haltRunning s k) := by
  unfold haltRunning
  split
  · exact hs
  · next j _ =>
    have hstop := tidy_foldl j.cores hs fun _ core h => tidy_haltCore core h
    dsimp only
    split
    exacts [hstop, tidy_freezeCores _ (tidy_setCtx hstop k (ctxTidy_ctxAt hstop k))]

theorem tidy_unhaltCores {s : State} (k : ℕ) (hs : TidyState s) : TidyState (unhaltCores s k) := by
  unfold unhaltCores
  split
  · exact hs
  · refine tidy_foldl _ (tidy_setCtx hs k (ctxTidy_ctxAt hs k)) fun s c h => ?_
    exact tidy_putCore h c (tidyCore_mapStreams (tidyCore_stopStall _ (tidyCore_coreAt h c)) fun _ => streamTidy_unhaltStream)

/-! ### The checks of a frame (R366) -/

@[simp] theorem quiet_mapRes {α β : Type} {r : Res α} {f : α → β} (h : Quiet r) : Quiet (r.map f) := h.map fun _ _ => trivial

@[simp] theorem quiet_readFrame {s : State} (k va n : ℕ) (hs : TidyState s) : Quiet (readFrame s k va n) :=
  quiet_mapRes (keeps_readRegion _ _ _ _ _ hs).quiet

@[simp] theorem quiet_recordSound {s : State} (k va entry : ℕ) (hs : TidyState s) : Quiet (recordSound s k va entry) :=
  keeps_ite (quiet_ok _) (keeps_bind (quiet_readFrame _ _ _ hs) fun _ _ => quiet_require _ _)

@[simp] theorem quiet_frameSound {s : State} (k rank : ℕ) (hs : TidyState s) : Quiet (frameSound s k rank) := by
  have hform (va : ℕ) : Quiet (readFrame s k va 1) := quiet_readFrame k va 1 hs
  have hdir (va : ℕ) : Quiet ((readFrame s k (va + 0x34000) 1024).bind fun dir =>
      inOrder ((upFrom 0 128).map fun b => recordSound s k va (leNat ((dir.drop (8 * b)).take 8)))) :=
    keeps_bind (quiet_readFrame _ _ _ hs) fun _ _ => quiet_inOrder (by simp [hs])
  unfold frameSound
  exact keeps_bind (hform _) fun form _ => quiet_inTurn (quiet_require _ _) (hdir _)

/-! ### A core from the bytes of its frame (R217, R356, R364 to R366) -/

theorem tabSorted_frameTab {α : Type} [DecidableEq α] (d : α) (n : ℕ) (f : ℕ → α) :
    tabSorted (frameTab d n f) = true := tabWf_sorted (tabWf_frameTab d n f)

theorem streamTidy_streamFrom (img : Memory) (st : StreamName) {t : Stream} (ht : streamTidy t) : streamTidy (streamFrom img st t) := by
  unfold streamFrom
  exact ⟨tabSorted_frameTab _ _ _, ht.2⟩

theorem entryTidy_entryFrom (img : Memory) (b : ℕ) {e : QEntry} (he : entryTidy e) : entryTidy (entryFrom img b e) := by
  grind [entryFrom, entryTidy]

theorem queueTidy_queueFrom (img : Memory) (base : ℕ) {q : List QEntry} (hq : queueTidy q) : queueTidy (queueFrom img base q) := by
  simp only [queueTidy, queueFrom, List.mem_filterMap, Option.ite_none_right_eq_some, Option.some.injEq]
  rintro _ ⟨⟨i, e⟩, he, -, rfl⟩
  exact entryTidy_entryFrom _ _ (hq e (List.of_mem_zip he).2)

theorem queueTidy_binsFrom (img : Memory) {q : List QEntry} (hq : queueTidy q) : queueTidy (binsFrom img q) := by
  cases q with
  | nil => exact queueTidy_nil
  | cons e q =>
    obtain ⟨he, hq⟩ := List.forall_mem_cons.1 hq
    refine List.forall_mem_cons.2 ⟨?_, hq⟩
    split
    · exact fun _ hb => Partial.bins.inj hb ▸ tabWf_frameTab _ _ _
    · exact he

theorem tabWf_unitsFrom (img : Memory) (ts : List ℕ) (src dst : ℕ) {m : Tab Byte} (hm : tabWf 0 m = true) :
    tabWf 0 (unitsFrom img ts src dst m) = true := by
  induction ts generalizing src dst m with
  | nil => exact hm
  | cons t ts ih => exact ih _ _ (tabWf_setRange hm _ _)

theorem tabWf_spadFrom (img : Memory) : tabWf 0 (spadFrom img) = true :=
  tabWf_foldl (fun _ _ h => tabWf_unitsFrom img _ _ _ h) _ rfl

theorem arrayTidy_arrFrom {img : Memory} (a : ArrayState) (himg : tabWf 0 img = true) : arrayTidy (arrFrom img a) := by
  have hwords (live : Bool) (off n : ℕ) : tabWf 0 (if live then wordsFrom off (tabSlice img off n off) else []) = true := by
    cases live
    exacts [rfl, tabWf_wordsFrom off (tabWf_slice himg _ _ _)]
  exact ⟨hwords .., hwords ..⟩

theorem tidyCore_restoredCore {img : Memory} {c : Core} (himg : tabWf 0 img = true) (hc : TidyCore c) : TidyCore (restoredCore img c) := by
  refine tidyCore_iff.2 ?_
  unfold restoredCore
  dsimp only
  exact ⟨streamTidy_streamFrom img .c hc.c, streamTidy_streamFrom img .d hc.d, streamTidy_streamFrom img .v hc.v, streamTidy_streamFrom img .x hc.x,
    tabWf_spadFrom img, tabSorted_frameTab _ _ _, hc.groups, tabWf_frameTab _ _ _, arrayTidy_arrFrom c.arr himg, queueTidy_queueFrom img _ hc.qdata,
    queueTidy_binsFrom img (queueTidy_queueFrom img _ hc.qvec), queueTidy_queueFrom img _ hc.qmat, queueTidy_queueFrom img _ hc.qgrp⟩

theorem keeps_readFrames {s : State} (k q : ℕ) {cs : List Core} (hs : TidyState s) (hcs : ∀ c ∈ cs, TidyCore c) :
    Keeps (fun l => ∀ c ∈ l, TidyCore c) (readFrames s k q cs) := by
  induction cs generalizing q with
  | nil => exact .ok hcs
  | cons c cs ih =>
    obtain ⟨hc, hcs⟩ := List.forall_mem_cons.1 hcs
    refine keeps_bind (keeps_readRegion _ _ _ _ _ hs) fun img himg => (ih _ hcs).map fun l hl => ?_
    exact List.forall_mem_cons.2 ⟨tidyCore_restoredCore himg hc, hl⟩

/-! ### Resumption (R366) -/

theorem tidyCore_awaitMerge (kept : Core) {c : Core} (hc : TidyCore c) : TidyCore (awaitMerge kept c) := by
  grind [awaitMerge, tidyCore_iff]

theorem tidy_mergeOn {s : State} (core : ℕ) (hs : TidyState s) : TidyState (mergeOn s core) := by
  grind [mergeOn, tidy_focusOn, tidy_mergeCore]

theorem tidy_agentStatus {s : State} (hs : TidyState s) : TidyState (agentStatus s) := by
  grind [agentStatus, tidyState_iff]

theorem keeps_jobImage {s : State} {j : Job} (hs : TidyState s) (hj : jobTidy j) : Keeps (fun l => ∀ c ∈ l, TidyCore c) (jobImage s j) := by
  have hall : Quiet (inOrder ((upFrom 0 j.image.length).map (frameSound s j.ctx))) := quiet_inOrder (by simp [hs])
  unfold jobImage
  split
  · next h => exact hall.stop h
  · exact keeps_readFrames _ _ hs hj

theorem keeps_startImage {s : State} (n : ℕ) (j : Job) (cores : List ℕ) {image : List Core} (hs : TidyState s) (himage : ∀ c ∈ image, TidyCore c) :
    Keeps TidyState (startImage s n j cores image) := by
  unfold startImage
  refine keeps_restoreVaults _ _ _ (tidy_setJob (List.foldlRecOn _ _ hs fun t ht p hp => ?_) n (jobTidy_of_nil rfl))
  have hmem := (List.of_mem_zip (List.of_mem_zip hp).2).2
  exact tidy_putCore ht _ (tidyCore_awaitMerge _ (himage _ hmem))

theorem tidy_restoreJob {s t : State} {n : ℕ} {j : Job} {cores : List ℕ} (hs : TidyState s) (hj : jobTidy j) (h : restoreJob s n j cores = some t) :
    TidyState t := by
  have hstart := keeps_bind (keeps_jobImage hs hj) fun image himage => keeps_startImage n j cores hs himage
  unfold restoreJob at h
  dsimp only at h
  split at h
  · cases h
  · cases h
    exact tidy_killJob _ _ (tidy_absorb _ hs)
  · next u hu =>
    have hu := hstart.of_ok hu
    have hmerged := tidy_foldl cores (tidy_setCtx hu j.ctx (c := { ctxAt s j.ctx with state := .running, haltPending := false }) (ctxTidy_ctxAt hs j.ctx))
      fun _ core h => tidy_mergeOn core h
    cases h
    split
    exacts [tidy_agentStatus (tidy_haltRunning _ hmerged), hmerged]

/-! ### Policy (R362) -/

theorem tidy_preemptJob {s : State} (n : ℕ) (skip : Bool) (hs : TidyState s) : TidyState (preemptJob s n skip) := by
  unfold preemptJob
  split
  · exact hs
  · next j hj =>
    have hjob := jobTidy_of_jobAt hs hj
    have hdrain : TidyState (setJob s n { j with drainAt := some j.resident }) := tidy_setJob hs n hjob
    split_ifs
    exacts [hs, hs, hdrain, tidy_checkpointJob _ _ hs, tidy_killJob _ _ (tidy_retireIfMet _ hs), hs]

theorem tidy_endDrain {s : State} (n : ℕ) (hs : TidyState s) : TidyState (endDrain s n) := by
  unfold endDrain
  split
  · exact hs
  · next j hj =>
    have hjob := jobTidy_of_jobAt hs hj
    have hdrain : TidyState (setJob s n { j with drainAt := none }) := tidy_setJob hs n hjob
    dsimp only
    split_ifs
    exacts [hs, tidy_checkpointJob _ _ hdrain, tidy_killJob _ _ (tidy_retireIfMet _ hdrain), hdrain]

theorem tidy_revokeJob {s : State} (n : ℕ) (hs : TidyState s) : TidyState (revokeJob s n) := by
  grind [revokeJob, tidy_checkpointJob, tidy_killJob, tidy_retireIfMet]

theorem tidy_pauseJob {s : State} (n : ℕ) (hs : TidyState s) : TidyState (pauseJob s n) := by
  grind [pauseJob, tidy_checkpointJob]

end Sys2Proof.Proofs
end

section
/-! PROOF. Canonical form kept. The placement, revocation and dispatch of jobs, and the instructions of class P (R127, R128, R132, R338 to R344,
R372 to R381, R386 to R395). -/

namespace Sys2Proof.Proofs
open Sys2Proof Sys2Proof.Machine Sys2Proof.Claims

/-! ### Where a job may stand (R132, R386, R387, R393) -/

theorem tidy_lendCluster {s : State} (part u : ℕ) (hs : TidyState s) : TidyState (lendCluster s part u) := by
  have hlent (owner : ℕ) : TidyState { s with margins := tabSet .home s.margins u (.lent part owner) } := { hs with }
  unfold lendCluster
  cases marginOwner s u with
  | none => exact hs
  | some owner => exact tidy_lendWays _ _ (hlent owner)

theorem tidy_lendUnits {s : State} (v : ℕ) (cores : List ℕ) (hs : TidyState s) : TidyState (lendUnits s v cores) := by
  refine tidy_foldl _ hs fun s u h => ?_
  split
  exacts [tidy_lendCluster _ _ h, h]

/-! ### Revocation (R393 to R395) -/

theorem tidy_revokeUnit {s : State} (u : ℕ) (hs : TidyState s) : TidyState (revokeUnit s u) := by
  unfold revokeUnit
  split
  exacts [tidy_foldl _ hs fun _ n h => tidy_revokeJob n h, hs]

/-! ### The start of a job (R127, R128) -/

theorem streamTidy_startStream (j : Job) (st : StreamName) : streamTidy (startStream j st) := by
  have hrun : streamTidy { Stream.reset with state := .run } := streamTidy_reset
  have hargs := streamTidy_setRegOf hrun 1 j.rcd.args
  unfold startStream
  dsimp only
  split
  exacts [streamTidy_setRegOf hargs _ _, hargs]

theorem tidyCore_startCore (n : ℕ) (j : Job) (k rank : ℕ) (descs data : List Byte) : TidyCore (startCore n j k rank descs data) := by
  have hreset := tidyCore_reset
  exact tidyCore_putSpad _ _ { hreset with
    c := streamTidy_startStream j .c, d := streamTidy_startStream j .d, v := streamTidy_startStream j .v, x := streamTidy_startStream j .x }

theorem tidy_startJob {s : State} (n : ℕ) {j : Job} (k : ℕ) (cores : List ℕ) (descs data : List Byte) (hs : TidyState s) (hj : jobTidy j) :
    TidyState (startJob s n j k cores descs data) := by
  have hcores := tidy_foldl (f := fun s (p : ℕ × ℕ) => putCore s p.2 (startCore n j k p.1 descs data)) ((upFrom 0 cores.length).zip cores)
    (tidy_lendUnits j.vd cores hs) fun _ p h => tidy_putCore h p.2 (tidyCore_startCore n j k p.1 descs data)
  unfold startJob
  refine tidy_setJob (tidy_setCtx hcores k ?_) n ?_
  exacts [ctxTidy_ctxAt hcores k, hj]

theorem tidy_requestPage {s : State} (k va : ℕ) (hs : TidyState s) : TidyState (requestPage s k va) := by
  grind [requestPage, tidy_postPageRequest, tidy_absorb]

@[simp] theorem quiet_readImages (s : State) (k : ℕ) (j : Job) : Quiet (readImages s k j) := by
  grind [readImages, quiet_agentLoad, keeps_ok, keeps_error]

theorem tidy_placeJob {s : State} (n : ℕ) {j : Job} (k : ℕ) (cores : List ℕ) (hs : TidyState s) (hj : jobTidy j) :
    TidyState (placeJob s n j k cores) := by
  grind [placeJob, tidy_killJob, tidy_startJob, tidy_requestPage, tidy_setJob, tidy_absorb, jobTidy]

theorem tidy_placeChosen {s : State} (n : ℕ) (cores : List ℕ) (hs : TidyState s) : TidyState (placeChosen s n cores) := by
  grind [placeChosen, jobTidy_of_jobAt, tidy_placeJob]

/-! ### Dispatch and urgency (R343, R344, R362) -/

theorem tidy_urge {s : State} (j : Job) (hs : TidyState s) : TidyState (urge s j) := by
  unfold urge
  split
  · exact hs
  · exact tidy_foldl _ (tidy_foldl _ hs fun _ m h => tidy_preemptJob m _ h) fun _ u h => tidy_revokeUnit u h

theorem tidy_dispatchOn {s : State} (die : ℕ) (cores : List ℕ) (hs : TidyState s) : TidyState (dispatchOn s die cores) := by
  unfold dispatchOn
  split
  · exact hs
  · split
    · split
      exacts [{ hs with }, hs]
    · exact tidy_urge _ hs

theorem tidy_resumeOn {s : State} (n : ℕ) (cores : List ℕ) (hs : TidyState s) : TidyState (resumeOn s n cores) := by
  unfold resumeOn
  split
  · exact hs
  · next j hj =>
    dsimp only
    split
    · cases h : restoreJob (lendUnits s j.vd cores) n j cores with
      | none => exact hs
      | some u => exact tidy_foldl _ (tidy_restoreJob (tidy_lendUnits _ _ hs) (jobTidy_of_jobAt hs hj) h) fun _ c hu => tidy_returnMargin c hu
    · exact hs

theorem tidy_revokeFenced {s : State} (hs : TidyState s) : TidyState (revokeFenced s) := by
  refine tidy_foldl _ hs fun s u h => ?_
  split
  exacts [tidy_revokeUnit u h, h]

/-! ### CSRs (R43, R44, R319, R372, R373) -/

theorem tidy_csrWrite {s : State} (n : ℕ) (new : Word) (hs : TidyState s) : TidyState (csrWrite s n new) := by
  have hctx := ctxTidy_curCtx hs
  unfold csrWrite
  dsimp only
  split
  · exact tidy_setCore hs { hs.core with }
  · exact tidy_setCore hs { hs.core with }
  · exact tidy_setCurCtx hs hctx
  · exact tidy_setCore hs { hs.core with }
  · exact tidy_setCurCtx hs hctx
  · exact tidy_setCurCtx hs hctx
  · exact tidy_setCurCtx hs hctx
  · exact tidy_setCurCtx hs hctx
  · exact tidy_setCore hs { hs.core with }
  · exact tidy_setCore hs { hs.core with }
  · exact tidy_setCore hs { hs.core with }
  · exact tidy_setCore hs { hs.core with }
  · exact hs

theorem tidy_csrClear {s : State} (n : ℕ) (v : Word) (hs : TidyState s) : TidyState (csrClear s n v) := by
  grind [csrClear, tidyCore_iff, tidyState_iff]

theorem outTidy_onCsr {s : State} (n : ℕ) {r : Outcome} (hs : TidyState s) (hr : OutTidy r) : OutTidy (onCsr s n r) := by
  grind [onCsr, tidy_trapCur, outTidy_atLevelP, outTidy_next]

theorem outTidy_execCsrr (gd csr : ℕ) {s : State} (hs : TidyState s) : OutTidy (execCsrr gd csr s) := by
  grind [execCsrr, outTidy_onCsr, outTidy_finish, tidy_writeReg]

theorem outTidy_execCsrw (gd ga csr : ℕ) {s : State} (hs : TidyState s) : OutTidy (execCsrw gd ga csr s) := by
  grind [execCsrw, outTidy_onCsr, outTidy_finish, tidy_writeReg, tidy_csrClear, tidy_csrWrite]

theorem outTidy_execCsrs (gd ga csr : ℕ) {s : State} (hs : TidyState s) : OutTidy (execCsrs gd ga csr s) := by
  grind [execCsrs, outTidy_onCsr, outTidy_finish, tidy_writeReg, tidy_csrWrite]

theorem outTidy_execCsrc (gd ga csr : ℕ) {s : State} (hs : TidyState s) : OutTidy (execCsrc gd ga csr s) := by
  grind [execCsrc, outTidy_onCsr, outTidy_finish, tidy_writeReg, tidy_csrClear, tidy_csrWrite]

/-! ### TRAP, RTE, BRK (R377, R378, R380) -/

theorem outTidy_execTrap (ga code : ℕ) {s : State} (hs : TidyState s) : OutTidy (execTrap ga code s) := by
  grind [execTrap, streamTidy_curStream, tidy_advance, tidy_setCur, tidy_raiseTrap, outTidy_next, streamTidy]

theorem tidy_returnStreams {s : State} (hs : TidyState s) : TidyState (returnStreams s) := by
  refine tidy_foldl [StreamName.d, .v, .x] hs fun s st h => ?_
  split
  exacts [tidy_returnStream _ _ (tidy_setCore h (tidyCore_setPend _ _ h.core)), h]

/-- What follows the record's end at RTE (R378). It stands apart from the write of the record, whose value the kernel would otherwise compute. -/
def afterRecordEnd (r : TrapRecord) (s : State) : State :=
  let mark := if s.core.c.step = .armed true then StepMark.armed false else s.core.c.step
  let s := { s with core := setInh { s.core with c := { s.core.c with loops := r.loops, rets := r.rets, step := mark } } false }
  completeAt s s.core.tepc

/-- The status of the C stream back at level U (R378). -/
def toLevelU (s : State) : State := { s with core := { s.core with tstat := BitVec.ofNat 64 (setField s.core.tstat.toNat 8 3 0) } }

theorem returnFrom_eq (s : State) :
    returnFrom s = afterRecordEnd (toLevelU (returnStreams s)).core.c.record (clearRecord (toLevelU (returnStreams s)) (toLevelU (returnStreams s)).focus .c) := rfl

theorem tidy_toLevelU {s : State} (hs : TidyState s) : TidyState (toLevelU s) := tidy_setCore hs { hs.core with }

theorem tidy_afterRecordEnd {s : State} (r : TrapRecord) (hs : TidyState s) : TidyState (afterRecordEnd r s) :=
  tidy_completeAt _ (tidy_setCore hs (tidyCore_setInh _ { hs.core with c := streamTidy_of_eq hs.core.c rfl rfl }))

theorem tidy_returnFrom {s : State} (hs : TidyState s) : TidyState (returnFrom s) := by
  rw [returnFrom_eq]
  exact tidy_afterRecordEnd _ (tidy_clearRecord _ _ (tidy_toLevelU (tidy_returnStreams hs)))

theorem outTidy_execRte {s : State} (hs : TidyState s) : OutTidy (execRte s) := by
  grind [execRte, outTidy_atLevelP, tidy_killJob, tidy_returnFrom, outTidy_next]

theorem outTidy_execBrk (code : ℕ) {s : State} (hs : TidyState s) : OutTidy (execBrk code s) := by
  grind [execBrk, tidy_trapCur, outTidy_next]

/-! ### ICIV and YIELD (R379, R381) -/

theorem ctxTidy_dropCode {c : Context} (lo n : ℕ) (hc : ctxTidy c) : ctxTidy (dropCode c lo n) := by
  grind [dropCode, ctxTidy]

theorem outTidy_execIciv (ga gb : ℕ) {s : State} (hs : TidyState s) : OutTidy (execIciv ga gb s) := by
  grind [execIciv, outTidy_run, keeps_faultVa, tidy_setCurCtx, ctxTidy_dropCode, ctxTidy_curCtx, keeps_ok]

theorem outTidy_execYield {s : State} (hs : TidyState s) : OutTidy (execYield s) := by
  grind [execYield, tidy_advance, tidy_checkpointJob, outTidy_next]

end Sys2Proof.Proofs
end

section
/-! PROOF. Canonical form kept. TLBINV and PMIG, launch records, completion words, the steps of jobs and queues, page requests and migrations (R134,
R341 to R347, R410 to R415, R422 to R424). -/

namespace Sys2Proof.Proofs
open Sys2Proof Sys2Proof.Machine Sys2Proof.Claims

/-! ### TLBINV (R423) -/

theorem ctxTidy_dropPages {c : Context} (hit large : ℕ → Bool) (hc : ctxTidy c) : ctxTidy (dropPages c hit large) :=
  ⟨hc.1, tabSorted_filter _ hc.2⟩

theorem outTidy_execTlbinvPage (ga : ℕ) {s : State} (hs : TidyState s) : OutTidy (execTlbinvPage ga s) := by
  grind [execTlbinvPage, outTidy_atLevelP, outTidy_finish, tidy_setCurCtx, ctxTidy_dropPages, ctxTidy_curCtx]

theorem outTidy_execTlbinvRange (ga gb : ℕ) {s : State} (hs : TidyState s) : OutTidy (execTlbinvRange ga gb s) := by
  grind [execTlbinvRange, outTidy_atLevelP, outTidy_run, keeps_faultVa, tidy_setCurCtx, ctxTidy_dropPages, ctxTidy_curCtx, keeps_ok]

theorem outTidy_execTlbinvCtx {s : State} (hs : TidyState s) : OutTidy (execTlbinvCtx s) := by
  have hctx : ctxTidy { curCtx s with tlb := [] } := ⟨(ctxTidy_curCtx hs).1, rfl⟩
  exact outTidy_atLevelP hs (outTidy_finish (tidy_setCurCtx hs hctx))

/-! ### Migrations (R411) -/

theorem tidy_startMigration {s : State} (k va : ℕ) (l : Leaf) (frame : Option ℕ) (hs : TidyState s) : TidyState (startMigration s k va l frame) := by
  grind [startMigration, tidy_writeEntry, tidy_movePot, tidyState_iff]

/-! ### PMIG (R424) -/

theorem outTidy_pmigOn {s : State} (op : PmigOp) (gd va : ℕ) (l : Leaf) (hs : TidyState s) : OutTidy (pmigOn s op gd va l) := by
  have hstatus (n : ℕ) : OutTidy (finish (writeNat s gd n)) := outTidy_finish (tidy_writeNat hs gd n)
  unfold pmigOn
  dsimp only
  split
  · exact hstatus 3
  · split
    · exact hstatus 2
    · split
      · exact hstatus 0
      · split
        · exact outTidy_next.2 (tidy_waitOn _ (tidy_startMigration _ _ _ _ hs))
        · split
          · exact outTidy_next.2 (tidy_waitOn _ (tidy_postPageRequest _ _ _ _ hs))
          · split
            · exact hstatus 1
            · next h => exact outTidy_next.2 (tidy_waitOn _ (tidy_startMigration _ _ _ _ (tidy_takeFrame hs h)))

@[simp] theorem quiet_leafFrame (s : State) (k va : ℕ) (l : Leaf) : Quiet (leafFrame s k va l) := by
  grind [leafFrame, quiet_checkPot, keeps_ok]

theorem outTidy_execPmig (op : PmigOp) (gd ga : ℕ) {s : State} (hs : TidyState s) : OutTidy (execPmig op gd ga s) := by
  grind [execPmig, outTidy_atLevelP, quiet_walk, tidy_settle, quiet_inTurn, quiet_leafWorld, quiet_leafFrame, outTidy_pmigOn, keeps_error,
    outTidy_next]

theorem tidy_completePmig {s : State} (core status : ℕ) (hs : TidyState s) : TidyState (completePmig s core status) := by
  grind [completePmig, tidy_focusOn, tidy_advanceBy, tidy_writeNat, tidyState_iff]

/-! ### The checks of a launch (R128, R341) -/

@[simp] theorem quiet_pagesRead (s : State) (k : ℕ) (vas : List ℕ) : Quiet (pagesRead s k vas) := by
  induction vas with
  | nil => exact quiet_ok _
  | cons va vas ih =>
    unfold pagesRead
    split
    · next h => exact (quiet_translate ..).stop h
    · exact quiet_mapRes ih
    · exact ih

@[simp] theorem quiet_wordAccess (s : State) (k csem : ℕ) : Quiet (wordAccess s k csem) := by
  grind [wordAccess, keeps_fault, keeps_trap, keeps_ok]

theorem tidy_refuseLaunch {s : State} (n : ℕ) (j : Job) (word : Bool) (hs : TidyState s) : TidyState (refuseLaunch s n j word) := by
  grind [refuseLaunch, tidy_finishAs]

theorem tidy_settleRecord {s : State} (n : ℕ) {j : Job} (hs : TidyState s) (hj : jobTidy j) : TidyState (settleRecord s n j) := by
  have hjob (i : Job) (hi : i.image = j.image) : TidyState (setJob s n i) := tidy_setJob hs n (by rw [jobTidy, hi]; exact hj)
  unfold settleRecord
  split
  · exact tidy_refuseLaunch (hs := tidy_standHw _ hs) ..
  · exact hjob _ rfl
  · split
    · exact hs
    · exact tidy_foldl _ (hjob _ rfl) fun _ va h => tidy_requestIfAbsent _ va h
  · dsimp only
    split
    exacts [tidy_finishJob _ _ _ _ hs, hjob _ rfl]

theorem jobTidy_of_mem_jobList {s : State} {p : ℕ × Job} (hs : TidyState s) (hp : p ∈ jobList s) : jobTidy p.2 := by
  simp only [jobList, List.mem_filterMap, Option.map_eq_some_iff] at hp
  obtain ⟨q, hq, j, hj, rfl⟩ := hp
  exact hs.jobs q hq j hj

theorem tidy_settleReading {s : State} (v q : ℕ) (hs : TidyState s) : TidyState (settleReading s v q) := by
  refine List.foldlRecOn _ _ hs fun t ht p hp => ?_
  split
  exacts [tidy_settleRecord _ ht (jobTidy_of_mem_jobList hs hp), ht]

/-! ### Reading a record (R341) -/

theorem tidy_fetchFailed {s : State} (v q cause : ℕ) (hs : TidyState s) : TidyState (fetchFailed s v q cause) := by
  grind [fetchFailed, tidy_setQueue, tidy_postEvent]

theorem tidy_takeRecord {s : State} (v q : ℕ) (r : LaunchRec) (hs : TidyState s) : TidyState (takeRecord s v q r) := by
  grind [takeRecord, tidy_settleRecord, tidy_setJob, tidy_setQueue, jobTidy, tidyState_iff]

theorem tidy_readRecord {s : State} (v q : ℕ) (hs : TidyState s) : TidyState (readRecord s v q) := by
  grind [readRecord, tidy_takeRecord, tidy_fetchFailed, tidy_standHw]

theorem outTidy_execRecordRead (vd queue : ℕ) {s : State} (hs : TidyState s) : OutTidy (execRecordRead vd queue s) := by
  grind [execRecordRead, tidy_readRecord, tidy_settleReading, outTidy_next]

/-! ### Placement (R132, R343, R344) -/

theorem outTidy_execDispatch (die : ℕ) (cores : List ℕ) {s : State} (hs : TidyState s) : OutTidy (execDispatch die cores s) := by
  grind [execDispatch, tidy_dispatchOn, outTidy_next]

theorem outTidy_execJobPlace (job : ℕ) (cores : List ℕ) {s : State} (hs : TidyState s) : OutTidy (execJobPlace job cores s) := by
  grind [execJobPlace, tidy_placeChosen, outTidy_next]

/-! ### Completion words and events (R135, R345 to R347) -/

theorem tidy_completeJob {s : State} (n : ℕ) {j : Job} (failure : ℕ) (hs : TidyState s) (hj : jobTidy j) : TidyState (completeJob s n j failure) := by
  grind [completeJob, tidy_setJob, tidy_postCompletion, jobTidy]

theorem outTidy_execCompletionWordIncrement (job : ℕ) {s : State} (hs : TidyState s) : OutTidy (execCompletionWordIncrement job s) := by
  refine outTidy_next.2 ?_
  split
  · exact hs
  · next j hjob =>
    have hj := jobTidy_of_jobAt hs hjob
    split
    · exact hs
    · split
      · exact tidy_completeJob _ _ hs hj
      · dsimp only
        split
        · refine tidy_postPageRequest _ _ _ _ (tidy_setJob hs job ?_)
          exact hj
        · split
          · next h => exact tidy_completeJob _ _ (tidy_physWrite _ _ _ ((keeps_memAtomic _ _ _ hs).of_ok h)) hj
          · exact tidy_completeJob _ _ (tidy_standHw _ hs) hj
          · exact tidy_shortAccess _ _ _ _ hs
          · exact hs

theorem tidy_eventFailed {s : State} (v : ℕ) (hs : TidyState s) : TidyState (eventFailed s v) := by
  grind [eventFailed, tidy_setVd]

theorem tidy_writeEvent {s : State} (v : ℕ) (hs : TidyState s) : TidyState (writeEvent s v).1 := by
  grind [writeEvent, tidy_setVd, tidy_eventFailed, tidy_standHw, tidy_postPageRequest, tidy_absorb, tidy_physWrite, tidy_sendMsix]

theorem tidy_writeEvents {s : State} (v n : ℕ) (hs : TidyState s) : TidyState (writeEvents s v n) := by
  induction n generalizing s with
  | zero => exact hs
  | succ n ih => grind [writeEvents, tidy_writeEvent]

theorem tidy_writeHeld {s : State} (v : ℕ) (hs : TidyState s) : TidyState (writeHeld s v) := by
  grind [writeHeld, tidy_writeEvents]

theorem tidy_writeAdvanced {s : State} (hs : TidyState s) : TidyState (writeAdvanced s) :=
  tidy_foldl _ hs fun _ p h => tidy_writeHeld p.1 (tidy_setVd h p.1 _)

theorem outTidy_execEventWrite (vd : ℕ) {s : State} (hs : TidyState s) : OutTidy (execEventWrite vd s) := by
  grind [execEventWrite, tidy_writeEvent, outTidy_next]

/-! ### Stopping and starting jobs (R134, R362, R363, R366, R386) -/

theorem outTidy_execCheckpoint (job reason : ℕ) {s : State} (hs : TidyState s) : OutTidy (execCheckpoint job reason s) := by
  grind [execCheckpoint, tidy_checkpointJob, outTidy_next]

theorem outTidy_execResume (job : ℕ) (cores : List ℕ) {s : State} (hs : TidyState s) : OutTidy (execResume job cores s) := by
  grind [execResume, tidy_resumeOn, outTidy_next]

theorem outTidy_execKill (job cause : ℕ) {s : State} (hs : TidyState s) : OutTidy (execKill job cause s) := by
  grind [execKill, tidy_killJob, tidy_retireIfMet, outTidy_next]

theorem outTidy_execSliceEnd (job : ℕ) {s : State} (hs : TidyState s) : OutTidy (execSliceEnd job s) := by
  grind [execSliceEnd, tidy_preemptJob, outTidy_next]

theorem outTidy_execDrainTimeout (job : ℕ) {s : State} (hs : TidyState s) : OutTidy (execDrainTimeout job s) := by
  grind [execDrainTimeout, tidy_endDrain, outTidy_next]

/-! ### Queues (R336 to R339) -/

theorem tidy_mapQueues {s : State} (v : ℕ) (f : Queue → Queue) (hs : TidyState s) : TidyState (mapQueues s v f) :=
  tidy_foldl _ hs fun _ q h => tidy_setQueue v q _ h

theorem outTidy_execQueueSwitchOut (vd : ℕ) {s : State} (hs : TidyState s) : OutTidy (execQueueSwitchOut vd s) := by
  grind [execQueueSwitchOut, tidy_mapQueues, tidy_setVd, outTidy_next]

theorem outTidy_execQueueSwitchIn (vd : ℕ) {s : State} (hs : TidyState s) : OutTidy (execQueueSwitchIn vd s) := by
  grind [execQueueSwitchIn, tidy_writeHeld, tidy_mapQueues, tidy_setVd, outTidy_next]

/-! ### The end of a page request (R175, R410, R424) -/

theorem tidyCore_failPreq (k page : ℕ) {c : Core} (hc : TidyCore c) : TidyCore (failPreq k page c) := by
  unfold failPreq
  split
  · have hq : queueTidy (c.qdata.map fun e => if preqAsked e page then { e with part := .pages (requested e).1 ((requested e).2 ++ [page]) } else e) := by
      refine queueTidy_map hc.qdata fun e he => ?_
      split
      exacts [entryTidy_of_ne fun _ => nofun, he]
    exact { hc with qdata := hq }
  · exact hc

theorem tidy_failPreqs {s : State} (k page : ℕ) (hs : TidyState s) : TidyState (failPreqs s k page) :=
  tidy_mapCores hs (fun _ => tidyCore_failPreq k page) fun _ hj => jobTidy_mapImage hj fun _ => tidyCore_failPreq k page

theorem tidy_failJob {s : State} (n : ℕ) (hs : TidyState s) : TidyState (failJob s n) := by
  grind [failJob, jobTidy_of_jobAt, tidy_refuseLaunch, tidy_killJob, tidy_completeJob]

/-- Jobs changed in place. -/
theorem tidy_mapJobs {s : State} {g : Job → Job} (hs : TidyState s) (hg : ∀ j, jobTidy j → jobTidy (g j)) :
    TidyState { s with jobs := s.jobs.map fun p => (p.1, p.2.map g) } where
  __ := hs
  jobs p hp i hi := by
    have hp' : p ∈ s.jobs.map fun q => (q.1, q.2.map g) := hp
    obtain ⟨q, hq, rfl⟩ := List.mem_map.1 hp'
    obtain ⟨j, hj, rfl⟩ := Option.map_eq_some_iff.1 hi
    exact hg j (hs.jobs q hq j hj)

theorem tidy_clearAsked {s : State} (k page : ℕ) (hs : TidyState s) : TidyState (clearAsked s k page) := tidy_mapJobs hs fun _ hj => hj

theorem tidy_endPmigs {s : State} (k page status : ℕ) (hs : TidyState s) : TidyState (endPmigs s k page status) :=
  tidy_foldl _ hs fun _ c h => tidy_completePmig c status h

theorem tidy_failRequest {s : State} (k page status : ℕ) (hs : TidyState s) : TidyState (failRequest s k page status) :=
  tidy_clearAsked k page (tidy_foldl _ (tidy_endPmigs k page status (tidy_failPreqs k page hs)) fun _ n h => tidy_failJob n h)

theorem tidy_fillFrame {s : State} (frame : ℕ) (bs : List Byte) (hs : TidyState s) : TidyState (fillFrame s frame bs) := by
  have hlines := tidy_stepLines (linesOf (frame * 65536) 65536) hs
  exact { hlines with mem := tabWf_setRange (tabWf_clear hlines.mem _ _) _ _ }

theorem tidy_installPage {s : State} (r : PageRequest) (frame tier : ℕ) (bs : List Byte) (hs : TidyState s) :
    TidyState (installPage s r frame tier bs).1 := by
  grind [installPage, tidy_writeEntry, tidy_changePot, tidy_fillFrame, tidy_absorb]

theorem tidy_serveRequest {s : State} (r : PageRequest) (contents : Option (List Byte)) (hs : TidyState s) :
    TidyState (serveRequest s r contents) := by
  have hleft : TidyState { s with pageReqs := s.pageReqs.filter fun q => q ≠ r } := { hs with }
  unfold serveRequest
  dsimp only
  split
  · exact tidy_failRequest _ _ _ hleft
  · split
    · exact tidy_failRequest _ _ _ hleft
    · split
      · exact tidy_failRequest _ _ _ (tidy_giveFrame (hs := hleft) ..)
      · split
        · exact tidy_writeHeld _ (tidy_clearAsked _ _ (tidy_endPmigs _ _ _ (tidy_installPage _ _ _ _ hleft)))
        · exact tidy_clearAsked _ _ (tidy_giveFrame (hs := hleft) ..)

theorem outTidy_execPageRequestDone (ctx page : ℕ) (contents : Option (List Byte)) {s : State} (hs : TidyState s) :
    OutTidy (execPageRequestDone ctx page contents s) := by
  grind [execPageRequestDone, tidy_serveRequest, outTidy_next]

/-! ### The end of a migration (R411, R412, R424) -/

theorem tidy_copyFrame {s : State} (old new : ℕ) (hs : TidyState s) : TidyState (copyFrame s old new) := by
  grind [copyFrame, tidy_stepLines, tidy_flushFrame, tabWf_paste, tabWf_slice, tidyState_iff]

theorem tidy_scrubFrame {s : State} (vd frame : ℕ) (hs : TidyState s) : TidyState (scrubFrame s vd frame) := by
  grind [scrubFrame, tidy_giveFrame, tidyState_iff]

theorem tidy_sendPage {s : State} (conf : Bool) (vd frame world tag : ℕ) (hs : TidyState s) : TidyState (sendPage s conf vd frame world tag) := by
  grind [sendPage, tidyState_iff]

theorem tidy_finishMigration {s : State} (m : Migration) (hs : TidyState s) : TidyState (finishMigration s m) := by
  grind [finishMigration, tidy_movePot, tidy_copyFrame, tidy_writeEntry, tidy_sendPage, tidy_endPmigs, tidy_scrubFrame]

theorem tidy_abandonMigration {s : State} (m : Migration) (hs : TidyState s) : TidyState (abandonMigration s m) := by
  grind [abandonMigration, tidy_giveFrame, tidy_writeEntry, tidy_changePot, tidy_endPmigs, tidy_absorb]

theorem tidy_meetErrors {s : State} (f : ℕ) (hs : TidyState s) : TidyState (meetErrors s f) := by
  unfold meetErrors
  cases metaErrorAt s (f * 65536) 65536 with
  | none => exact hs
  | some b => exact tidy_quarantineBlock _ hs

theorem tidy_endMigration {s : State} (m : Migration) (hs : TidyState s) : TidyState (endMigration s m) := by
  have hleft : TidyState { s with migs := s.migs.filter fun q => q ≠ m } := { hs with }
  have hmet := tidy_foldl (m.old :: m.frame.toList) (tidy_flushFrame m.old hleft) fun _ f h => tidy_meetErrors f h
  unfold endMigration
  dsimp only
  split
  exacts [tidy_finishMigration m hmet, tidy_abandonMigration m hmet]

theorem outTidy_execMigrationComplete (ctx page : ℕ) {s : State} (hs : TidyState s) : OutTidy (execMigrationComplete ctx page s) := by
  grind [execMigrationComplete, tidy_endMigration, outTidy_next]

/-! ### The security processor (R407, R415) -/

theorem outTidy_execPageOwnershipChange (frame owner state : ℕ) {s : State} (hs : TidyState s) :
    OutTidy (execPageOwnershipChange frame owner state s) := by
  grind [execPageOwnershipChange, tidy_changePot, outTidy_next]

theorem outTidy_execWorldKeyInstall (world : ℕ) {s : State} (hs : TidyState s) : OutTidy (execWorldKeyInstall world s) := by
  grind [execWorldKeyInstall, outTidy_next, tidyState_iff]

end Sys2Proof.Proofs
end

section
/-! PROOF. Canonical form kept. The refill, power, temperature and ageing, and the registers, windows and resets of the host port (R337, R338, R345,
R367 to R369, R388 to R397, R426 to R431, R447 to R450). -/

namespace Sys2Proof.Proofs
open Sys2Proof Sys2Proof.Machine Sys2Proof.Claims

/-! ### The refill (R388, R390) -/

theorem tidy_adoptPcfg (kind : ℕ) {s : State} (v : ℕ) (hs : TidyState s) : TidyState (adoptPcfg kind s v) := by
  grind [adoptPcfg, tidy_setVd]

theorem tidy_refillArbiter {s : State} (kind inst : ℕ) (hs : TidyState s) : TidyState (refillArbiter s kind inst) := by
  have hrefills (t : Tab ℕ) : TidyState { s with refills := t } := { hs with }
  unfold refillArbiter
  dsimp only
  split
  · exact hs
  · exact tidy_foldl _ (tidy_foldl _ (hrefills _) fun _ v h => tidy_adoptPcfg kind v h) fun _ x h => tidy_setPurse h _ _ _ _

theorem outTidy_execPurseRefill (kind inst : ℕ) {s : State} (hs : TidyState s) : OutTidy (execPurseRefill kind inst s) := by
  grind [execPurseRefill, tidy_refillArbiter, outTidy_next]

/-! ### The governor (R447) -/

theorem tidy_setHealth {s : State} (die hh : ℕ) (hs : TidyState s) : TidyState (setHealth s die hh) := by
  grind [setHealth, tabSorted_set, tidyState_iff]

theorem tidy_mapHealth {s : State} (f : ℕ → ℕ) (hs : TidyState s) : TidyState (mapHealth s f) := tidy_foldl _ hs fun _ d h => tidy_setHealth d _ h

theorem tidy_throttle {s : State} (hs : TidyState s) : TidyState (throttle s) := by
  grind [throttle, tidy_mapHealth]

theorem tidy_recover {s : State} (hs : TidyState s) : TidyState (recover s) := by
  grind [recover, tidy_mapHealth]

theorem outTidy_execGovernorMeasure (watts : ℕ) {s : State} (hs : TidyState s) : OutTidy (execGovernorMeasure watts s) := by
  grind [execGovernorMeasure, tidy_throttle, outTidy_next, tidyState_iff]

theorem outTidy_execGovernorRecoveryStep {s : State} (hs : TidyState s) : OutTidy (execGovernorRecoveryStep s) := by
  grind [execGovernorRecoveryStep, tidy_recover, outTidy_next, tidyState_iff]

/-! ### Temperature (R448) -/

theorem tidy_tripDie {s : State} (die : ℕ) (hs : TidyState s) : TidyState (tripDie s die) := by
  have htripped : TidyState { s with tripped := setAdd die s.tripped } := { hs with }
  exact tidy_outbox (tidy_foldl _ (tidy_setHealth die _ htripped) fun _ p h => tidy_killJob p.1 _ h) _

theorem tidy_settleTrip {s : State} (die : ℕ) (hs : TidyState s) : TidyState (settleTrip s die) := by
  grind [settleTrip, tidyState_iff]

theorem tidy_actOnTemperature {s : State} (die tj : ℕ) (coolantLost : Bool) (hs : TidyState s) :
    TidyState (actOnTemperature s die tj coolantLost) := by
  grind [actOnTemperature, tidy_setHealth, tidy_tripDie, tidy_settleTrip]

theorem outTidy_execThermalClockStep (die tj : ℕ) {s : State} (hs : TidyState s) : OutTidy (execThermalClockStep die tj s) := by
  grind [execThermalClockStep, tidy_actOnTemperature, outTidy_next]

theorem outTidy_execThermalTrip (die tj : ℕ) (coolantLost : Bool) {s : State} (hs : TidyState s) :
    OutTidy (execThermalTrip die tj coolantLost s) := by
  grind [execThermalTrip, tidy_actOnTemperature, outTidy_next]

/-! ### Ageing (R449, R450) -/

theorem outTidy_execAgeingMeasure (die : ℕ) (freqs margins : List ℕ) {s : State} (hs : TidyState s) :
    OutTidy (execAgeingMeasure die freqs margins s) := by
  grind [execAgeingMeasure, tidy_setHealth, outTidy_next, tidyState_iff]

theorem tidy_readHealth {s : State} (die : ℕ) (hs : TidyState s) : TidyState (readHealth s die) := by
  grind [readHealth, tidyState_iff]

/-! ### Jobs of a virtual device -/

theorem tidy_killVd {s : State} (v cause reason : ℕ) (hs : TidyState s) : TidyState (killVd s v cause reason) :=
  tidy_foldl _ hs fun _ p h => tidy_killJobFor p.1 cause reason h

theorem tidy_tdispError {s : State} (v : ℕ) (hs : TidyState s) : TidyState (tdispError s v) := by
  grind [tdispError, tidy_killVd, tidy_setVd]

theorem tidy_lockedWrite {s : State} (v : ℕ) (changes : Bool) {open_ frozen : State} (hs : TidyState s) (hopen_ : TidyState open_)
    (hfrozen : TidyState frozen) : TidyState (lockedWrite s v changes open_ frozen) := by
  grind [lockedWrite, tidy_tdispError]

/-! ### Queue and event registers (R337, R338, R345) -/

theorem tidy_writeTail {s : State} (v q value : ℕ) (hs : TidyState s) : TidyState (writeTail s v q value) := by
  unfold writeTail
  dsimp only
  split
  · exact tidy_setQueue _ _ _ hs
  · split
    exacts [tidy_setQueue _ _ _ hs, tidy_setQueue _ _ _ hs]

theorem tidy_writeQueueReg {s : State} (v q off value : ℕ) (hs : TidyState s) : TidyState (writeQueueReg s v q off value) := by
  have hset (x : Queue) : TidyState (setQueue s v q x) := tidy_setQueue v q x hs
  unfold writeQueueReg
  dsimp only
  split
  · refine tidy_lockedWrite v _ hs ?_ hs
    split
    exacts [hset _, hs]
  · exact tidy_lockedWrite v _ hs (hset _) (hset _)
  · exact tidy_writeTail v q value hs
  · exact hset _
  · exact hs

theorem tidy_writeEvctl {s : State} (v value : ℕ) (hs : TidyState s) : TidyState (writeEvctl s v value) := by
  grind [writeEvctl, tidy_setVd, tidy_lockedWrite]

theorem tidy_hostEvhead {s : State} (v value : ℕ) (hs : TidyState s) : TidyState (hostEvhead s v value) := by
  grind [hostEvhead, tidy_writeHeld, tidy_writeEvhead]

/-! ### The debug window (R367, R368) -/

theorem tidy_onDbgStream {s : State} (v : ℕ) {f : StreamName → Stream → Stream} (hs : TidyState s) (hf : ∀ st t, streamTidy t → streamTidy (f st t)) :
    TidyState (onDbgStream s v f) := by
  unfold onDbgStream
  split
  exacts [tidy_updStream _ _ hs (hf _), hs]

theorem tidy_writeDbgReg {s : State} (v off value : ℕ) (hs : TidyState s) : TidyState (writeDbgReg s v off value) := by
  have hset (d : VDev) : TidyState (setVd s v d) := tidy_setVd hs v d
  unfold writeDbgReg
  dsimp only
  split
  · exact hset _
  · exact hset _
  · exact tidy_onDbgStream v hs fun _ _ ht => ht
  · split
    exacts [hs, hset _]
  · refine tidy_onDbgStream v hs fun st t ht => ?_
    split
    exacts [ht, streamTidy_setRegOf ht _ _]
  · exact hset _
  · split
    exacts [hset _, hs]
  · exact hs

theorem tidy_dbgReturnWith {s : State} (v : ℕ) {f : Stream → Stream} (hs : TidyState s) (hf : ∀ t, streamTidy t → streamTidy (f t)) :
    TidyState (dbgReturnWith s v f) := by
  unfold dbgReturnWith
  split
  · exact hs
  · next c st _ =>
    refine tidy_updStream c st (tidy_returnStream c st hs) fun t ht => ?_
    split
    exacts [hf t ht, ht]

theorem tidy_debugCommand {s : State} (v cmd : ℕ) (hs : TidyState s) : TidyState (debugCommand s v cmd) := by
  unfold debugCommand
  split
  · exact tidy_dbgReturnWith v hs fun _ ht => ht
  · exact tidy_dbgReturnWith v hs fun _ ht => ht
  · exact tidy_dbgReturnWith v hs fun _ ht => ht
  · split
    · split
      exacts [tidy_killJob _ _ hs, hs]
    · exact hs
  · dsimp only
    split
    · refine tidy_setCtx hs _ ?_
      exact ctxTidy_ctxAt hs (dbgContext s v)
    · exact hs
  · exact hs

/-! ### The memory window and MSI-X (R426, R427) -/

theorem tidy_writeWinctl {s : State} (v value : ℕ) (hs : TidyState s) : TidyState (writeWinctl s v value) := by
  grind [writeWinctl, tidy_setVd]

theorem tidy_flushMsix {s : State} (v k : ℕ) (hs : TidyState s) : TidyState (flushMsix s v k) := by
  grind [flushMsix, tidy_sendMsix, tidy_setVd]

theorem tidy_writeMsix {s : State} (v k : ℕ) (hi : Bool) (value : ℕ) (hs : TidyState s) : TidyState (writeMsix s v k hi value) := by
  grind [writeMsix, tidy_setVd, tidy_flushMsix, tidy_lockedWrite]

theorem tidy_ite {c : Prop} [Decidable c] {s t : State} (hs : TidyState s) (ht : TidyState t) : TidyState (if c then s else t) := by
  split
  exacts [hs, ht]

theorem tidy_writeEvbase {s : State} (v value : ℕ) (d : VDev) (hs : TidyState s) :
    TidyState (lockedWrite s v (value ≠ d.evbase.toNat)
      (if bitField value 0 4 = 0 && bitField value 55 9 = 0 then setVd s v { d with evbase := BitVec.ofNat 64 value } else s) s) :=
  tidy_lockedWrite v _ hs (tidy_ite (tidy_setVd hs v _) hs) hs

theorem tidy_writeBar {s : State} (v off value : ℕ) (hs : TidyState s) : TidyState (writeBar s v off value) := by
  unfold writeBar
  refine tidy_ite (tidy_writeQueueReg _ _ _ _ hs) ?_
  refine tidy_ite (tidy_writeHeld v (tidy_writeEvbase v value _ hs)) ?_
  refine tidy_ite (tidy_writeEvctl _ _ hs) ?_
  refine tidy_ite (tidy_hostEvhead _ _ hs) ?_
  refine tidy_ite (tidy_debugCommand _ _ hs) ?_
  refine tidy_ite (tidy_writeDbgReg _ _ _ hs) ?_
  refine tidy_ite (tidy_writeWinctl _ _ hs) ?_
  refine tidy_ite (tidy_setVd hs v _) ?_
  refine tidy_ite (tidy_writeMsix _ _ _ _ hs) ?_
  refine tidy_ite (tidy_writeMsix _ _ _ _ hs) ?_
  refine tidy_ite (tidy_writeMsix _ _ _ _ hs) ?_
  exact tidy_ite (tidy_writeMsix _ _ _ _ hs) hs

theorem tidy_writeBarHalf {s : State} (v off value : ℕ) (hs : TidyState s) : TidyState (writeBarHalf s v off value) := by
  grind [writeBarHalf, tidy_writeBar]

theorem tidy_hostWrite {s : State} (v off : ℕ) (tee : Option ℕ) {r : State} (hs : TidyState s) (hr : TidyState r) :
    TidyState (hostWrite s v off tee r) := by
  grind [hostWrite]

theorem tidy_send {s : State} (m : Message) (hs : TidyState s) : TidyState (send s m) := by
  grind [send, tidyState_iff]

theorem tidy_hostRead {s : State} (v off n : ℕ) (tee : Option ℕ) (hs : TidyState s) : TidyState (hostRead s v off n tee) := by
  grind [hostRead, tidy_send]

theorem tidy_writeConfig {s : State} (v off value : ℕ) (hs : TidyState s) : TidyState (writeConfig s v off value) := by
  have hset (d : VDev) : TidyState (setVd s v d) := tidy_setVd hs v d
  unfold writeConfig
  dsimp only
  split
  · exact tidy_lockedWrite v _ hs (hset _) hs
  · exact tidy_lockedWrite v _ hs (hset _) hs
  · exact tidy_lockedWrite v _ hs (hset _) hs
  · exact tidy_lockedWrite v _ hs (tidy_flushMsix _ _ (tidy_flushMsix _ _ (hset _))) hs
  · split_ifs
    exacts [hs, { hs with }, hs, tidy_foldl _ hs fun _ v h => tidy_tdispError v h]
  · exact hs

theorem tidy_readConfig {s : State} (fn : Option ℕ) (off : ℕ) (hs : TidyState s) : TidyState (readConfig s fn off) := by
  have hsend (m : Message) : TidyState (send s m) := tidy_send m hs
  unfold readConfig
  dsimp only
  split
  · split
    exacts [hsend _, hsend _]
  · split
    · exact hs
    · split
      exacts [hsend _, hsend _, hsend _, hsend _, hsend _]

/-! ### The debug agent's window (R369) -/

theorem tidy_onAgentStream {s : State} {f : StreamName → Stream → Stream} (hs : TidyState s) (hf : ∀ st t, streamTidy t → streamTidy (f st t)) :
    TidyState (onAgentStream s f) := by
  unfold onAgentStream
  cases agentTarget s with
  | none => exact hs
  | some p => exact tidy_updStream _ _ hs (hf p.2)

theorem tidy_writeAgent {s : State} (off value : ℕ) (hs : TidyState s) : TidyState (writeAgent s off value) := by
  unfold writeAgent
  dsimp only
  split
  · exact { hs with }
  · exact { hs with }
  · exact tidy_onAgentStream hs fun _ _ ht => ht
  · split
    exacts [hs, { hs with }]
  · refine tidy_onAgentStream hs fun st t ht => ?_
    split
    exacts [ht, streamTidy_setRegOf ht _ _]
  · exact { hs with }
  · exact hs

/-! ### Health registers (R448, R449) -/

theorem tidy_writeHealth {s : State} (die value : ℕ) (hs : TidyState s) : TidyState (writeHealth s die value) := by
  grind [writeHealth, tidy_settleTrip, tidy_setHealth]

theorem outTidy_execRegisterWrite (site : RegSite) (off value : ℕ) {s : State} (hs : TidyState s) : OutTidy (execRegisterWrite site off value s) := by
  refine outTidy_next.2 ?_
  split
  · exact tidy_hostWrite _ _ _ hs (tidy_writeBar _ _ _ hs)
  · split
    exacts [tidy_writeConfig _ _ _ hs, hs]
  · split
    exacts [tidy_writeAgent _ _ hs, hs]
  · split
    exacts [tidy_writeHealth _ _ hs, hs]

theorem outTidy_execQtailWrite (vd queue value : ℕ) (tee : Option ℕ) {s : State} (hs : TidyState s) :
    OutTidy (execQtailWrite vd queue value tee s) := by
  grind [execQtailWrite, tidy_hostWrite, tidy_writeTail, outTidy_next]

theorem outTidy_execEvheadWrite (vd value : ℕ) (tee : Option ℕ) {s : State} (hs : TidyState s) : OutTidy (execEvheadWrite vd value tee s) := by
  grind [execEvheadWrite, tidy_hostWrite, tidy_hostEvhead, outTidy_next]

theorem outTidy_execDbgReturn (vd : ℕ) (tee : Option ℕ) {s : State} (hs : TidyState s) : OutTidy (execDbgReturn vd tee s) := by
  grind [execDbgReturn, tidy_hostWrite, tidy_debugCommand, outTidy_next]

theorem outTidy_execDbgStep (vd : ℕ) (tee : Option ℕ) {s : State} (hs : TidyState s) : OutTidy (execDbgStep vd tee s) := by
  grind [execDbgStep, tidy_hostWrite, tidy_debugCommand, outTidy_next]

theorem outTidy_execDbgDisplaced (vd : ℕ) (tee : Option ℕ) {s : State} (hs : TidyState s) : OutTidy (execDbgDisplaced vd tee s) := by
  grind [execDbgDisplaced, tidy_hostWrite, tidy_debugCommand, outTidy_next]

theorem outTidy_execDbgKill (vd : ℕ) (tee : Option ℕ) {s : State} (hs : TidyState s) : OutTidy (execDbgKill vd tee s) := by
  grind [execDbgKill, tidy_hostWrite, tidy_debugCommand, outTidy_next]

theorem outTidy_execDbgInval (vd : ℕ) (tee : Option ℕ) {s : State} (hs : TidyState s) : OutTidy (execDbgInval vd tee s) := by
  grind [execDbgInval, tidy_hostWrite, tidy_debugCommand, outTidy_next]

/-! ### The memory window (R427) -/

theorem tidy_windowFailed {s : State} (v : ℕ) (cause : Option ℕ) (hs : TidyState s) : TidyState (windowFailed s v cause) := tidy_setVd hs v _

@[simp] theorem quiet_windowSpot (s : State) (k va n : ℕ) (stores : Bool) : Quiet (windowSpot s k va n stores) := by
  grind [windowSpot, quiet_translate, keeps_fault, quiet_inTurn, quiet_checkTag, quiet_storeErrors, quiet_readErrors, keeps_error, Keeps.map]

theorem tidy_windowAccess {s : State} (v off n : ℕ) (tee : Option ℕ) (stores : Bool) {f : State → ℕ → ℕ → State} {refused failed : State → State}
    (hs : TidyState s) (hf : ∀ k pa, TidyState (f s k pa)) (hrefused : TidyState (refused s)) (hfailed : ∀ t, TidyState t → TidyState (failed t)) :
    TidyState (windowAccess s v off n tee stores f refused failed) := by
  unfold windowAccess
  split
  · exact hs
  · split
    · split
      exacts [hs, tidy_send _ hs]
    · split
      · exact hrefused
      · split
        · exact hfailed _ (tidy_windowFailed _ _ hs)
        · split
          exacts [hf _ _, hfailed _ (tidy_windowFailed _ _ (tidy_standHw _ hs)), hs]

theorem outTidy_execWindowRead (vd off n : ℕ) (tee : Option ℕ) {s : State} (hs : TidyState s) : OutTidy (execWindowRead vd off n tee s) :=
  outTidy_next.2 (tidy_windowAccess _ _ _ _ _ hs (fun _ _ => tidy_send _ hs) (tidy_send _ hs) fun _ h => tidy_send _ h)

theorem outTidy_execWindowWrite (vd off : ℕ) (bytes : List Byte) (tee : Option ℕ) {s : State} (hs : TidyState s) :
    OutTidy (execWindowWrite vd off bytes tee s) :=
  outTidy_next.2 (tidy_windowAccess _ _ _ _ _ hs (fun _ _ => tidy_physWrite _ _ _ hs) hs fun _ h => h)

/-! ### The function-level reset (R348, R397) -/

theorem tidy_dropUnplaced {s : State} (v : ℕ) (hs : TidyState s) : TidyState (dropUnplaced s v) := by
  grind [dropUnplaced, tidyState_iff]

theorem ctxTidy_resetContext (c : Context) : ctxTidy (resetContext c) := ⟨rfl, rfl⟩

theorem tidy_keepVia {s : State} (v : ℕ) (hs : TidyState s) : TidyState (keepVia s v) := by
  refine tidy_mapJobs hs fun j hj => ?_
  split
  exacts [hj, hj]

theorem tidy_resetFunction {s : State} (v : ℕ) (hs : TidyState s) : TidyState (resetFunction s v) := by
  have hkept := tidy_keepVia v (tidy_killVd v (causeCode .flrKilled) 2 hs)
  unfold resetFunction
  refine tidy_setVd (tidy_foldl _ (tidy_zeroVaults _ (tidy_foldl _ (tidy_foldl _ hkept fun _ m h => tidy_endMigration m h) fun s k h => ?_))
    fun _ p h => tidy_writeBackLine p.1 h) v _
  exact tidy_deadFlows k (tidy_dropHeld k (tidy_setCtx h k (ctxTidy_resetContext _)))

theorem tidy_beginReset {s : State} (v : ℕ) (stop : Bool) (hs : TidyState s) : TidyState (beginReset s v stop) := by
  grind [beginReset, tidy_dropUnplaced, tidy_setVd]

theorem outTidy_execFunctionLevelReset (vd : ℕ) {s : State} (hs : TidyState s) : OutTidy (execFunctionLevelReset vd s) := by
  grind [execFunctionLevelReset, tidy_beginReset, outTidy_next]

/-! ### TDISP (R428, R429, R431) -/

theorem tidy_tdispAnswer {s : State} (v code : ℕ) (r : Option Report) (hs : TidyState s) : TidyState (tdispAnswer s v code r) := by
  grind [tdispAnswer, tidyState_iff]

theorem tidy_endReset {s : State} (v : ℕ) (hs : TidyState s) : TidyState (endReset s v) := by
  grind [endReset, tidy_resetFunction, tidy_setVd, tidy_tdispAnswer]

theorem tidy_endResets {s : State} (hs : TidyState s) : TidyState (endResets s) := tidy_foldl _ hs fun _ v h => tidy_endReset v h

theorem outTidy_execLockInterfaceRequest (vd stream : ℕ) {s : State} (hs : TidyState s) : OutTidy (execLockInterfaceRequest vd stream s) := by
  grind [execLockInterfaceRequest, tidy_tdispAnswer, tidy_setVd, outTidy_next]

theorem outTidy_execStartInterfaceRequest (vd : ℕ) {s : State} (hs : TidyState s) : OutTidy (execStartInterfaceRequest vd s) := by
  grind [execStartInterfaceRequest, tidy_tdispAnswer, tidy_setVd, outTidy_next]

theorem outTidy_execStopInterfaceRequest (vd : ℕ) {s : State} (hs : TidyState s) : OutTidy (execStopInterfaceRequest vd s) := by
  grind [execStopInterfaceRequest, tidy_setVd, tidy_tdispAnswer, tidy_beginReset, outTidy_next]

theorem outTidy_execGetDeviceInterfaceState (vd : ℕ) {s : State} (hs : TidyState s) : OutTidy (execGetDeviceInterfaceState vd s) := by
  grind [execGetDeviceInterfaceState, tidy_tdispAnswer, outTidy_next]

theorem outTidy_execGetDeviceInterfaceReport (vd : ℕ) {s : State} (hs : TidyState s) : OutTidy (execGetDeviceInterfaceReport vd s) := by
  grind [execGetDeviceInterfaceReport, tidy_tdispAnswer, outTidy_next]

theorem outTidy_execIdeFailure (stream : ℕ) {s : State} (hs : TidyState s) : OutTidy (execIdeFailure stream s) :=
  outTidy_next.2 (tidy_foldl _ hs fun _ v h => tidy_tdispError v h)

end Sys2Proof.Proofs
end

section
/-! PROOF. Canonical form kept. Waits released, the detector, and the ports of the fabric (R81, R302, R317, R318, R325, R326, R331, R433 to R437).
-/

namespace Sys2Proof.Proofs
open Sys2Proof Sys2Proof.Machine Sys2Proof.Claims

/-! ### Conditions of waits -/

theorem tidy_releaseStream {s : State} (core : ℕ) (st : StreamName) (hs : TidyState s) : TidyState (releaseStream s core st) := by
  have hrun := tidy_updStream core st (f := fun t => { t with state := .run, pending := none }) hs fun _ ht => streamTidy_of_regs ht rfl fun _ => nofun
  exact { hrun with }

theorem tidy_resumeReady {s : State} {p : Pending} {r : Ready} (hs : TidyState s) (hp : p.ready = some r) (hr : entryTidy r.entry) :
    TidyState (resumeReady s p r) := by
  have hqueue := keeps_claimAndQueue hs hr
  have hwait (w : Wait) : streamTidy { curStream s with pending := some { p with on := w } } :=
    ⟨(streamTidy_curStream hs).1, fun q x hq hx => by cases hq; cases hp.symm.trans hx; exact hr⟩
  unfold resumeReady
  split
  · next h => exact tidy_advanceBy _ (hqueue.of_ok h)
  · exact tidy_setCur (tidy_ite (tidy_postReclaim hs) hs) (hwait _)
  · exact hs

theorem tidy_grantRequest {s : State} (ctx id : ℕ) (hs : TidyState s) : TidyState (grantRequest s ctx id) := by
  grind [grantRequest, ctxTidy_ctxAt, tidy_setCtx, tidy_raiseTrap, tidy_advanceBy, tidy_focusOn, ctxTidy_grantTenure, ctxTidy, tidyState_iff]

theorem tidy_releaseWait {s : State} (core : ℕ) (st : StreamName) {p : Pending} (hs : TidyState s) (hp : ∀ r, p.ready = some r → entryTidy r.entry) :
    TidyState (releaseWait s core st p) := by
  have hfocus : TidyState { focusOn s core with cur := st, words := wordList p.words } := { tidy_focusOn hs core with }
  unfold releaseWait
  dsimp only
  split
  · next r hr => exact tidy_resumeReady hfocus hr (hp r hr)
  · split
    · exact tidy_advanceBy _ hfocus
    · exact tidy_settle hfocus ((keeps_sealHeld _ hfocus).map fun _ h => tidy_advanceBy 4 h)
    · exact tidy_ite (tidy_grantRequest _ _ hs) (tidy_releaseStream _ _ hs)
    · exact tidy_formGroup _ hs
    · exact tidy_releaseStream _ _ hs

/-! ### The deadlock detector (R318) -/

theorem tidyCore_noteCore (s : State) {c : Core} (hc : TidyCore c) : TidyCore (noteCore s c) := by
  grind [noteCore, tidyCore_iff]

theorem tidy_noteStuck {s : State} (hs : TidyState s) : TidyState (noteStuck s) where
  __ := hs
  core := tidyCore_noteCore s hs.core
  others := tabSorted_map _ hs.others
  cores p hp := by
    have hp' : p ∈ s.others.map fun q => (q.1, noteCore s q.2) := hp
    obtain ⟨q, hq, rfl⟩ := List.mem_map.1 hp'
    exact tidyCore_noteCore s (hs.cores q hq)

/-! ### The sender: outstanding parts (R311, R437) -/

theorem tidyCore_portCore {s : State} {n : ℕ} {c : Core} (hs : TidyState s) (h : portCore s n = some c) : TidyCore c := by
  unfold portCore at h
  split at h
  · exact Option.some.inj h ▸ tidyCore_coreAt hs n
  · obtain ⟨j, hj, h⟩ := Option.bind_eq_some_iff.1 h
    split at h
    · exact jobTidy_of_jobAt hs hj c (List.mem_of_getElem? h)
    · cases h

theorem jobTidy_setImage {j : Job} (i : ℕ) {c : Core} (hj : jobTidy j) (hc : TidyCore c) : jobTidy { j with image := j.image.set i c } := fun d hd =>
  (List.mem_or_eq_of_mem_set hd).elim (hj d) fun h => h ▸ hc

theorem tidy_setPortCore {s : State} (n : ℕ) {c : Core} (hs : TidyState s) (hc : TidyCore c) : TidyState (setPortCore s n c) := by
  unfold setPortCore
  split
  · exact tidy_putCore hs n hc
  · split
    · exact hs
    · next j hj => exact tidy_setJob hs _ (jobTidy_setImage _ (jobTidy_of_jobAt hs hj) hc)

theorem tidy_withPort {s : State} (n : ℕ) {f : State → State} (hs : TidyState s) (hf : ∀ t, TidyState t → TidyState (f t)) :
    TidyState (withPort s n f) := by
  unfold withPort
  split
  · exact tidy_focusOn (hf _ (tidy_focusOn hs n)) _
  · split
    · exact hs
    · next c hc =>
      have hstep := hf _ (tidy_pushCore hs (tidyCore_portCore hs hc))
      exact tidy_setPortCore n (tidy_popCore s.focus hstep) hstep.core

theorem tidyCore_putPart {c : Core} (e : QEntry) (p : ℕ) (x : Part) (hc : TidyCore c) : TidyCore (putPart c e p x) := by
  have hq : queueTidy (c.qdata.map fun q => if q.seq = e.seq then { q with part := .parts (setPart (partsOf q) p x) } else q) := by
    refine queueTidy_map hc.qdata fun q hq => ?_
    split
    exacts [entryTidy_of_ne fun _ => nofun, hq]
  exact { hc with qdata := hq }

theorem tidyCore_performedOn (saved : Bool) {c : Core} (part : ℕ) (payload : List Byte) (hc : TidyCore c) :
    TidyCore (performedOn saved c part payload) := by
  unfold performedOn
  split
  · exact hc
  · dsimp only
    split_ifs
    exacts [tidyCore_putPart _ _ _ hc, hc, tidyCore_putPart _ _ _ hc, tidyCore_putPart _ _ _ (tidyCore_lowerPb _ _ hc)]

theorem tidy_holdFor {s : State} (k : ℕ) {i : HeldStep} {r : State} (hs : TidyState s) (hi : heldTidy i) (hr : TidyState r) :
    TidyState (holdFor s k i r) :=
  tidy_ite (tidy_hold k hs hi) hr

theorem tidy_onPort {s : State} (n : ℕ) {i : HeldStep} {f : State → Core → State} (hs : TidyState s) (hi : heldTidy i)
    (hf : ∀ c, TidyCore c → TidyState (f s c)) : TidyState (onPort s n i f) := by
  unfold onPort
  split
  · exact hs
  · next c hc => exact tidy_ite hs (tidy_holdFor _ hs hi (hf c (tidyCore_portCore hs hc)))

theorem tidy_partDone {s : State} (core part : ℕ) (payload : List Byte) (hs : TidyState s) : TidyState (partDone s core part payload) :=
  tidy_onPort core hs trivial fun _ hc => tidy_setPortCore core hs (tidyCore_performedOn _ _ _ hc)

theorem tidy_errorPort {s : State} (n flow : ℕ) (seq : Option ℕ) (cause : Cause) (hs : TidyState s) : TidyState (errorPort s n flow seq cause) :=
  tidy_withPort n hs fun _ h => tidy_ite (tidy_errorFlow _ _ _ _ h) (tidy_recordError _ _ h)

theorem tidy_resend {s : State} (n : ℕ) {c : Core} (e : QEntry) (p refusals crc : ℕ) (hs : TidyState s) (hc : TidyCore c) :
    TidyState (resend s n c e p refusals crc) :=
  tidy_chargeSend _ _ _ (tidy_outbox (tidy_setPortCore n hs (tidyCore_putPart _ _ _ hc)) _)

theorem tidy_refusedOn {s : State} (n : ℕ) {c : Core} (part hint : ℕ) (hs : TidyState s) (hc : TidyCore c) :
    TidyState (refusedOn s n c part hint) := by
  unfold refusedOn
  split
  · exact hs
  · dsimp only
    split
    · refine tidy_ite (tidy_errorPort _ _ _ _ hs) (tidy_ite (tidy_ite (tidy_errorPort _ _ _ _ hs) ?_) ?_)
      · exact tidy_setPortCore _ hs (tidyCore_putPart _ _ _ hc)
      · exact tidy_ite (tidy_errorPort _ _ _ _ hs) (tidy_resend _ _ _ _ _ hs hc)
    · exact hs

theorem tidy_partRefusal {s : State} (core part hint : ℕ) (hs : TidyState s) : TidyState (partRefusal s core part hint) :=
  tidy_onPort core hs trivial fun _ hc => tidy_refusedOn _ _ _ hs hc

theorem tidy_resendOn {s : State} (n : ℕ) {c : Core} (part : ℕ) (hs : TidyState s) (hc : TidyCore c) : TidyState (resendOn s n c part) := by
  unfold resendOn
  split
  · exact hs
  · split
    · exact tidy_ite hs (tidy_ite (tidy_resend _ _ _ _ _ hs hc) (tidy_shortPurse _ _ _ hs))
    · exact hs

theorem tidy_whilePort {s : State} (n : ℕ) {f : Core → State} (hs : TidyState s) (hf : ∀ c, TidyCore c → TidyState (f c)) :
    TidyState (whilePort s n f) := by
  unfold whilePort
  split
  · exact hs
  · next c hc => exact tidy_ite (hf c (tidyCore_portCore hs hc)) hs

theorem tidy_timeoutOn {s : State} (n flow : ℕ) (c : Core) (hs : TidyState s) : TidyState (timeoutOn s n flow c) := by
  unfold timeoutOn
  cases c.qdata.find? (partLate s.now flow) with
  | none => exact hs
  | some e => exact tidy_errorPort _ _ _ _ hs

theorem tidy_fillTimeout {s : State} (core flow : ℕ) (hs : TidyState s) : TidyState (fillTimeout s core flow) := by
  grind [fillTimeout, tidy_focusOn, tidy_closeFrame]

theorem tidy_flagLateOn {s : State} (core : ℕ) (hs : TidyState s) : TidyState (flagLateOn s core) := by
  grind [flagLateOn, tidy_focusOn, entryTidy_workEntry, tidy_engineFault]

/-! ### Links down (R326, R432, R433, R435) -/

theorem tidy_downFlows (pkg : ℕ) {s : State} (n : ℕ) (hs : TidyState s) : TidyState (downFlows pkg s n) := by
  refine tidy_foldl _ hs fun s flow h => ?_
  split
  exacts [h, tidy_ite (tidy_errorPort _ _ _ _ h) h]

theorem tidy_peerDown {s : State} (pkg : ℕ) (hs : TidyState s) : TidyState (peerDown s pkg) := by
  have hdown : TidyState { s with peersDown := setAdd pkg s.peersDown, rxFlows := s.rxFlows.map fun p => (p.1, if keyPkg p.1 = pkg then { p.2 with held := [] } else p.2) } :=
    { hs with rxFlows := tabSorted_map _ hs.rxFlows }
  exact tidy_foldl _ (tidy_foldl _ hdown fun _ n h => tidy_downFlows pkg n h) fun _ g h => tidy_abortGroup _ _ _ h

theorem tidy_dropUnreached {s : State} (hs : TidyState s) : TidyState (dropUnreached s) :=
  tidy_ite hs (tidy_foldl _ hs fun _ pkg h => tidy_peerDown pkg h)

/-! ### The destination: accesses of a part (R302, R413, R437) -/

/-- Where an access of a part ends, the state is in canonical form. -/
abbrev LandTidy {α : Type} (r : Landed α) : Prop := TidyState r.1

theorem tidy_landSpot {s : State} (k va n : ℕ) (kind : Access) (hs : TidyState s) : LandTidy (landSpot s k va n kind) := by
  have hrefuse {α : Type} (u : State) (t : TrapInfo) (hu : TidyState u) : LandTidy (refuseFinally (α := α) u t) := tidy_standHw _ hu
  unfold landSpot
  dsimp only
  split
  · exact hs
  · exact hrefuse s _ hs
  · exact hs
  · split
    exacts [hs, tidy_postPageRequest _ _ _ _ hs]
  · split
    · exact hs
    · split
      · exact hrefuse s _ hs
      · exact hs
      · next h =>
        have hrule := (keeps_classRule _ _ _ hs).of_ok h
        split
        · exact hrule
        · split
          · exact hrefuse _ _ hrule
          · exact hrule
          · split
            · next h => exact (keeps_requestLines _ _ _ hrule).of_ok h
            · exact tidy_shortAccess _ _ _ _ hrule
            · exact hrule

theorem tidy_landRange {s : State} (k : ℕ) (kind : Access) (fuel va n : ℕ) (hs : TidyState s) : LandTidy (landRange s k kind fuel va n) := by
  induction fuel generalizing s va n with
  | zero => exact hs
  | succ fuel ih => grind [landRange, tidy_landSpot]

theorem tidy_writePieces {s : State} (k : ℕ) (ps : List (ℕ × ℕ)) (bs : List Byte) (hs : TidyState s) : TidyState (writePieces s k ps bs) := by
  induction ps generalizing s bs with
  | nil => exact hs
  | cons p ps ih => exact ih _ (tidy_physWrite _ _ _ hs)

theorem tidy_landWrite {s : State} (k va : ℕ) (bs : List Byte) (hs : TidyState s) : LandTidy (landWrite s k va bs) := by
  grind [landWrite, tidy_landRange, tidy_writePieces]

theorem tidy_landRead {s : State} (k va n : ℕ) (hs : TidyState s) : LandTidy (landRead s k va n) := by
  grind [landRead, tidy_landRange]

theorem tidy_landAtomic {s : State} (k va n : ℕ) (expected : Option (List Byte)) (value : List Byte) (hs : TidyState s) :
    LandTidy (landAtomic s k va n expected value) := by
  grind [landAtomic, tidy_landRange, tidy_writePieces]

theorem tidy_placeRow {s : State} (k pkg flow header slot rowLen : ℕ) (hs : TidyState s) : LandTidy (placeRow s k pkg flow header slot rowLen) := by
  grind [placeRow, tidy_landRead, tidy_landRange, tidy_landAtomic, tidy_landWrite]

theorem tidy_landPiece {s : State} (k : ℕ) (r : RxRow) (piece : ℕ) (bs : List Byte) (hs : TidyState s) : LandTidy (landPiece s k r piece bs) := by
  grind [landPiece, tidy_landRange, tidy_landWrite]

/-- The rows that land are no part of the canonical form. -/
theorem tidy_setRows {s : State} (rows : List RxRow) (hs : TidyState s) : TidyState { s with rxRows := rows } := { hs with }

theorem tidy_landRow {s : State} (k key : ℕ) (p : RxPart) (hs : TidyState s) : LandTidy (landRow s k key p) := by
  grind [landRow, tidy_placeRow, tidy_landPiece, tidy_setRows]

theorem tidy_landRuns {s : State} (k : ℕ) (kind : Access) (len : RxPart → ℕ) (ps : List RxPart) (hs : TidyState s) :
    LandTidy (landRuns s k kind len ps) := by
  induction ps generalizing s with
  | nil => exact hs
  | cons p ps ih => grind [landRuns, tidy_landRange]

theorem tidy_landPart {s : State} (k key : ℕ) (ps : List RxPart) (hs : TidyState s) : LandTidy (landPart s k key ps) := by
  have hwrite (t : State) (rs : List (RxPart × List (ℕ × ℕ))) (ht : TidyState t) : TidyState (rs.foldl (fun s r => writePieces s k r.2 r.1.payload) t) :=
    tidy_foldl rs ht fun _ _ h => tidy_writePieces _ _ _ h
  grind [landPart, tidy_landRow, tidy_landRuns, tidy_landAtomic]

/-! ### Arrival (R302, R433, R436) -/

theorem tidy_setRxFlow {s : State} (key : ℕ) (f : RxFlow) (hs : TidyState s) : TidyState (setRxFlow s key f) := by
  grind [setRxFlow, tabSorted_set, tidyState_iff]

theorem tidy_reply {s : State} (k key seq type status : ℕ) (bs : List Byte) (hs : TidyState s) : TidyState (reply s k key seq type status bs) := by
  grind [reply, tidy_respond, tidy_chargeSend]

theorem tidy_answerPart {s : State} (k key : ℕ) (ps : List RxPart) (hs : TidyState s) : TidyState (answerPart s k key ps).1 := by
  have hland := tidy_landPart k key ps hs
  have hheld (purses : Tab Purse) : TidyState { s with
      purses := purses, holding := s.holding ++ ps.map fun p => (k, .arrive (keyPkg key) (keyCtx key) (keyFlow key) p) } :=
    { hs with holding := List.forall_mem_append.2 ⟨hs.holding, by simp [heldTidy]⟩ }
  unfold answerPart
  dsimp only
  split
  · next h => rw [h] at hland; exact tidy_reply _ _ _ _ _ _ hland
  · next h =>
    rw [h] at hland
    split
    exacts [hheld _, tidy_reply _ _ _ _ _ _ hland]

theorem tidy_drainFlow (k key n : ℕ) {s : State} (hs : TidyState s) : TidyState (drainFlow k key n s) := by
  induction n generalizing s with
  | zero => exact hs
  | succ n ih => grind [drainFlow, tidy_setRxFlow, tidy_answerPart]

theorem tidy_receivePart {s : State} (k key : ℕ) (p : RxPart) (hs : TidyState s) : TidyState (receivePart s k key p) := by
  grind [receivePart, tidy_drainFlow, tidy_setRxFlow]

theorem tidy_flowControl {s : State} (key what : ℕ) (hs : TidyState s) : TidyState (flowControl s key what) := by
  grind [flowControl, tidy_setRxFlow, tidyState_iff]

theorem tidy_arrive {s : State} (pkg ctx flow seq type va arg : ℕ) (payload : List Byte) (hs : TidyState s) :
    TidyState (arrive s pkg ctx flow seq type va arg payload) := by
  unfold arrive
  refine tidy_ite (tidy_flowControl _ _ hs) (tidy_ite hs ?_)
  split
  · exact tidy_respond _ _ _ _ _ hs
  · exact tidy_ite (tidy_respond _ _ _ _ _ hs) (tidy_holdFor _ hs trivial (tidy_receivePart _ _ _ hs))

theorem tidy_rowMissing {s : State} (pkg ctx flow header slot : ℕ) (hs : TidyState s) : TidyState (rowMissing s pkg ctx flow header slot) := by
  have hlater (k : ℕ) (purses : Tab Purse) : TidyState { s with purses := purses, holding := s.holding ++ [(k, .missing pkg ctx flow header slot)] } :=
    { tidy_hold (x := .missing pkg ctx flow header slot) k hs trivial with }
  unfold rowMissing
  dsimp only
  split
  · exact hs
  · next k _ =>
    refine tidy_ite hs (tidy_holdFor _ hs trivial ?_)
    have hread := tidy_landRead k header 64 (tidy_setRows (s.rxRows.filter fun r => !(r.flow = rxKey pkg ctx (flow / 16) flow && r.slot = slot)) hs)
    split
    · next h => rw [h] at hread; exact tidy_ite (hlater _ _) hread
    · next t bs h =>
      rw [h] at hread
      have hwrite := tidy_landWrite k ((batchOf bs).statVa + slot) [2] hread
      split
      · split
        · next h => rw [h] at hwrite; exact tidy_ite (hlater _ _) hwrite
        · next h => rw [h] at hwrite; exact hwrite
      · exact hread

/-! ### Held steps (R369) -/

/-- What follows the write of a frame's bytes that were held (R412). It stands apart from the write, whose value the kernel would otherwise compute. -/
def afterFrame (kill : Option (ℕ × ℕ)) : Written → State
  | .ok t => t
  | .error t => kill.elim t fun p => killJob t p.1 p.2

theorem tidy_afterFrame {u : Written} (kill : Option (ℕ × ℕ)) (h : TidyState u.state) : TidyState (afterFrame kill u) := by
  cases u with
  | ok t => exact h
  | error t =>
    cases kill with
    | none => exact h
    | some p => exact tidy_killJob p.1 p.2 h

theorem performHeld_frame (s : State) (k : ℕ) (kill : Option (ℕ × ℕ)) (va n : ℕ) (img : Memory) :
    performHeld s k (.frame kill va n img) = afterFrame kill (pasteRegion s k kill img 2 va 0 n) := rfl

theorem tidy_performHeld {s : State} (k : ℕ) {i : HeldStep} (hs : TidyState s) (hi : heldTidy i) : TidyState (performHeld s k i) := by
  cases i with
  | frame kill va n img =>
    rw [performHeld_frame]
    exact tidy_afterFrame kill (tidy_pasteRegion _ _ hi _ _ _ _ hs)
  | arrive => exact tidy_arrive (hs := hs) ..
  | missing => exact tidy_rowMissing (hs := hs) ..
  | performed => exact tidy_partDone (hs := hs) ..
  | refused => exact tidy_partRefusal (hs := hs) ..

theorem tidy_releaseHolding {s : State} (hs : TidyState s) : TidyState (releaseHolding s) := by
  have hkept (f : ℕ × HeldStep → Bool) : TidyState { s with holding := s.holding.filter f } := { hs with holding := fun p hp => hs.holding p (List.mem_of_mem_filter hp) }
  refine tidy_ite hs (List.foldlRecOn _ _ (hkept _) fun t ht p hp => ?_)
  exact tidy_performHeld p.1 ht (hs.holding p (List.mem_of_mem_filter hp))

/-! ### The steps -/

theorem outTidy_execRemotePartArrive (pkg ctx flow seq type va arg : ℕ) (payload : List Byte) {s : State} (hs : TidyState s) :
    OutTidy (execRemotePartArrive pkg ctx flow seq type va arg payload s) := by
  grind [execRemotePartArrive, tidy_arrive, outTidy_next]

theorem outTidy_execRowMissingNotice (pkg ctx flow header slot : ℕ) {s : State} (hs : TidyState s) :
    OutTidy (execRowMissingNotice pkg ctx flow header slot s) := by
  grind [execRowMissingNotice, tidy_rowMissing, outTidy_next]

theorem outTidy_execPartPerformed (core part : ℕ) (payload : List Byte) {s : State} (hs : TidyState s) :
    OutTidy (execPartPerformed core part payload s) := by
  grind [execPartPerformed, tidy_partDone, outTidy_next]

theorem outTidy_execPartRefused (core part hint : ℕ) {s : State} (hs : TidyState s) : OutTidy (execPartRefused core part hint s) := by
  grind [execPartRefused, tidy_partRefusal, outTidy_next]

theorem outTidy_execPartResend (core part : ℕ) {s : State} (hs : TidyState s) : OutTidy (execPartResend core part s) := by
  grind [execPartResend, tidy_whilePort, tidy_resendOn, outTidy_next]

theorem outTidy_execRemoteTimeout (core flow : ℕ) {s : State} (hs : TidyState s) : OutTidy (execRemoteTimeout core flow s) := by
  grind [execRemoteTimeout, tidy_whilePort, tidy_timeoutOn, outTidy_next]

theorem outTidy_execFrameFillTimeout (core flow : ℕ) {s : State} (hs : TidyState s) : OutTidy (execFrameFillTimeout core flow s) := by
  grind [execFrameFillTimeout, tidy_fillTimeout, outTidy_next]

theorem outTidy_execFlagLate (core : ℕ) {s : State} (hs : TidyState s) : OutTidy (execFlagLate core s) := by
  grind [execFlagLate, tidy_flagLateOn, outTidy_next]

theorem outTidy_execLinkDown (pkg : ℕ) {s : State} (hs : TidyState s) : OutTidy (execLinkDown pkg s) := by
  grind [execLinkDown, tidy_peerDown, outTidy_next]

theorem tidy_portDown {s : State} (port : ℕ) (hs : TidyState s) : TidyState (portDown s port) := by
  grind [portDown, tidy_noteError, tidyState_iff]

theorem outTidy_execFlitCrcFail (port count : ℕ) {s : State} (hs : TidyState s) : OutTidy (execFlitCrcFail port count s) := by
  grind [execFlitCrcFail, tidy_portDown, outTidy_next]

theorem outTidy_execCxlLinkDown (port : ℕ) {s : State} (hs : TidyState s) : OutTidy (execCxlLinkDown port s) := by
  grind [execCxlLinkDown, outTidy_next, tidyState_iff]

/-! ### Groups (R325, R326, R331) -/

theorem tidy_joinArrives {s : State} (pkg : ℕ) (j : JoinRec) (hs : TidyState s) : TidyState (joinArrives s pkg j) := by
  grind [joinArrives, tidy_compareJoins, tidyState_iff]

theorem tidy_joinWithdrawn {s : State} (key rank : ℕ) (hs : TidyState s) : TidyState (joinWithdrawn s key rank) := by
  grind [joinWithdrawn, tidyState_iff]

theorem tidy_joinRefused {s : State} (key rank reason : ℕ) (hs : TidyState s) : TidyState (joinRefused s key rank reason) := by
  unfold joinRefused
  cases s.joins.find? fun j => j.key = key && j.rank = rank && j.place.isSome with
  | none => exact hs
  | some j => exact tidy_abortGroup _ _ _ (tidy_refuseMember _ _ hs)

theorem outTidy_execGroupFormed (key : ℕ) {s : State} (hs : TidyState s) : OutTidy (execGroupFormed key s) := by
  grind [execGroupFormed, tidy_formGroup, outTidy_next]

theorem outTidy_execAbortNotice (key reason : ℕ) {s : State} (hs : TidyState s) : OutTidy (execAbortNotice key reason s) := by
  grind [execAbortNotice, tidy_abortGroup, outTidy_next]

theorem outTidy_execGroupContributionArrive (c : Contribution) {s : State} (hs : TidyState s) : OutTidy (execGroupContributionArrive c s) := by
  grind [execGroupContributionArrive, outTidy_next, tidyState_iff]

end Sys2Proof.Proofs
end

section
/-! PROOF. Canonical form kept. Management requests, bring-up and what follows every turn (R249, R353 to R355, R369 to R371, R383 to R396, R451 to
R453). -/

namespace Sys2Proof.Proofs
open Sys2Proof Sys2Proof.Machine Sys2Proof.Claims

/-! ### Answers (R249, R355, R453) -/

theorem tidy_answer {s : State} (what value : ℕ) (hs : TidyState s) : TidyState (answer s what value) := by
  grind [answer, tidyState_iff]

theorem tidy_done {s : State} (hs : TidyState s) : TidyState (done s) := by
  grind [done, tidy_answer]

theorem outTidy_managed {s r : State} (hs : TidyState s) (hr : TidyState r) : OutTidy (managed s r) := by
  grind [managed, outTidy_next]

/-- An answer of the physical function is no part of the canonical form. -/
theorem tidy_refused {s : State} (hs : TidyState s) : TidyState (refused s) := tidy_answer 0 0 hs

theorem outTidy_onRequest {s : State} (ok : Bool) {r : State} (hs : TidyState s) (hr : TidyState r) : OutTidy (onRequest s ok r) :=
  outTidy_managed hs (tidy_ite (tidy_done hr) (tidy_refused hs))

/-! ### Contexts (R353, R355, R369, R370) -/

theorem outTidy_execContextCreate (slot vd world table policy savebase : ℕ) (regs : PrivRegs) {s : State} (hs : TidyState s) :
    OutTidy (execContextCreate slot vd world table policy savebase regs s) := by
  refine outTidy_onRequest _ hs (tidy_setCtx (tidy_changePot _ _ hs) slot ?_)
  exact ctxTidy_reset

theorem tidy_haltContext {s : State} (k : ℕ) (hs : TidyState s) : TidyState (haltContext s k) := by
  grind [haltContext, ctxTidy_ctxAt, tidy_agentStatus, tidy_haltRunning, tidy_setCtx, ctxTidy]

theorem outTidy_execContextHalt (slot : ℕ) {s : State} (hs : TidyState s) : OutTidy (execContextHalt slot s) := by
  grind [execContextHalt, outTidy_onRequest, tidy_haltContext]

theorem tidy_unhaltContext {s : State} (k : ℕ) (hs : TidyState s) : TidyState (unhaltContext s k) := by
  grind [unhaltContext, ctxTidy_ctxAt, tidy_releaseHolding, tidy_unhaltCores, tidy_retireIfMet, tidy_setCtx, ctxTidy]

theorem outTidy_execContextUnhalt (slot : ℕ) {s : State} (hs : TidyState s) : OutTidy (execContextUnhalt slot s) := by
  grind [execContextUnhalt, outTidy_onRequest, tidy_unhaltContext]

theorem tidy_destroyContext {s : State} (k : ℕ) (hs : TidyState s) : TidyState (destroyContext s k) := by
  have hkill : TidyState (match (ctxAt s k).job with | some n => killJobFor s n (causeCode .flrKilled) 2 | none => s) := by
    split
    exacts [tidy_killJobFor _ _ _ hs, hs]
  have hdrop (l : List CachedPage) (ps : List (ℕ × ℕ × ℕ)) {t : State} (ht : TidyState t) : TidyState { t with cached := l, pairings := ps } := { ht with }
  exact tidy_setCtx (hdrop _ _ (tidy_dropHeld k hkill)) k ctxTidy_reset

theorem outTidy_execContextDestroy (slot : ℕ) {s : State} (hs : TidyState s) : OutTidy (execContextDestroy slot s) := by
  grind [execContextDestroy, outTidy_onRequest, tidy_destroyContext]

theorem outTidy_execHallmarkContent (slot label va n : ℕ) {s : State} (hs : TidyState s) : OutTidy (execHallmarkContent slot label va n s) := by
  have hctx := ctxTidy_ctxAt hs slot
  unfold execHallmarkContent
  dsimp only
  split
  · exact outTidy_managed hs (tidy_refused hs)
  · split
    · exact outTidy_next.2 hs
    · refine outTidy_onRequest _ hs (tidy_setCtx hs slot ?_)
      exact hctx
    · exact outTidy_managed hs (tidy_refused (tidy_absorb _ hs))

/-! ### Adapters (R247 to R254) -/

theorem outTidy_execAdapterInstall (index entry : ℕ) {s : State} (hs : TidyState s) : OutTidy (execAdapterInstall index entry s) := by
  grind [execAdapterInstall, outTidy_onRequest, tidy_setAtt]

@[simp] theorem quiet_factorsRead (s : State) (e n p : ℕ) : Quiet (factorsRead s e n p) := by
  induction n generalizing p with
  | zero => exact quiet_ok _
  | succ n ih => exact quiet_inTurn (quiet_inTurn (quiet_factorRead ..) (quiet_factorRead ..)) (ih _)

theorem tidy_movePage {s : State} (e page frame : ℕ) (hs : TidyState s) : TidyState (movePage s e page frame) := by
  grind [movePage, tidy_stepLines, tidy_writeBackRange, tidy_physWrite, tabWf_paste, tabWf_slice, tidyState_iff]

theorem outTidy_execAdapterMoveHome (index : ℕ) (pages : List ℕ) {s : State} (hs : TidyState s) : OutTidy (execAdapterMoveHome index pages s) := by
  unfold execAdapterMoveHome
  dsimp only
  split
  · exact outTidy_onRequest _ hs hs
  · split
    · exact outTidy_managed hs (tidy_refused (tidy_absorb _ hs))
    · exact outTidy_onRequest _ hs (tidy_setAtt _ _ (tidy_foldl _ hs fun _ p h => tidy_movePage _ p.1 p.2 h))

theorem tidy_pinPage (index e die : ℕ) {s : State} (p : ℕ × ℕ) (hs : TidyState s) : TidyState (pinPage index e die s p) := by
  grind [pinPage, tabWf_paste, tabWf_slice, tidyState_iff]

theorem tidy_pinAll {s : State} (index e : ℕ) (hs : TidyState s) : TidyState (pinAll s index e) :=
  tidy_foldl _ hs fun _ die h => tidy_foldl _ h fun _ p h => tidy_pinPage index e die p h

theorem outTidy_execAdapterPin (index : ℕ) {s : State} (hs : TidyState s) : OutTidy (execAdapterPin index s) := by
  unfold execAdapterPin
  dsimp only
  split
  · exact outTidy_managed hs (tidy_refused hs)
  · exact outTidy_managed hs (tidy_refused hs)
  · exact outTidy_onRequest _ hs hs
  · split
    · exact outTidy_managed hs (tidy_refused (tidy_absorb _ hs))
    · exact outTidy_onRequest _ hs (tidy_setAtt _ _ (tidy_pinAll _ _ hs))

theorem tidy_dropPins {s : State} (index : ℕ) (hs : TidyState s) : TidyState (dropPins s index) := by
  grind [dropPins, tidyState_iff]

theorem outTidy_execAdapterUnpin (index : ℕ) {s : State} (hs : TidyState s) : OutTidy (execAdapterUnpin index s) := by
  grind [execAdapterUnpin, outTidy_onRequest, tidy_setAtt, tidy_dropPins]

theorem tidy_retireEntry {s : State} (index : ℕ) (hs : TidyState s) : TidyState (retireEntry s index) := by
  grind [retireEntry, tidy_setAtt]

theorem outTidy_execAdapterRetire (index : ℕ) {s : State} (hs : TidyState s) : OutTidy (execAdapterRetire index s) := by
  grind [execAdapterRetire, outTidy_onRequest, tidy_setAtt, tidy_dropPins, tidy_retireEntry]

/-! ### Partitions (R383, R384, R393) -/

theorem tidy_revokePart {s : State} (p : ℕ) (hs : TidyState s) : TidyState (revokePart s p) :=
  tidy_foldl _ hs fun _ _ h => tidy_ite (tidy_revokeUnit _ h) h

theorem tidy_adoptPart {s : State} (p r : ℕ) (hs : TidyState s) : TidyState (adoptPart s p r) := by
  grind [adoptPart, tidy_revokePart, tidyState_iff]

theorem tidy_applyParts {s : State} (hs : TidyState s) : TidyState (applyParts s) := by
  refine tidy_foldl _ hs fun s q h => ?_
  cases q.2 with
  | none => exact h
  | some r => exact tidy_adoptPart _ _ h

theorem outTidy_execPartitionRecordWrite (part value : ℕ) {s : State} (hs : TidyState s) : OutTidy (execPartitionRecordWrite part value s) := by
  grind [execPartitionRecordWrite, outTidy_onRequest, tidy_applyParts, tidy_revokePart, tidyState_iff]

/-! ### Virtual devices (R385 to R389) -/

theorem outTidy_execVdRecordWrite (vd value : ℕ) {s : State} (hs : TidyState s) : OutTidy (execVdRecordWrite vd value s) := by
  grind [execVdRecordWrite, outTidy_onRequest, tidy_setVd]

theorem outTidy_execPstsQuery (kind inst vd : ℕ) {s : State} (hs : TidyState s) : OutTidy (execPstsQuery kind inst vd s) :=
  outTidy_managed hs (tidy_ite (tidy_answer _ _ hs) (tidy_refused hs))

/-! ### Pools and pairings (R254, R410, R434) -/

theorem outTidy_execFramePoolGive (vd tier : ℕ) (frames : List ℕ) {s : State} (hs : TidyState s) : OutTidy (execFramePoolGive vd tier frames s) := by
  grind [execFramePoolGive, outTidy_onRequest, tidy_setVd]

theorem outTidy_execPinPoolGive (die : ℕ) (vaults : List ℕ) {s : State} (hs : TidyState s) : OutTidy (execPinPoolGive die vaults s) := by
  grind [execPinPoolGive, outTidy_onRequest, tidyState_iff]

theorem outTidy_execFlowPairing (ctx pkg peer : ℕ) {s : State} (hs : TidyState s) : OutTidy (execFlowPairing ctx pkg peer s) := by
  grind [execFlowPairing, outTidy_onRequest, tidyState_iff]

/-! ### Units and frames (R393, R396, R420, R451) -/

theorem outTidy_execFenceUnitRequest (unit : ℕ) {s : State} (hs : TidyState s) : OutTidy (execFenceUnitRequest unit s) := by
  grind [execFenceUnitRequest, outTidy_onRequest, tidy_fenceUnit]

theorem tidy_reinitFrame {s : State} (f : ℕ) (hs : TidyState s) : TidyState (reinitFrame s f) :=
  tidy_changePot (hs := { hs with mem := tabWf_clear hs.mem _ _ }) ..

theorem outTidy_execQuarantineReinit (frames : List ℕ) {s : State} (hs : TidyState s) : OutTidy (execQuarantineReinit frames s) := by
  have hepoch : TidyState { s with epoch := s.epoch + 1 } := { hs with }
  exact outTidy_onRequest _ hs (tidy_foldl _ hepoch fun _ f h => tidy_reinitFrame f h)

theorem outTidy_execMigrationPause (vd : ℕ) {s : State} (hs : TidyState s) : OutTidy (execMigrationPause vd s) :=
  outTidy_onRequest _ hs (tidy_foldl _ (tidy_setVd hs vd _) fun _ p h => tidy_pauseJob p.1 h)

theorem outTidy_execMarginRevoke (unit : ℕ) {s : State} (hs : TidyState s) : OutTidy (execMarginRevoke unit s) := by
  grind [execMarginRevoke, outTidy_onRequest, tidy_revokeUnit]

/-! ### Bring-up and evidence (R371, R452, R453) -/

theorem tidy_resetPackage (s : State) (package : ℕ) (ports cxl : List ℕ) : TidyState (resetPackage s package ports cxl) := by
  have hreset := tidy_iff.1 tidy_stateReset
  exact { hreset with }

theorem outTidy_execPackageReset (package : ℕ) (ports cxl : List ℕ) (s : State) : OutTidy (execPackageReset package ports cxl s) := by
  grind [execPackageReset, tidy_resetPackage, outTidy_next]

theorem tidy_bringUpStep {s : State} (hs : TidyState s) : TidyState (bringUpStep s) := by
  grind [bringUpStep, tidyState_iff]

theorem outTidy_execRecoveryImageSupply (version : BitVec 32) (bytes : List Byte) (signatures : List Byte × List Byte) {s : State}
    (hs : TidyState s) : OutTidy (execRecoveryImageSupply version bytes signatures s) := by
  grind [execRecoveryImageSupply, outTidy_next, tidyState_iff]

theorem tidy_failFirmware {s : State} (hs : TidyState s) : TidyState (failFirmware s) := tidy_foldl _ hs fun _ p h => tidy_killJob p.1 _ h

theorem outTidy_execSpdmMessage (slot : ℕ) {s : State} (hs : TidyState s) : OutTidy (execSpdmMessage slot s) := by
  grind [execSpdmMessage, tidy_send, outTidy_next]

theorem tidy_pinDue {s : State} (hs : TidyState s) : TidyState (pinDue s) := by
  grind [pinDue, tidyState_iff]

theorem tidy_endStep {s : State} (hs : TidyState s) : TidyState (endStep s) := by
  grind [endStep, tidy_pinDue, tidy_passTime, tidy_noteStuck, tidy_endResets, tidy_applyParts, tidy_revokeFenced, tidy_dropUnreached,
    tidy_releaseHolding, tidy_joinFaults, tidy_writeAdvanced]

end Sys2Proof.Proofs
end

section
/-! PROOF. Canonical form kept. The instructions of integers, of memory and of queues, and the events of streams and engines (R94 to R101, R111 to
R122, R351). -/

namespace Sys2Proof.Proofs
open Sys2Proof Sys2Proof.Machine Sys2Proof.Claims

theorem outTidy_alu2 {s : State} (gd ga gb : ℕ) (f : Word → Word → Word) (hs : TidyState s) : OutTidy (alu2 s gd ga gb f) := by
  grind [alu2, outTidy_finish, tidy_writeReg]

theorem outTidy_alu1 {s : State} (gd ga : ℕ) (f : Word → Word) (hs : TidyState s) : OutTidy (alu1 s gd ga f) := by
  grind [alu1, outTidy_finish, tidy_writeReg]

theorem outTidy_divide {s : State} (gd ga gb : ℕ) (f : Word → Word → Word) (hs : TidyState s) : OutTidy (divide s gd ga gb f) := by
  grind [divide, tidy_trapCur, outTidy_alu2, outTidy_next]

theorem outTidy_execAdd (gd ga gb : ℕ) {s : State} (hs : TidyState s) : OutTidy (execAdd gd ga gb s) := by
  grind [execAdd, outTidy_alu2]

theorem outTidy_execSub (gd ga gb : ℕ) {s : State} (hs : TidyState s) : OutTidy (execSub gd ga gb s) := by
  grind [execSub, outTidy_alu2]

theorem outTidy_execMul (gd ga gb : ℕ) {s : State} (hs : TidyState s) : OutTidy (execMul gd ga gb s) := by
  grind [execMul, outTidy_alu2]

theorem outTidy_execMulh (gd ga gb : ℕ) {s : State} (hs : TidyState s) : OutTidy (execMulh gd ga gb s) := by
  grind [execMulh, outTidy_alu2]

theorem outTidy_execMulhn (gd ga gb : ℕ) {s : State} (hs : TidyState s) : OutTidy (execMulhn gd ga gb s) := by
  grind [execMulhn, outTidy_alu2]

theorem outTidy_execDiv (gd ga gb : ℕ) {s : State} (hs : TidyState s) : OutTidy (execDiv gd ga gb s) := by
  grind [execDiv, outTidy_divide]

theorem outTidy_execDivn (gd ga gb : ℕ) {s : State} (hs : TidyState s) : OutTidy (execDivn gd ga gb s) := by
  grind [execDivn, outTidy_divide]

theorem outTidy_execRem (gd ga gb : ℕ) {s : State} (hs : TidyState s) : OutTidy (execRem gd ga gb s) := by
  grind [execRem, outTidy_divide]

theorem outTidy_execAnd (gd ga gb : ℕ) {s : State} (hs : TidyState s) : OutTidy (execAnd gd ga gb s) := by
  grind [execAnd, outTidy_alu2]

theorem outTidy_execOr (gd ga gb : ℕ) {s : State} (hs : TidyState s) : OutTidy (execOr gd ga gb s) := by
  grind [execOr, outTidy_alu2]

theorem outTidy_execXor (gd ga gb : ℕ) {s : State} (hs : TidyState s) : OutTidy (execXor gd ga gb s) := by
  grind [execXor, outTidy_alu2]

theorem outTidy_execShl (gd ga gb : ℕ) {s : State} (hs : TidyState s) : OutTidy (execShl gd ga gb s) := by
  grind [execShl, outTidy_alu2]

theorem outTidy_execShr (gd ga gb : ℕ) {s : State} (hs : TidyState s) : OutTidy (execShr gd ga gb s) := by
  grind [execShr, outTidy_alu2]

theorem outTidy_execSar (gd ga gb : ℕ) {s : State} (hs : TidyState s) : OutTidy (execSar gd ga gb s) := by
  grind [execSar, outTidy_alu2]

theorem outTidy_execMin (gd ga gb : ℕ) {s : State} (hs : TidyState s) : OutTidy (execMin gd ga gb s) := by
  grind [execMin, outTidy_alu2]

theorem outTidy_execMax (gd ga gb : ℕ) {s : State} (hs : TidyState s) : OutTidy (execMax gd ga gb s) := by
  grind [execMax, outTidy_alu2]

theorem outTidy_execMinn (gd ga gb : ℕ) {s : State} (hs : TidyState s) : OutTidy (execMinn gd ga gb s) := by
  grind [execMinn, outTidy_alu2]

theorem outTidy_execMaxn (gd ga gb : ℕ) {s : State} (hs : TidyState s) : OutTidy (execMaxn gd ga gb s) := by
  grind [execMaxn, outTidy_alu2]

theorem outTidy_execSlt (gd ga gb : ℕ) {s : State} (hs : TidyState s) : OutTidy (execSlt gd ga gb s) := by
  grind [execSlt, outTidy_alu2]

theorem outTidy_execSltn (gd ga gb : ℕ) {s : State} (hs : TidyState s) : OutTidy (execSltn gd ga gb s) := by
  grind [execSltn, outTidy_alu2]

theorem outTidy_execSeq (gd ga gb : ℕ) {s : State} (hs : TidyState s) : OutTidy (execSeq gd ga gb s) := by
  grind [execSeq, outTidy_alu2]

theorem outTidy_execSel (gd ga gb : ℕ) {s : State} (hs : TidyState s) : OutTidy (execSel gd ga gb s) := by
  grind [execSel, outTidy_alu2]

theorem outTidy_execClz (gd ga : ℕ) {s : State} (hs : TidyState s) : OutTidy (execClz gd ga s) := by
  grind [execClz, outTidy_alu1]

theorem outTidy_execCtz (gd ga : ℕ) {s : State} (hs : TidyState s) : OutTidy (execCtz gd ga s) := by
  grind [execCtz, outTidy_alu1]

theorem outTidy_execPopc (gd ga : ℕ) {s : State} (hs : TidyState s) : OutTidy (execPopc gd ga s) := by
  grind [execPopc, outTidy_alu1]

theorem outTidy_execBfx (gd ga gb : ℕ) {s : State} (hs : TidyState s) : OutTidy (execBfx gd ga gb s) := by
  grind [execBfx, outTidy_alu2]

theorem outTidy_execBfi (gd ga gb : ℕ) {s : State} (hs : TidyState s) : OutTidy (execBfi gd ga gb s) := by
  grind [execBfi, outTidy_alu2]

theorem outTidy_execAddi (gd ga : ℕ) (imm : Imm) {s : State} (hs : TidyState s) : OutTidy (execAddi gd ga imm s) := by
  grind [execAddi, outTidy_alu1]

theorem outTidy_execAndi (gd ga : ℕ) (imm : Imm) {s : State} (hs : TidyState s) : OutTidy (execAndi gd ga imm s) := by
  grind [execAndi, outTidy_alu1]

theorem outTidy_execOri (gd ga : ℕ) (imm : Imm) {s : State} (hs : TidyState s) : OutTidy (execOri gd ga imm s) := by
  grind [execOri, outTidy_alu1]

theorem outTidy_execXori (gd ga : ℕ) (imm : Imm) {s : State} (hs : TidyState s) : OutTidy (execXori gd ga imm s) := by
  grind [execXori, outTidy_alu1]

theorem outTidy_execShli (gd ga sh : ℕ) {s : State} (hs : TidyState s) : OutTidy (execShli gd ga sh s) := by
  grind [execShli, outTidy_alu1]

theorem outTidy_execShri (gd ga sh : ℕ) {s : State} (hs : TidyState s) : OutTidy (execShri gd ga sh s) := by
  grind [execShri, outTidy_alu1]

theorem outTidy_execSari (gd ga sh : ℕ) {s : State} (hs : TidyState s) : OutTidy (execSari gd ga sh s) := by
  grind [execSari, outTidy_alu1]

theorem outTidy_execLi (gd : ℕ) (imm : Imm) {s : State} (hs : TidyState s) : OutTidy (execLi gd imm s) := by
  grind [execLi, outTidy_finish, tidy_writeReg]

theorem outTidy_execLih (gd : ℕ) (imm : Imm) {s : State} (hs : TidyState s) : OutTidy (execLih gd imm s) := by
  grind [execLih, outTidy_finish, tidy_writeNat]

theorem outTidy_execAddpc (gd : ℕ) (imm : Imm) {s : State} (hs : TidyState s) : OutTidy (execAddpc gd imm s) := by
  grind [execAddpc, outTidy_finish, tidy_writeReg]

theorem outTidy_load {s : State} (gd ga : ℕ) (imm : Imm) (n : ℕ) (f : ℕ → ℕ) (hs : TidyState s) : OutTidy (load s gd ga imm n f) := by
  grind [load, outTidy_run, tidy_writeNat, keeps_scalarLoad, Keeps.map]

theorem outTidy_store {s : State} (gd ga : ℕ) (imm : Imm) (n : ℕ) (hs : TidyState s) : OutTidy (store s gd ga imm n) := by
  grind [store, outTidy_run, keeps_scalarStore]

theorem outTidy_execLd1s (gd ga : ℕ) (imm : Imm) {s : State} (hs : TidyState s) : OutTidy (execLd1s gd ga imm s) := by
  grind [execLd1s, outTidy_load]

theorem outTidy_execLd1z (gd ga : ℕ) (imm : Imm) {s : State} (hs : TidyState s) : OutTidy (execLd1z gd ga imm s) := by
  grind [execLd1z, outTidy_load]

theorem outTidy_execLd2s (gd ga : ℕ) (imm : Imm) {s : State} (hs : TidyState s) : OutTidy (execLd2s gd ga imm s) := by
  grind [execLd2s, outTidy_load]

theorem outTidy_execLd2z (gd ga : ℕ) (imm : Imm) {s : State} (hs : TidyState s) : OutTidy (execLd2z gd ga imm s) := by
  grind [execLd2z, outTidy_load]

theorem outTidy_execLd4s (gd ga : ℕ) (imm : Imm) {s : State} (hs : TidyState s) : OutTidy (execLd4s gd ga imm s) := by
  grind [execLd4s, outTidy_load]

theorem outTidy_execLd4z (gd ga : ℕ) (imm : Imm) {s : State} (hs : TidyState s) : OutTidy (execLd4z gd ga imm s) := by
  grind [execLd4z, outTidy_load]

theorem outTidy_execLd8 (gd ga : ℕ) (imm : Imm) {s : State} (hs : TidyState s) : OutTidy (execLd8 gd ga imm s) := by
  grind [execLd8, outTidy_load]

theorem outTidy_execLd16 (gd ga : ℕ) (imm : Imm) {s : State} (hs : TidyState s) : OutTidy (execLd16 gd ga imm s) := by
  grind [execLd16, outTidy_run, tidy_writeNat, keeps_scalarLoad, Keeps.map]

theorem outTidy_execSt1 (gd ga : ℕ) (imm : Imm) {s : State} (hs : TidyState s) : OutTidy (execSt1 gd ga imm s) := by
  grind [execSt1, outTidy_store]

theorem outTidy_execSt2 (gd ga : ℕ) (imm : Imm) {s : State} (hs : TidyState s) : OutTidy (execSt2 gd ga imm s) := by
  grind [execSt2, outTidy_store]

theorem outTidy_execSt4 (gd ga : ℕ) (imm : Imm) {s : State} (hs : TidyState s) : OutTidy (execSt4 gd ga imm s) := by
  grind [execSt4, outTidy_store]

theorem outTidy_execSt8 (gd ga : ℕ) (imm : Imm) {s : State} (hs : TidyState s) : OutTidy (execSt8 gd ga imm s) := by
  grind [execSt8, outTidy_store]

theorem outTidy_execSt16 (gd ga : ℕ) (imm : Imm) {s : State} (hs : TidyState s) : OutTidy (execSt16 gd ga imm s) := by
  grind [execSt16, outTidy_run, keeps_scalarStore]

/-! ### Atomics (R118 to R122) -/

theorem keeps_atomicAt {s : State} (ea : Word) (n : ℕ) (f : ℕ → Option ℕ) (hs : TidyState s) :
    Keeps (fun x => TidyState x.1) (atomicAt s ea n f) := by
  unfold atomicAt
  split
  · exact keeps_faultVa _ _
  · refine keeps_ite (keeps_faultVa _ _) ?_
    split
    · split
      · next h => exact (quiet_spadLoad ..).stop h
      · split
        · exact .ok hs
        · exact (keeps_spadStore _ _ hs).map fun _ h => h
    · refine keeps_ite (keeps_fault _) ?_
      split
      · next h => exact (quiet_vaultLoad ..).stop h
      · split
        · exact .ok hs
        · exact (keeps_vaultStore _ _ hs).map fun _ h => h
    · refine (keeps_memAtomic _ _ _ hs).map fun r hr => ?_
      split
      exacts [hr, tidy_physWrite _ _ _ hr]
    · exact keeps_faultVa _ _

theorem outTidy_amo {s : State} (op : AmoOp) (gd ga gb n : ℕ) (hs : TidyState s) : OutTidy (amo s op gd ga gb n) := by
  grind [amo, outTidy_run, tidy_writeNat, keeps_atomicAt, Keeps.map]

theorem outTidy_acas {s : State} (gd ga gb n : ℕ) (hs : TidyState s) : OutTidy (acas s gd ga gb n) := by
  grind [acas, outTidy_run, tidy_writeNat, keeps_atomicAt, Keeps.map]

theorem outTidy_execAmo4 (op : AmoOp) (gd ga gb : ℕ) {s : State} (hs : TidyState s) : OutTidy (execAmo4 op gd ga gb s) := by
  grind [execAmo4, outTidy_amo]

theorem outTidy_execAmo8 (op : AmoOp) (gd ga gb : ℕ) {s : State} (hs : TidyState s) : OutTidy (execAmo8 op gd ga gb s) := by
  grind [execAmo8, outTidy_amo]

theorem outTidy_execAcas4 (gd ga gb : ℕ) {s : State} (hs : TidyState s) : OutTidy (execAcas4 gd ga gb s) := by
  grind [execAcas4, outTidy_acas]

theorem outTidy_execAcas8 (gd ga gb : ℕ) {s : State} (hs : TidyState s) : OutTidy (execAcas8 gd ga gb s) := by
  grind [execAcas8, outTidy_acas]

theorem keeps_appendRecord {s : State} (v q : ℕ) (bs : List Byte) (hs : TidyState s) : Keeps TidyState (appendRecord s v q bs) := by
  grind [appendRecord, keeps_faultVa, tidy_setQueue, keeps_memStore, Keeps.map]

theorem outTidy_launch {s : State} (gd ga gb : ℕ) (tryForm : Bool) (hs : TidyState s) : OutTidy (launch s gd ga gb tryForm) := by
  grind [launch, outTidy_run, keeps_fault, tidy_writeNat, keeps_scalarLoad, keeps_appendRecord, keeps_ok, keeps_error, Keeps.map]

theorem outTidy_execLaunch (gd ga gb : ℕ) {s : State} (hs : TidyState s) : OutTidy (execLaunch gd ga gb s) := by
  grind [execLaunch, outTidy_launch]

theorem outTidy_execLaunchTry (gd ga gb : ℕ) {s : State} (hs : TidyState s) : OutTidy (execLaunchTry gd ga gb s) := by
  grind [execLaunchTry, outTidy_launch]

theorem outTidy_execQstat (sel : QSel) (gd ga : ℕ) {s : State} (hs : TidyState s) : OutTidy (execQstat sel gd ga s) := by
  grind [execQstat, outTidy_finish, tidy_writeNat]

/-! ### Streams -/

theorem outTidy_execWaitRelease (core : ℕ) (st : StreamName) {s : State} (hs : TidyState s) : OutTidy (execWaitRelease core st s) := by
  have ht := streamTidy_streamOf (tidyCore_coreAt hs core) st
  refine outTidy_next.2 ?_
  split
  · next p _ hp => exact tidy_ite (tidy_releaseWait core st hs fun r hr => ht.2 p r hp hr) hs
  · exact hs

theorem outTidy_execEngineFaultRaise (core : ℕ) (st : StreamName) {s : State} (hs : TidyState s) : OutTidy (execEngineFaultRaise core st s) := by
  grind [execEngineFaultRaise, tidy_takeFault, outTidy_next]

theorem outTidy_execHandlerEntry (core : ℕ) {s : State} (hs : TidyState s) : OutTidy (execHandlerEntry core s) := by
  grind [execHandlerEntry, tidy_handlerEntry, outTidy_next]

theorem outTidy_execTimer (core : ℕ) {s : State} (hs : TidyState s) : OutTidy (execTimer core s) := by
  grind [execTimer, tidy_timerAct, outTidy_next]

theorem tidy_endWait {s : State} (core : ℕ) (st : StreamName) (p : Pending) (cause : Cause) (va : ℕ) (hs : TidyState s) :
    TidyState (endWait s core st p cause va) := by
  grind [endWait, tidy_raiseTrap]

theorem tidy_detectorActs {s : State} (core : ℕ) (hs : TidyState s) : TidyState (detectorActs s core) := by
  unfold detectorActs
  dsimp only
  cases firstWaiting (coreAt s core) with
  | none => exact hs
  | some w => exact tidy_ite (tidy_endWait (hs := hs) ..) hs

theorem outTidy_execSyncDeadlock (core : ℕ) {s : State} (hs : TidyState s) : OutTidy (execSyncDeadlock core s) := by
  grind [execSyncDeadlock, tidy_detectorActs, outTidy_next]

theorem outTidy_execWaitTimeout (core : ℕ) (st : StreamName) {s : State} (hs : TidyState s) : OutTidy (execWaitTimeout core st s) := by
  grind [execWaitTimeout, tidy_detectorActs, tidy_endWait, outTidy_next]

/-! ### Engines -/

theorem outTidy_execEngineInstructionComplete (core : ℕ) (eng : EngineName) {s : State} (hs : TidyState s) :
    OutTidy (execEngineInstructionComplete core eng s) := by
  grind [execEngineInstructionComplete, tidy_engineTurn, outTidy_next]

theorem outTidy_execEngineHeadEffect (core : ℕ) (eng : EngineName) {s : State} (hs : TidyState s) : OutTidy (execEngineHeadEffect core eng s) := by
  grind [execEngineHeadEffect, tidy_engineTurn, outTidy_next]

@[simp] theorem quiet_headChecks (s : State) (e : QEntry) : Quiet (headChecks s e) := by
  grind [headChecks, quiet_passHead, quiet_sidebHead, keeps_ok]

theorem outTidy_execArrayInstructionStart (core : ℕ) {s : State} (hs : TidyState s) : OutTidy (execArrayInstructionStart core s) := by
  have hfocus := tidy_focusOn hs core
  refine outTidy_next.2 ?_
  split
  · next e hwork =>
    have he := entryTidy_workEntry hfocus hwork
    have hstart := keeps_startArray (tidy_setCurName e.stream hfocus) he (quiet_headChecks (focusOn s core) e)
    refine tidy_ite ?_ hfocus
    split
    · next h => exact tidy_setEntry .matrix (hstart.of_ok h).1 (hstart.of_ok h).2
    · exact tidy_engineFault _ _ hfocus he
    · exact hfocus
  · exact hfocus

/-! ### Tenures and leases -/

theorem outTidy_execTenureGrant (ctx request : ℕ) {s : State} (hs : TidyState s) : OutTidy (execTenureGrant ctx request s) := by
  grind [execTenureGrant, tidy_grantRequest, outTidy_next]

/-- An array granted to a core that waits for its first lease. -/
theorem tidy_freshLease {s : State} (hs : TidyState s) :
    TidyState { s with core := { s.core with lease := .held, leaseAt := s.now, arr := ArrayState.fresh } } :=
  tidy_setCore hs { hs.core with arr := arrayTidy_fresh }

theorem tidy_grantLease {s : State} (core : ℕ) (hs : TidyState s) : TidyState (grantLease s core) := by
  have hfocus := tidy_focusOn (tidy_setArray (clusterOf core) ⟨some core, laneOf core⟩ hs) core
  unfold grantLease
  dsimp only
  generalize focusOn (setArray s (clusterOf core) ⟨some core, laneOf core⟩) core = t at hfocus ⊢
  have hx := hfocus.core.x
  have harr : arrayTidy (match restoredArray t core with | .ok a => a | .error _ => t.core.arr) := by
    split
    · next h => exact (keeps_restoredArray (hs := hfocus) ..).of_ok h
    · exact hfocus.core.arr
  split
  · have hfresh := tidy_freshLease hfocus
    split
    · next e _ _ => exact tidy_ite (tidy_resumeHeld _ (tidy_completeEntry .matrix _ (tidy_setCurName e.stream hfresh))) hfresh
    · exact hfresh
  · have hheld := tidy_setCore hfocus (c := { t.core with
      lease := .held, leaseAt := t.now
      arr := { (match restoredArray t core with | .ok a => a | .error _ => t.core.arr) with passes := 0, cycles := 0 } }) { hfocus.core with arr := harr }
    have hback := tidy_absorb (restoredArray t core) hheld
    split
    · next p _ hp => exact tidy_ite (tidy_releaseWait core .x hback fun r hr => hx.2 p r hp hr) hback
    · exact hback

theorem outTidy_execLeaseGrant (array : ℕ) {s : State} (hs : TidyState s) : OutTidy (execLeaseGrant array s) := by
  grind [execLeaseGrant, tidy_noteShort, tidy_grantLease, outTidy_next]

theorem outTidy_execLeaseGrantEnd (array : ℕ) {s : State} (hs : TidyState s) : OutTidy (execLeaseGrantEnd array s) := by
  grind [execLeaseGrantEnd, tidy_endGrant, outTidy_next]

end Sys2Proof.Proofs
end

section
/-! PROOF. Canonical form kept. Fetch, dispatch of a decoded instruction, the turns and the step (O60). -/

namespace Sys2Proof.Proofs
open Sys2Proof Sys2Proof.Machine Sys2Proof.Claims

theorem stopTidy_fetchStop (va : ℕ) {x : Stop} (h : stopTidy x) : stopTidy (fetchStop va x) := by
  cases x with
  | trap t =>
    unfold fetchStop
    dsimp only
    split
    · trivial
    · split <;> trivial
  | _ => exact h

theorem keeps_fetchMem {s : State} (va : ℕ) (hs : TidyState s) : Keeps (fun x => TidyState x.1) (fetchMem s va) := by
  have hfail {α β : Type} {r : Res α} (hr : Quiet r) {e : Stop} (h : r = .error e) :
      Keeps (fun x : State × β => TidyState x.1) (.error (fetchStop va e)) :=
    .error (stopTidy_fetchStop va (hr.of_error h))
  have hrule (l : Leaf) : Keeps (fun x => TidyState x.1)
      (if pteClass l.entry = 3 then .ok (s, false) else classRule s (curAccessor s) l va : Res (State × Bool)) :=
    keeps_ite (.ok hs) (keeps_classRule _ _ _ hs)
  unfold fetchMem
  dsimp only
  split
  · next h => exact hfail (quiet_translate ..) h
  · exact keeps_trap _
  · refine keeps_ite (.ok hs) ?_
    split
    · next h => exact hfail (hrule _).quiet h
    · next h =>
      have hs' := (hrule _).of_ok h
      split
      · next h => exact hfail (quiet_checkTag ..) h
      · split
        · next h => exact hfail (quiet_readErrors ..) h
        · exact .ok hs'

theorem keeps_fetchWord {s : State} (pc : ℕ) (hs : TidyState s) : Keeps (fun x => TidyState x.1) (fetchWord s pc) := by
  refine keeps_ite (keeps_fault _) ((keeps_fetchMem _ hs).map fun r hr => ?_)
  split
  · split
    exacts [hr, hr]
  · exact hr

/-- The words of an instruction are no part of the canonical form. -/
theorem tidy_setWords {s : State} (ws : List Word32) (hs : TidyState s) : TidyState { s with words := ws } := { hs with }

theorem keeps_decodeFetched {s : State} (ws : List Word32) (hs : TidyState s) : Keeps (fun x => TidyState x.1) (decodeFetched s ws) := by
  unfold decodeFetched
  split
  exacts [.ok (tidy_setWords ws hs), keeps_fault _]

/-- A fetch gives a state in canonical form, or a stop in canonical form. -/
def FetchTidy (r : Except (List Word32 × Stop) (State × Instr)) : Prop :=
  match r with
  | .ok x => TidyState x.1
  | .error e => stopTidy e.2

/-- A fetch that decodes its words. -/
theorem fetchTidy_decode {s : State} (ws : List Word32) (hs : TidyState s) :
    FetchTidy (match decodeFetched s ws with | .ok x => .ok x | .error e => .error (ws, e)) := by
  have hdecode := keeps_decodeFetched ws hs
  split
  · next h => exact hdecode.of_ok h
  · next h => exact hdecode.of_error h

theorem fetchTidy_fetchDecode {s : State} (hs : TidyState s) : FetchTidy (fetchDecode s) := by
  have hword (pc : ℕ) {s : State} (hs : TidyState s) := keeps_fetchWord pc hs
  unfold fetchDecode
  dsimp only
  split
  · trivial
  · split
    · next h => exact (hword _ hs).of_error h
    · next h =>
      have h0 := (hword _ hs).of_ok h
      split
      · trivial
      · split
        · trivial
        · split
          · split
            · trivial
            · split
              · trivial
              · split
                · next h => exact (hword _ h0).of_error h
                · next h => exact fetchTidy_decode _ ((hword _ h0).of_ok h)
          · split
            · split
              · next h => exact (hword _ h0).of_error h
              · next h => exact fetchTidy_decode _ ((hword _ h0).of_ok h)
            · exact fetchTidy_decode _ h0

/-- Words that are not fetched fault as an instruction does. -/
theorem stopTidy_displacedWords {s : State} {pc : ℕ} {w0 w1 : Word32} {e : List Word32 × Stop} (h : displacedWords s pc w0 w1 = .error e) :
    stopTidy e.2 := by
  grind [displacedWords, stopTidy]

theorem fetchTidy_nextInstr {s : State} (hs : TidyState s) : FetchTidy (nextInstr s) := by
  unfold nextInstr
  split
  · exact fetchTidy_fetchDecode hs
  · split
    · next h => exact stopTidy_displacedWords h
    · exact fetchTidy_decode _ hs

/-! ### Dispatch -/

theorem outTidy_exec (i : Instr) {s : State} (hs : TidyState s) : OutTidy (exec i s) := by
  cases i
  exacts [outTidy_execNop (hs := hs) .., outTidy_execB (hs := hs) .., outTidy_execCall (hs := hs) .., outTidy_execRet (hs := hs) ..,
    outTidy_execBccEq (hs := hs) .., outTidy_execBccNe (hs := hs) .., outTidy_execBccLt (hs := hs) .., outTidy_execBccGe (hs := hs) ..,
    outTidy_execBccLtn (hs := hs) .., outTidy_execBccGen (hs := hs) .., outTidy_execLoop (hs := hs) .., outTidy_execRndv (hs := hs) ..,
    outTidy_execWhereQ (hs := hs) .., outTidy_execFence (hs := hs) .., outTidy_execSemadd (hs := hs) .., outTidy_execSemwait (hs := hs) ..,
    outTidy_execSemwaitTake (hs := hs) .., outTidy_execSemtry (hs := hs) .., outTidy_execSemtryTake (hs := hs) .., outTidy_execSemset (hs := hs) ..,
    outTidy_execSemrd (hs := hs) .., outTidy_execSemrdDraw (hs := hs) .., outTidy_execSemrdPb (hs := hs) .., outTidy_execPbwait (hs := hs) ..,
    outTidy_execAdd (hs := hs) .., outTidy_execSub (hs := hs) .., outTidy_execMul (hs := hs) .., outTidy_execMulh (hs := hs) ..,
    outTidy_execMulhn (hs := hs) .., outTidy_execDiv (hs := hs) .., outTidy_execDivn (hs := hs) .., outTidy_execRem (hs := hs) ..,
    outTidy_execAnd (hs := hs) .., outTidy_execOr (hs := hs) .., outTidy_execXor (hs := hs) .., outTidy_execShl (hs := hs) ..,
    outTidy_execShr (hs := hs) .., outTidy_execSar (hs := hs) .., outTidy_execMin (hs := hs) .., outTidy_execMax (hs := hs) ..,
    outTidy_execMinn (hs := hs) .., outTidy_execMaxn (hs := hs) .., outTidy_execSlt (hs := hs) .., outTidy_execSltn (hs := hs) ..,
    outTidy_execSeq (hs := hs) .., outTidy_execSel (hs := hs) .., outTidy_execClz (hs := hs) .., outTidy_execCtz (hs := hs) ..,
    outTidy_execPopc (hs := hs) .., outTidy_execBfx (hs := hs) .., outTidy_execBfi (hs := hs) .., outTidy_execAddi (hs := hs) ..,
    outTidy_execAndi (hs := hs) .., outTidy_execOri (hs := hs) .., outTidy_execXori (hs := hs) .., outTidy_execShli (hs := hs) ..,
    outTidy_execShri (hs := hs) .., outTidy_execSari (hs := hs) .., outTidy_execLi (hs := hs) .., outTidy_execLih (hs := hs) ..,
    outTidy_execAddpc (hs := hs) .., outTidy_execFadd (hs := hs) .., outTidy_execFsub (hs := hs) .., outTidy_execFmul (hs := hs) ..,
    outTidy_execFfma (hs := hs) .., outTidy_execFdiv (hs := hs) .., outTidy_execFsqrt (hs := hs) .., outTidy_execFmin (hs := hs) ..,
    outTidy_execFmax (hs := hs) .., outTidy_execFcmp (hs := hs) .., outTidy_execFclass (hs := hs) .., outTidy_execFcvtTo (hs := hs) ..,
    outTidy_execFcvtFrom (hs := hs) .., outTidy_execLd1s (hs := hs) .., outTidy_execLd1z (hs := hs) .., outTidy_execLd2s (hs := hs) ..,
    outTidy_execLd2z (hs := hs) .., outTidy_execLd4s (hs := hs) .., outTidy_execLd4z (hs := hs) .., outTidy_execLd8 (hs := hs) ..,
    outTidy_execLd16 (hs := hs) .., outTidy_execSt1 (hs := hs) .., outTidy_execSt2 (hs := hs) .., outTidy_execSt4 (hs := hs) ..,
    outTidy_execSt8 (hs := hs) .., outTidy_execSt16 (hs := hs) .., outTidy_execAmo4 (hs := hs) .., outTidy_execAmo8 (hs := hs) ..,
    outTidy_execAcas4 (hs := hs) .., outTidy_execAcas8 (hs := hs) .., outTidy_execVadd (hs := hs) .., outTidy_execVsub (hs := hs) ..,
    outTidy_execVmul (hs := hs) .., outTidy_execVfma (hs := hs) .., outTidy_execVfms (hs := hs) .., outTidy_execVdiv (hs := hs) ..,
    outTidy_execVmin (hs := hs) .., outTidy_execVmax (hs := hs) .., outTidy_execVabs (hs := hs) .., outTidy_execVneg (hs := hs) ..,
    outTidy_execVand (hs := hs) .., outTidy_execVor (hs := hs) .., outTidy_execVxor (hs := hs) .., outTidy_execVnot (hs := hs) ..,
    outTidy_execVshl (hs := hs) .., outTidy_execVshr (hs := hs) .., outTidy_execVsar (hs := hs) .., outTidy_execVcmp (hs := hs) ..,
    outTidy_execVsel (hs := hs) .., outTidy_execVcvt (hs := hs) .., outTidy_execVexp2 (hs := hs) .., outTidy_execVlog2 (hs := hs) ..,
    outTidy_execVrcp (hs := hs) .., outTidy_execVrsq (hs := hs) .., outTidy_execVsqrt (hs := hs) .., outTidy_execVtanh (hs := hs) ..,
    outTidy_execVsig (hs := hs) .., outTidy_execVerf (hs := hs) .., outTidy_execVsin (hs := hs) .., outTidy_execVcos (hs := hs) ..,
    outTidy_execVclamp (hs := hs) .., outTidy_execVscale (hs := hs) .., outTidy_execVbcast (hs := hs) .., outTidy_execViota (hs := hs) ..,
    outTidy_execVperm (hs := hs) .., outTidy_execVmov (hs := hs) .., outTidy_execVred (hs := hs) .., outTidy_execVscan (hs := hs) ..,
    outTidy_execVdot (hs := hs) .., outTidy_execVdist (hs := hs) .., outTidy_execVthrc (hs := hs) .., outTidy_execVcomp (hs := hs) ..,
    outTidy_execVexpd (hs := hs) .., outTidy_execVhist (hs := hs) .., outTidy_execVxform (hs := hs) .., outTidy_execVmaxi (hs := hs) ..,
    outTidy_execVsort (hs := hs) .., outTidy_execVranki (hs := hs) .., outTidy_execVrankp (hs := hs) .., outTidy_execVranko (hs := hs) ..,
    outTidy_execXlease (hs := hs) .., outTidy_execXfree (hs := hs) .., outTidy_execXcellop (hs := hs) .., outTidy_execXzero (hs := hs) ..,
    outTidy_execXpass (hs := hs) .., outTidy_execXside (hs := hs) .., outTidy_execXsideb (hs := hs) .., outTidy_execXdrain (hs := hs) ..,
    outTidy_execXbias (hs := hs) .., outTidy_execAres (hs := hs) .., outTidy_execArel (hs := hs) .., outTidy_execAqry (hs := hs) ..,
    outTidy_execApub (hs := hs) .., outTidy_execDset (hs := hs) .., outTidy_execDgetf (hs := hs) .., outTidy_execDld (hs := hs) ..,
    outTidy_execDst (hs := hs) .., outTidy_execDcpy (hs := hs) .., outTidy_execDadv (hs := hs) .., outTidy_execRinit (hs := hs) ..,
    outTidy_execRcommit (hs := hs) .., outTidy_execRrelease (hs := hs) .., outTidy_execRstat (hs := hs) .., outTidy_execDcopy (hs := hs) ..,
    outTidy_execDgather (hs := hs) .., outTidy_execDscatter (hs := hs) .., outTidy_execDscata (hs := hs) .., outTidy_execDfill (hs := hs) ..,
    outTidy_execDpref (hs := hs) .., outTidy_execDpreq (hs := hs) .., outTidy_execDflush (hs := hs) .., outTidy_execDinv (hs := hs) ..,
    outTidy_execDput (hs := hs) .., outTidy_execDget (hs := hs) .., outTidy_execDfadd (hs := hs) .., outTidy_execDfcas (hs := hs) ..,
    outTidy_execDfencef (hs := hs) .., outTidy_execDflowOpen (hs := hs) .., outTidy_execDflowClose (hs := hs) .., outTidy_execDflowReset (hs := hs) ..,
    outTidy_execDflowStat (hs := hs) .., outTidy_execTdef (hs := hs) .., outTidy_execTacqR (hs := hs) .., outTidy_execTacqW (hs := hs) ..,
    outTidy_execTacqRTry (hs := hs) .., outTidy_execTacqWTry (hs := hs) .., outTidy_execTrel (hs := hs) .., outTidy_execTseal (hs := hs) ..,
    outTidy_execTsealDet (hs := hs) .., outTidy_execTsplit (hs := hs) .., outTidy_execTjoin (hs := hs) .., outTidy_execTfree (hs := hs) ..,
    outTidy_execTqry (hs := hs) .., outTidy_execGjoin (hs := hs) .., outTidy_execGleave (hs := hs) .., outTidy_execGsync (hs := hs) ..,
    outTidy_execGred (hs := hs) .., outTidy_execGbcast (hs := hs) .., outTidy_execGgath (hs := hs) .., outTidy_execLaunch (hs := hs) ..,
    outTidy_execLaunchTry (hs := hs) .., outTidy_execQstat (hs := hs) .., outTidy_execTlbinvPage (hs := hs) .., outTidy_execTlbinvRange (hs := hs) ..,
    outTidy_execTlbinvCtx (hs := hs) .., outTidy_execPmig (hs := hs) .., outTidy_execTrap (hs := hs) .., outTidy_execRte (hs := hs) ..,
    outTidy_execCsrr (hs := hs) .., outTidy_execCsrw (hs := hs) .., outTidy_execCsrs (hs := hs) .., outTidy_execCsrc (hs := hs) ..,
    outTidy_execIciv (hs := hs) .., outTidy_execBrk (hs := hs) .., outTidy_execYield (hs := hs) .., outTidy_execWaitRelease (hs := hs) ..,
    outTidy_execEngineInstructionComplete (hs := hs) .., outTidy_execEngineHeadEffect (hs := hs) .., outTidy_execArrayInstructionStart (hs := hs) ..,
    outTidy_execEngineFaultRaise (hs := hs) .., outTidy_execHandlerEntry (hs := hs) .., outTidy_execSyncDeadlock (hs := hs) ..,
    outTidy_execWaitTimeout (hs := hs) .., outTidy_execTimer (hs := hs) .., outTidy_execTenureGrant (hs := hs) .., outTidy_execLeaseGrant (hs := hs) ..,
    outTidy_execLeaseGrantEnd (hs := hs) .., outTidy_execRecordRead (hs := hs) .., outTidy_execDispatch (hs := hs) .., outTidy_execJobPlace (hs := hs) ..,
    outTidy_execCompletionWordIncrement (hs := hs) .., outTidy_execEventWrite (hs := hs) .., outTidy_execCheckpoint (hs := hs) ..,
    outTidy_execResume (hs := hs) .., outTidy_execKill (hs := hs) .., outTidy_execSliceEnd (hs := hs) .., outTidy_execDrainTimeout (hs := hs) ..,
    outTidy_execQueueSwitchOut (hs := hs) .., outTidy_execQueueSwitchIn (hs := hs) .., outTidy_execQtailWrite (hs := hs) ..,
    outTidy_execEvheadWrite (hs := hs) .., outTidy_execRegisterWrite (hs := hs) .., outTidy_execDbgReturn (hs := hs) ..,
    outTidy_execDbgStep (hs := hs) .., outTidy_execDbgDisplaced (hs := hs) .., outTidy_execDbgKill (hs := hs) .., outTidy_execDbgInval (hs := hs) ..,
    outTidy_execWindowRead (hs := hs) .., outTidy_execWindowWrite (hs := hs) .., outTidy_execLockInterfaceRequest (hs := hs) ..,
    outTidy_execStartInterfaceRequest (hs := hs) .., outTidy_execStopInterfaceRequest (hs := hs) .., outTidy_execGetDeviceInterfaceState (hs := hs) ..,
    outTidy_execGetDeviceInterfaceReport (hs := hs) .., outTidy_execIdeFailure (hs := hs) .., outTidy_execFunctionLevelReset (hs := hs) ..,
    outTidy_execContextCreate (hs := hs) .., outTidy_execContextHalt (hs := hs) .., outTidy_execContextUnhalt (hs := hs) ..,
    outTidy_execContextDestroy (hs := hs) .., outTidy_execHallmarkContent (hs := hs) .., outTidy_execAdapterInstall (hs := hs) ..,
    outTidy_execAdapterMoveHome (hs := hs) .., outTidy_execAdapterPin (hs := hs) .., outTidy_execAdapterUnpin (hs := hs) ..,
    outTidy_execAdapterRetire (hs := hs) .., outTidy_execPartitionRecordWrite (hs := hs) .., outTidy_execVdRecordWrite (hs := hs) ..,
    outTidy_execPstsQuery (hs := hs) .., outTidy_execFramePoolGive (hs := hs) .., outTidy_execPinPoolGive (hs := hs) ..,
    outTidy_execFlowPairing (hs := hs) .., outTidy_execFenceUnitRequest (hs := hs) .., outTidy_execQuarantineReinit (hs := hs) ..,
    outTidy_execMigrationPause (hs := hs) .., outTidy_execMarginRevoke (hs := hs) .., outTidy_execPurseRefill (hs := hs) ..,
    outTidy_execGovernorMeasure (hs := hs) .., outTidy_execGovernorRecoveryStep (hs := hs) .., outTidy_execThermalClockStep (hs := hs) ..,
    outTidy_execThermalTrip (hs := hs) .., outTidy_execAgeingMeasure (hs := hs) .., outTidy_execPageRequestDone (hs := hs) ..,
    outTidy_execMigrationComplete (hs := hs) .., outTidy_execCxlLinkDown (hs := hs) .., outTidy_execFlitCrcFail (hs := hs) ..,
    outTidy_execLinkDown (hs := hs) .., outTidy_execRemotePartArrive (hs := hs) .., outTidy_execRowMissingNotice (hs := hs) ..,
    outTidy_execPartPerformed (hs := hs) .., outTidy_execPartRefused (hs := hs) .., outTidy_execPartResend (hs := hs) ..,
    outTidy_execRemoteTimeout (hs := hs) .., outTidy_execFrameFillTimeout (hs := hs) .., outTidy_execFlagLate (hs := hs) ..,
    outTidy_execGroupFormed (hs := hs) .., outTidy_execAbortNotice (hs := hs) .., outTidy_execRecoveryImageSupply (hs := hs) ..,
    outTidy_execPackageReset .., outTidy_execPageOwnershipChange (hs := hs) .., outTidy_execWorldKeyInstall (hs := hs) ..,
    outTidy_execSpdmMessage (hs := hs) .., outTidy_execGroupContributionArrive (hs := hs) ..]

/-! ### A stream's turn -/

theorem tidy_chargeIssue (before : State) {after : State} (hafter : TidyState after) : TidyState (chargeIssue before after) := by
  grind [chargeIssue, tidy_chargePurse]

theorem outTidy_issueOne {s : State} (hs : TidyState s) : OutTidy (issueOne s) := by
  have hnext := fetchTidy_nextInstr hs
  unfold issueOne
  split
  · next ws e h =>
    rw [h] at hnext
    exact outTidy_next.2 (tidy_settle (tidy_setWords ws hs) (.error hnext))
  · next t i h =>
    rw [h] at hnext
    have hexec := outTidy_exec i hnext
    split
    · next h => exact outTidy_next.2 (tidy_chargeIssue s (hexec.next _ h))
    · exact hexec

theorem outTidy_issueTurn {s : State} (hs : TidyState s) : OutTidy (issueTurn s) := by
  grind [issueTurn, tidy_stepDone, tidy_raiseEngineFault, tidy_handlerEntry, tidy_timerAct, tidy_shortPurse, outTidy_issueOne, outTidy_next]

theorem outTidy_streamTurn {s : State} (core : ℕ) (st : StreamName) (hs : TidyState s) : OutTidy (streamTurn s core st) := by
  grind [streamTurn, outTidy_issueTurn, tidy_focusOn, tidyState_iff]

/-! ### Turns of the memory system -/

theorem tidy_fillTlb {s : State} (ctx va : ℕ) (hs : TidyState s) : TidyState (fillTlb s ctx va) := by
  grind [fillTlb, tidy_absorb, ctxTidy_ctxAt, tidy_setCtx, tabSorted_set, ctxTidy]

theorem tidy_fillIcache {s : State} (ctx va : ℕ) (hs : TidyState s) : TidyState (fillIcache s ctx va) := by
  grind [fillIcache, ctxTidy_ctxAt, tidy_absorb, tidy_setCtx, ctxTidy]

theorem tidy_writeBackTurn {s : State} (line : ℕ) (hs : TidyState s) : TidyState (writeBackTurn s line) := by
  grind [writeBackTurn, tidy_writeBackLine, tidy_shortPurse]

theorem tidy_strikeLine {s : State} (line kind : ℕ) (hs : TidyState s) : TidyState (strikeLine s line kind) := by
  grind [strikeLine, tidy_noteError, tidyState_iff]

theorem tidy_strikeAt {s : State} (kind addr core : ℕ) (hs : TidyState s) : TidyState (strikeAt s kind addr core) := by
  have hcore := tidyCore_coreAt hs core
  unfold strikeAt
  split
  · exact tidy_strikeLine _ _ hs
  · exact tidy_strikeLine _ _ hs
  · exact tidy_strikeLine _ _ hs
  · cases tabGet none s.l2 addr with
    | none => exact hs
    | some t => exact tidy_noteError (hs := { hs with }) ..
  · exact { hs with }
  · exact { hs with }
  · exact tidy_noteError (hs := { hs with }) ..
  · exact tidy_noteError (hs := tidy_putCore hs core { hcore with }) ..

/-! ### Turns -/

theorem tidy_actTurn {s : State} (a : Act) (hs : TidyState s) : TidyState (actTurn s a) := by
  cases a with
  | metaBack key => exact tidy_writeBackNode (hs := hs) ..
  | barRead => exact tidy_hostRead (hs := hs) ..
  | barWrite4 => exact tidy_hostWrite (hs := hs) (hr := tidy_writeBarHalf (hs := hs) ..) ..
  | configRead => exact tidy_readConfig (hs := hs) ..
  | agentRead => exact tidy_ite (tidy_send _ hs) hs
  | healthRead => exact tidy_ite (tidy_readHealth (hs := hs) ..) hs
  | joinArrive => exact tidy_joinArrives (hs := hs) ..
  | joinWithdrawn => exact tidy_joinWithdrawn (hs := hs) ..
  | joinRefused => exact tidy_joinRefused (hs := hs) ..
  | lockLoss => exact tidy_portDown (hs := hs) ..
  | routeWrite => exact tidy_writeRoute (hs := hs) ..
  | hdmWrite => exact tidy_ite { hs with } hs
  | bringUp => exact tidy_bringUpStep hs
  | firmwareFail => exact tidy_failFirmware hs

theorem outTidy_takeTurn {s : State} (w : Turn) (hs : TidyState s) : OutTidy (takeTurn s w) := by
  unfold takeTurn
  split
  · exact outTidy_fault _
  · cases w with
    | stream core st => exact outTidy_streamTurn core st hs
    | engine core eng n => exact outTidy_next.2 (tidy_engineTurn core eng n hs)
    | event i => exact outTidy_exec i hs
    | tlbFill ctx va => exact outTidy_next.2 (tidy_fillTlb ctx va hs)
    | icFill ctx va => exact outTidy_next.2 (tidy_fillIcache ctx va hs)
    | writeBack line => exact outTidy_next.2 (tidy_writeBackTurn line hs)
    | strike kind addr core => exact outTidy_next.2 (tidy_strikeAt kind addr core hs)
    | act a => exact outTidy_next.2 (tidy_actTurn a hs)

theorem outTidy_arrivesNow {s : State} (w : Turn) (hs : TidyState s) : OutTidy (arrivesNow s w) := by
  grind [arrivesNow, outTidy_takeTurn, outTidy_next, tidyState_iff]

theorem outTidy_nextTurn {s : State} (hs : TidyState s) : OutTidy (nextTurn s) := by
  unfold nextTurn
  split
  · exact outTidy_takeTurn _ { hs with }
  · exact outTidy_arrivesNow _ hs

/-! ### The step -/

theorem outTidy_step {s : State} (hs : TidyState s) : OutTidy (step s) := by
  have hturn := outTidy_nextTurn hs
  unfold step
  split
  · next t h => exact outTidy_next.2 (tidy_endStep (hturn.next t h))
  · exact hturn

/-- Settles O60: one step keeps each part of the state in canonical form, whatever turn it takes and whatever the end of the step does. -/
theorem stepsKeepTables : Obligations.StepsKeepTables := by
  unfold Obligations.StepsKeepTables
  exact fun s t hs h => tidy_iff.2 ((outTidy_step (tidy_iff.1 hs)).next t h)

end Sys2Proof.Proofs
end
